-- ==== Sys2Proof/Word.lean ====
section
/-! DEFINITION. Word.lean: the byte and register word types and their plainest conversions. -/

namespace Sys2Proof

/-- One byte of store, of a cell payload or of a command's data. -/
abbrev Byte := BitVec 8

/-- One BAR0 register: 64 bits (R9). -/
abbrev Word := BitVec 64

end Sys2Proof
end

