-- ==== Sys2Proof/Syntax.lean ====
section
/-! DEFINITION. Syntax.lean: the commands the hub takes (spec/opcode_table.json, one constructor per row) and the
plain data they carry. Numbers are `Nat`; `WellFormed.lean` bounds them by the widths the spec gives. -/

namespace Sys2Proof

/-- One Zilcen cell (Table 06-4, R191): the header fields and the 256 payload bytes (bytes beyond the list are 0). -/
structure Cell where
  ty : Nat
  vn : Nat
  colour : Nat
  ce : Bool
  fwd : Bool
  last : Bool
  dst : Nat
  src : Nat
  dstEp : Nat
  srcEp : Nat
  addr : Nat
  tag : Nat
  txn : Nat
  epoch : Nat
  opx : Nat
  len : Nat
  ack : Nat
  cvn : Nat
  ccnt : Nat
  payload : List Byte
deriving DecidableEq, Repr

/-- The paths into BAR0 (R549) and an LD's own BAR2 (R436). -/
inductive RegPath where
  | cores | fm | sideband | tap
  | bar2 (ld : Nat)
deriving DecidableEq, Repr

/-- Which part of a register an access reaches (R9). -/
inductive Half where
  | whole | lo | hi
deriving DecidableEq, Repr

/-- A write to one named register: the path, the half it reaches and the 64-bit (or, for a half, 32-bit) value. -/
structure RegW where
  path : RegPath
  half : Half
  val : Nat
deriving DecidableEq, Repr

/-- A raw write access to BAR0: offset, size in bytes and value (R9). -/
structure RegAcc where
  path : RegPath
  off : Nat
  size : Nat
  val : Nat
deriving DecidableEq, Repr

/-- A mailbox (R423): that of LD 0 to 15, of the FM-owned LD, or of the sideband. -/
inductive Mbx where
  | ld (i : Nat)
  | fm
  | sideband
  /-- no mailbox: where the completion goes of a command whose mailbox PERST_N has reset (R528); no command names it -/
  | gone
deriving DecidableEq, Repr

/-- A function (R418): a tenant or a logical device. -/
inductive Fn where
  | tenant (n : Nat)
  | ld (i : Nat)
deriving DecidableEq, Repr

/-- A read error of the store as the command's outside event: the tile whose read fails its check, and whether the second
read (R89) fails too. -/
structure Upset where
  tile : Nat
  twice : Bool
deriving DecidableEq, Repr

/-- The two writable registers of a shaper (Table 08-6). -/
inductive ShpReg where
  | cfg | mtch
deriving DecidableEq, Repr

/-- The two writable registers of a meter (Table 08-8). -/
inductive MeterReg where
  | cfg | rate
deriving DecidableEq, Repr

/-- The four registers of a coherent window (Table 10-10). -/
inductive CohWinReg where
  | base | fin | va | agents
deriving DecidableEq, Repr

/-- The two ring configuration registers whose write clears HEAD and TAIL (Table 15-10). -/
inductive RingReg where
  | base | ctl
deriving DecidableEq, Repr

/-- What the power stage's internal alert reports (R532). -/
inductive AlertCause where
  | underVoltage | overCurrent
deriving DecidableEq, Repr

/-- A supply fault that turns the main rails off (R532). -/
inductive SupplyFault where
  | under | over
deriving DecidableEq, Repr

/-- Meta0-State of a CXL.mem request (Table 10-3). -/
inductive MetaState where
  | i | s | a
deriving DecidableEq, Repr

/-- M2S BIRspI, BIRspS and BIRspE (Table 10-3). -/
inductive BiRsp where
  | i | s | e
deriving DecidableEq, Repr

/-- One range of device physical addresses in a Dynamic Capacity command (R387). -/
structure DcRange where
  dpa : Nat
  len : Nat
deriving DecidableEq, Repr

/-- The fields of Table 14-1 that EXT_ADD carries (Table 15-5). -/
structure ExtFields where
  flags : Nat
  tenant : Nat
  start : Nat
  len : Nat
  holder : Nat
  rights : Nat
  period : Nat
deriving DecidableEq, Repr

/-- One power-stage sample of 1 µs (R466, R467): input energy and the four rail groups in units of 2^-16 J, and the
energy the damper attributes to scheduled and unscheduled engine work, in nJ. -/
structure EnergySample where
  input : Nat
  rail0 : Nat
  rail1 : Nat
  rail2 : Nat
  rail3 : Nat
  sched : Nat
  unsched : Nat
deriving DecidableEq, Repr

/-- The header fields CFG_IDENT sets (R503). -/
structure CfgIdent where
  hubId : Nat
  yoke : Bool
  upper : Bool
  pairId : Nat
  peerSerial : Nat
  level : Nat
deriving DecidableEq, Repr

/-- The connection an SPDM message arrives on: the DOE of an LD, of the FM-owned LD, or the yoke inbox (R508, R518). -/
inductive SpdmConn where
  | doe (ld : Nat)
  | fm
  | yoke
deriving DecidableEq, Repr

/-- How an I3C dynamic address is given (R541). -/
inductive I3cHow where
  | setdasa | entdaa
deriving DecidableEq, Repr

/-- The commands: one constructor per row of spec/opcode_table.json. -/
inductive Instr where
  /-- REG_WRITE (R10): A write to a BAR0 register that has no row of its own sets its writable fields by their access codes, or is refused for size, alignment or lock. -/
  | regWrite (a : RegAcc)
  /-- TICK_BOUNDARY (R55): The tick period expires and the hub carries out the boundary actions at T(k+1) in their fixed order. -/
  | tickBoundary
  /-- TICK_LOST (R31): After 16 consecutive ticks without a TICK cell the hub stops the domain's jobs with E_LINK and acts as its own root. -/
  | tickLost
  /-- TICK_TREE_WRITE (R23): A write to TICK_TREE sets the domain tree, or is refused for depth above 8 or PARENT 26 to 30. -/
  | tickTreeWrite (w : RegW)
  /-- TICK_PERIOD_WRITE (R33): A write to TICK_PERIOD.BASE takes effect at the next boundary, or is discarded when out of range or when a job is admitted. -/
  | tickPeriodWrite (w : RegW)
  /-- TICK_GUARD_WRITE (R54): A write to TICK_GUARD takes effect at the next boundary, or is discarded when a job is admitted. -/
  | tickGuardWrite (w : RegW)
  /-- TICK (R26): A TICK cell received on the parent port aligns the member and is forwarded to children with CORR increased. -/
  | tick (port : Nat) (frac : Nat) (c : Cell)
  /-- DELAY_MEASURE (R27): Every 64 ticks a member sends DELAY_REQ on its parent port. -/
  | delayMeasure
  /-- DELAY_REQ (R27): A hub answers a DELAY_REQ within 1 µs with a DELAY_RESP on the same port. -/
  | delayReq (port : Nat) (frac : Nat) (c : Cell)
  /-- DELAY_RESP (R27): The member computes the one-way delay from the response stamps and updates TICK_PORT_DELAY_n. -/
  | delayResp (port : Nat) (frac : Nat) (c : Cell)
  /-- STRETCH_REQ (R37): A STRETCH_REQ from a child updates the latest requested level of that child port. -/
  | stretchReq (port : Nat) (c : Cell)
  /-- JOB_ADMIT (R45): The admission command reads and checks a schedule image, copies it, and takes its reservations or refuses it. -/
  | jobAdmit (mb : Mbx) (va : Nat)
  /-- ROOM_CLEARING_DONE (R99): Room clearing demotions end and the admission completes with OK or E_BUSY. -/
  | roomClearingDone (job : Nat)
  /-- JOB_START (R50): A start command arms an ADMITTED job, or an unstarted FAULTED one, for start tick S. -/
  | jobStart (mb : Mbx) (job : Nat) (start : Nat)
  /-- JOB_RESTART (R563): A restart command arms a FAULTED job to resume at its resume tick at T(S). -/
  | jobRestart (mb : Mbx) (job : Nat) (start : Nat)
  /-- JOB_RELEASE (R52): A release returns a job slot to IDLE at once, or stops a RUNNING job at a boundary. -/
  | jobRelease (mb : Mbx) (job : Nat)
  /-- SLOT_DISPATCH (R42): At a slot's start the sequencer dispatches its step descriptor to the named engine. -/
  | slotDispatch (job : Nat) (slot : Nat) (ups : List Upset)
  /-- STEP_COMPLETE (R56): An engine signals completion of a step once it has received all EXPECT inputs. -/
  | stepComplete (step : Nat) (energy : Nat)
  /-- STEP_DEADLINE (R56): The end of a slot is reached and the engine stops an unfinished step, which has overrun. -/
  | stepDeadline (step : Nat) (energy : Nat)
  /-- BOUNDARY_WORK_DONE (R86): Boundary tile map actions that outran the guard finish, releasing requests waiting on them at the tier controller. -/
  | boundaryWorkDone
  /-- SCRUB_TILE (R91): Scrub reads and verifies the next SEALED tile in rising order under its maintenance lock. -/
  | scrubTile (ups : List Upset)
  /-- READ (R262): A READ request cell is checked, translated and performed at its home, and answered with READ_RSP. -/
  | read (inp : Nat) (c : Cell)
  /-- WRITE (R73): A WRITE cell is checked, translated and applied as a byte-path store that opens the tile, and answered with WRITE_RSP. -/
  | write (inp : Nat) (c : Cell)
  /-- ATOMIC (R271): An ATOMIC cell executes indivisibly at the home tier controller and is answered with ATOMIC_RSP. -/
  | atomic (inp : Nat) (c : Cell)
  /-- READ_RSP (R219): A READ response returns to the unit that issued the request and is matched by TXN, or relayed for a forward. -/
  | readRsp (inp : Nat) (c : Cell)
  /-- WRITE_RSP (R347): A WRITE response completes the write it answers, including a gather's or query's output writes. -/
  | writeRsp (inp : Nat) (c : Cell)
  /-- ATOMIC_RSP (R219): An ATOMIC response completes the atomic it answers. -/
  | atomicRsp (inp : Nat) (c : Cell)
  /-- REQ_TIMEOUT (R203): A request issued on VN0 with no response within FAB_REQ_TIMEOUT completes with E_LINK. -/
  | reqTimeout (txn : Nat)
  /-- DEMAND_DECAY (R102): Every MIG_DEMAND.DECAY ticks every demand count is halved. -/
  | demandDecay
  /-- MIG_HINT (R104): The hint command translates a tile range and writes HINT into every entry, or changes nothing. -/
  | migHint (mb : Mbx) (va : Nat) (n : Nat) (hint : Nat)
  /-- MIG_COPY_START (R108): The barrow starts a copy of a SEALED tile, taking its lock, setting ALT_LOC and moving it to IN_TRANSIT. -/
  | migCopyStart (tile : Nat)
  /-- MIG_PASS_END (R112): At the end of a copy pass the barrow closes for cut-over, makes a re-copy pass, or abandons the copy. -/
  | migPassEnd (tile : Nat) (ups : List Upset)
  /-- MIG_DRAIN_DONE (R113): Requests accepted at the source before the close complete, and the final copy of dirty sub-blocks begins. -/
  | migDrainDone (tile : Nat)
  /-- MIG_FLIP (R113): The final copy ends and the map is flipped to the destination, releasing held requests there. -/
  | migFlip (tile : Nat)
  /-- MIG_ABANDON (R114): A cut-over not flipped by c plus 1,000 TBS cycles is abandoned and held requests go to the source. -/
  | migAbandon (tile : Nat)
  /-- MAINT_LOCK_GRANT (R121): A waiting internal maintenance activity receives its tile-range lock once the holder releases it. -/
  | maintLockGrant (lock : Nat)
  /-- MIG_MAINT_WAIT (R123): An internal maintenance activity that has waited 1 s for a lock raises its notice and keeps waiting. -/
  | migMaintWait (lock : Nat)
  /-- REDUCE (R161): A reduction cell is matched to its running step, aligned and added to its frame, or discarded as stray, malformed or excess. -/
  | reduce (inp : Nat) (c : Cell)
  /-- POSTED_REDUCE (R165): A posted reduction opens or joins a posted frame for its tile, or is dropped. -/
  | postedReduce (inp : Nat) (c : Cell)
  /-- POST_CUTOFF (R165): A posted frame closes at its cutoff before the boundary. -/
  | postCutoff
  /-- POST_CONVERT (R165): The churn converts a closed posted frame into a shadow once unreserved engine time allows. -/
  | postConvert (tile : Nat)
  /-- MCAST_STORE (R173): A multicast store cell is replicated by its group and applied at this hub as a 256-byte byte-path store. -/
  | mcastStore (inp : Nat) (c : Cell)
  /-- CKPT_DATA (R176): Checkpoint data and trailer cells are assembled, checked by CRC_P, written to a shadow, and acknowledged. -/
  | ckptData (inp : Nat) (c : Cell)
  /-- CKPT_ASSEMBLY_TIMEOUT (R176): An assembly incomplete TIMEOUT ticks after its first cell is answered with E_LINK or dropped. -/
  | ckptAssemblyTimeout (tile : Nat)
  /-- CKPT_ACK (R177): A checkpoint acknowledgement is counted toward its copy and records the tile in the checkpoint record. -/
  | ckptAck (inp : Nat) (c : Cell)
  /-- CKPT_ACK_TIMEOUT (R177): A tile unacknowledged TIMEOUT plus 2 ticks after its trailer counts as acknowledged with E_LINK. -/
  | ckptAckTimeout (rid : Nat) (tile : Nat)
  /-- CKPT_COPY (R174): The checkpoint command starts a commanded copy of sealed tiles to a partner. -/
  | ckptCopy (mb : Mbx) (body : List Byte) (ups : List Upset)
  /-- PORT_CTL_WRITE (R185): A write to FAB_PORT_CTL_n enables or disables a port, sending it to DETECT or DISABLED. -/
  | portCtlWrite (n : Nat) (w : RegW)
  /-- PORT_DETECT_DONE (R185): Optical signal appears on all 8 lanes and the port enters TRAIN. -/
  | portDetectDone (n : Nat)
  /-- PORT_TRAIN_DONE (R185): Equaliser and clock recovery complete and the port enters LOCK. -/
  | portTrainDone (n : Nat)
  /-- PORT_LOCK_DONE (R186): Codeword lock, lane order, polarity and deskew are found and the port enters NEGOTIATE. -/
  | portLockDone (n : Nat) (skew : Nat)
  /-- PORT_NEGOTIATE_DONE (R187): NEG exchange completes and the port comes UP or goes DOWN on a peer mismatch. -/
  | portNegotiateDone (n : Nat)
  /-- PORT_STAGE_TIMEOUT (R185): A port state exceeds its bound and the port goes DOWN. -/
  | portStageTimeout (n : Nat) (lanes : Nat)
  /-- PORT_DOWN_WAIT (R185): A DOWN port that has waited 100 ms enters DETECT again. -/
  | portDownWait (n : Nat)
  /-- LANE_LOCK_LOST (R188): Loss of codeword lock on a lane for 1 µs sends the port to RECOVER. -/
  | laneLockLost (n : Nat) (lane : Nat)
  /-- RECOVER_TIMEOUT (R188): A port in RECOVER for HOLD goes DOWN and discards its replay buffer and queued cells. -/
  | recoverTimeout (n : Nat)
  /-- IDLE_BLOCK (R200): An IDLE control block returns acknowledgements and cumulative credits. -/
  | idleBlock (n : Nat) (b : List Byte)
  /-- NAK (R198): A NAK makes the transmitter resend from the named cell within 32 ns. -/
  | nak (n : Nat) (b : List Byte)
  /-- LANE_BLOCK (R186): A LANE block gives a lane number and codeword counter during LOCK. -/
  | laneBlock (n : Nat) (b : List Byte)
  /-- NEG_BLOCK (R187): A NEG block carries the peer's kind, node, port, flags, domain, credits and RX_NEXT. -/
  | negBlock (n : Nat) (b : List Byte)
  /-- RETRAIN (R188): A RETRAIN block from the peer sends the port to RECOVER. -/
  | retrain (n : Nat) (b : List Byte)
  /-- CELL_CRC_FAIL (R197): A cell whose CCRC fails is discarded with later cells and a NAK is sent. -/
  | cellCrcFail (n : Nat)
  /-- NAK_REPEAT (R197): A NAK is repeated when the expected cell has not arrived 2 µs after it. -/
  | nakRepeat (n : Nat)
  /-- FAB_BAD_CELL (R194): A cell of reserved type, wrong VN or out-of-range field is discarded and counted. -/
  | fabBadCell (inp : Nat) (c : Cell)
  /-- SWITCH_CELL_ARRIVE (R219): A cell enters the switch core, is routed, hashed, metered and profiled, and enqueued in its VOQ. -/
  | switchCellArrive (inp : Nat) (c : Cell)
  /-- SWITCH_MATCH (R225): Each cell time every plane runs a four-iteration matching of VOQs to output positions. -/
  | switchMatch
  /-- CELL_EGRESS (R249): A matched cell leaves its external port in slot, plane and position order after VN3 cells. -/
  | cellEgress (q : Nat)
  /-- SKIM_ISSUE (R236): A skimmer entry reaching the head of its gateway queue is carried out once and answered to it and every rider. -/
  | skimIssue (g : Nat)
  /-- FAB_CRED_INIT_WRITE (R217): A write to FAB_CRED_INIT is discarded if its fields sum above 8,192, and otherwise applies at the next NEGOTIATE. -/
  | fabCredInitWrite (w : RegW)
  /-- SWX_PROF_WRITE (R233): A write to a colour profile is discarded for an invalid ACTION or thresholds. -/
  | swxProfWrite (v : Nat) (c : Nat) (w : RegW)
  /-- SWX_BUF_WRITE (R238): A write to SWX_BUF.INT_RES takes effect only while no internal port holds a cell. -/
  | swxBufWrite (w : RegW)
  /-- MCAST_SET (R228): The multicast group command writes a group table entry, refusing group 0. -/
  | mcastSet (mb : Mbx) (group : Nat) (entry : Nat)
  /-- TAG_SET (R239): The tenant tag command writes a tag table entry mapping a tag to an arbiter slot. -/
  | tagSet (mb : Mbx) (tag : Nat) (entry : Nat)
  /-- SHAPER_WRITE (R253): A write to a shaper configuration or match register resets its tokens. -/
  | shaperWrite (q : Nat) (k : Nat) (r : ShpReg) (w : RegW)
  /-- METER_WRITE (R253): A write to a meter configuration or rate register resets its tokens. -/
  | meterWrite (m : Nat) (r : MeterReg) (w : RegW)
  /-- GATE_WRITE (R254): A gate window write is discarded if out of range or overlapping, and otherwise takes effect at the next boundary. -/
  | gateWrite (q : Nat) (g : Nat) (i : Nat) (w : RegW)
  /-- SAMPLE_PERIOD_CLOSE (R256): Each sampling period closes at a boundary and writes depth and delay statistics. -/
  | samplePeriodClose
  /-- CRD_S (R291): A read asking for a shared copy is served by the directory by the line's state. -/
  | crdS (inp : Nat) (c : Cell)
  /-- CRD_E (R291): A read asking for an exclusive copy invalidates other holders and grants exclusive. -/
  | crdE (inp : Nat) (c : Cell)
  /-- CUPG (R291): An upgrade from shared to exclusive invalidates other sharers and grants exclusive. -/
  | cupg (inp : Nat) (c : Cell)
  /-- CWB (R291): A write-back applies the owner's line and frees the entry. -/
  | cwb (inp : Nat) (c : Cell)
  /-- CSNP_RSP (R292): A snoop answer applies dirty data and lets the waiting request complete. -/
  | csnpRsp (inp : Nat) (c : Cell)
  /-- BICONFLICT (R290): A host BIConflict is answered with BIConflictAck after earlier snoops of that line are answered. -/
  | biconflict (ld : Nat) (dpa : Nat)
  /-- HOLD_WINDOW_END (R297): A line's hold window ends and waiting requests for it may snoop the granted agent. -/
  | holdWindowEnd (line : Nat)
  /-- COH_SNOOP_SLOW (R294): A snoop unanswered for SNP_WARN µs raises its notice once. -/
  | cohSnoopSlow (line : Nat) (agent : Nat)
  /-- PRED_DECAY (R298): Every COH_PRED.DECAY ticks every contention counter above 0 decreases by one. -/
  | predDecay
  /-- LOST_WALK_DONE (R306): The lost-agent walk ends and COH_LOST_WRITE notices go to the tenants that lost lines. -/
  | lostWalkDone
  /-- COH_WIN_WRITE (R283): A coherent window write is discarded if invalid, or takes effect once lines in the old range are back-invalidated. -/
  | cohWinWrite (n : Nat) (r : CohWinReg) (w : RegW)
  /-- LOST_WRITES (R305): The lost-write command returns a tenant's lost-write entries and clears the record once all are read. -/
  | lostWrites (mb : Mbx) (start : Nat) (count : Nat)
  /-- SEGT_READ (R314): OP 1 copies the selected segment entry, as it will stand at the next boundary, into SEGT_WORD0 to SEGT_WORD2. -/
  | segtRead (w : RegW)
  /-- SEGT_WRITE (R315): OP 2 writes the selected segment entry for the next boundary, or refuses it with E_BAD_DESC or E_RIGHTS. -/
  | segtWrite (w : RegW)
  /-- WIN_READ (R320): OP 1 copies the selected inbound window entry into WIN_WORD0 to WIN_WORD2. -/
  | winRead (w : RegW)
  /-- WIN_WRITE (R321): OP 2 writes the selected inbound window entry, or refuses it with E_BAD_DESC or E_RIGHTS. -/
  | winWrite (w : RegW)
  /-- FLT_POP (R328): A write equal to HEAD_SEQ copies the oldest fault entry to FLT_POP_DATA and frees it. -/
  | fltPop (w : RegW)
  /-- FLT_OVF_CLR (R329): A write clears a tenant's overflow counters and ends its overflow episode. -/
  | fltOvfClr (w : RegW)
  /-- VT_OPEN (R353): Takes a free versioned table handle for the tenant with its base. -/
  | vtOpen (mb : Mbx) (base : Nat)
  /-- VT_SWITCH (R353): Sets a pending base that becomes current at the next boundary. -/
  | vtSwitch (mb : Mbx) (h : Nat) (base : Nat)
  /-- VT_CLOSE (R353): Frees a versioned table handle when no step is bound to it. -/
  | vtClose (mb : Mbx) (h : Nat)
  /-- STRN_OPEN (R365): Reads and checks a collection record and takes a handle that opens at the next boundary. -/
  | strnOpen (mb : Mbx) (va : Nat) (ups : List Upset)
  /-- STRN_CLOSE (R365): Closes a collection handle at the next boundary. -/
  | strnClose (mb : Mbx) (h : Nat)
  /-- MUTATION_COMMIT (R377): A strainer mutation takes the shadows of every tile it changed in one tile map change. -/
  | mutationCommit (h : Nat)
  /-- EXT_ADD (R385): Creates an extent lent to one holder, LIVE or OFFERED as DCD. -/
  | extAdd (mb : Mbx) (x : ExtFields)
  /-- EXT_REVOKE (R392): Starts the release path of an extent by revocation. -/
  | extRevoke (mb : Mbx) (lease : Nat)
  /-- EXT_RELEASE (R392): Starts the release path of an extent held by this LD. -/
  | extRelease (mb : Mbx) (lease : Nat)
  /-- LEASE_RENEW (R390): A logical device renews a lease through the mailbox and receives the fields of an ACK. -/
  | leaseRenew (mb : Mbx) (lease : Nat) (seq : Nat)
  /-- EMBER (R389): An EMBER RENEW is judged against the extent and answered with an EMBER ACK. -/
  | ember (inp : Nat) (c : Cell)
  /-- EXT_GRACE (R388): A lease not renewed for one period enters GRACE. -/
  | extGrace (i : Nat)
  /-- LEASE_EXPIRE (R391): At T(x) the lease expires, the extent is fenced and the holder is declared lost. -/
  | leaseExpire (i : Nat)
  /-- EXT_DRAIN_DONE (R394): Accepted requests and snoops of a fenced extent finish and zeroisation begins. -/
  | extDrainDone (i : Nat)
  /-- EXT_DRAIN_CUT (R394): At f plus 50 µs remaining requests complete with E_LEASE and unanswered snoops count as lost. -/
  | extDrainCut (i : Nat)
  /-- EXT_RELEASED (R395): Zeroisation of an extent ends, it becomes FREE and its GEN increases. -/
  | extReleased (i : Nat)
  /-- ADD_DC_RESPONSE (R387): The host's Add Dynamic Capacity Response accepts an offered extent, making it LIVE, or rejects it. -/
  | addDcResponse (ld : Nat) (accepted : List DcRange)
  /-- RELEASE_DC (R387): The host's Release Dynamic Capacity command starts the extent's release path. -/
  | releaseDc (ld : Nat) (r : DcRange)
  /-- EXT_OFFER_LAPSED (R387): A DCD offer unanswered within EXT_CTL.OFFER becomes FREE. -/
  | extOfferLapsed (i : Nat)
  /-- COMP_SET (R396): Sets a composition map entry, taking effect at a boundary. -/
  | compSet (mb : Mbx) (idx : Nat) (image : List Byte)
  /-- COMP_CLEAR (R396): Clears a composition map entry, taking effect at a boundary. -/
  | compClear (mb : Mbx) (idx : Nat)
  /-- HANDOVER (R403): Starts an ownership hand-over at the record home, which sends HO_BEGIN. -/
  | handover (mb : Mbx) (idx : Nat) (newOwner : Nat) (newTag : Nat) (newVa : Nat) (ckpt : Nat)
  /-- HO_BEGIN (R403): The old or new owner enters HANDOVER, holds requests and begins its check. -/
  | hoBegin (inp : Nat) (c : Cell)
  /-- HO_RELEASE_CHECK (R404): After its drain the old owner checks every tile against its checkpoint and sends HO_RELEASE. -/
  | hoReleaseCheck (idx : Nat)
  /-- HO_READY (R403): The record home records the new owner's result and commits or reverts when both are in. -/
  | hoReady (inp : Nat) (c : Cell)
  /-- HO_RELEASE (R403): The record home records the old owner's result and commits or reverts when both are in. -/
  | hoRelease (inp : Nat) (c : Cell)
  /-- HO_COMMIT (R403): A hub learns the commit boundary and new epoch, or applies a late commit at once. -/
  | hoCommit (inp : Nat) (c : Cell)
  /-- HO_REVERT (R406): A hub restores OWNED with the old owner and releases its held requests. -/
  | hoRevert (inp : Nat) (c : Cell)
  /-- HO_TIMEOUT (R406): A hand-over not committed within 500 µs reverts. -/
  | hoTimeout (idx : Nat)
  /-- OWN_QUERY (R407): The record home answers an ownership query with the settled or pending outcome. -/
  | ownQuery (inp : Nat) (c : Cell)
  /-- OWN_ANSWER (R407): An ownership answer applies as HO_COMMIT or HO_REVERT would. -/
  | ownAnswer (inp : Nat) (c : Cell)
  /-- OWN_QUERY_TIMER (R407): A hub holding a request QUERY µs without an outcome sends OWN_QUERY, repeating every QUERY µs. -/
  | ownQueryTimer (idx : Nat)
  /-- COMP_NO_OWNER (R407): A request held 1 ms after its timestamp completes with E_NO_OWNER. -/
  | compNoOwner (req : Nat)
  /-- HO_MESSAGE_RETRY (R409): A hand-over message without an OK WRITE_RSP is resent at every QUERY period. -/
  | hoMessageRetry (msg : Nat)
  /-- MEM_RD (R413): A CXL.mem read is checked, served or mapped to the directory, and never poisoned. -/
  | memRd (ld : Nat) (dpa : Nat) (ms : MetaState) (tag : Nat)
  /-- MEM_WR (R413): A CXL.mem write is applied as a store or write-back, or completes with Cmp changing nothing. -/
  | memWr (ld : Nat) (dpa : Nat) (ms : MetaState) (tag : Nat) (data : List (Option Byte))
  /-- MEM_INV (R290): A MemInv with Meta0-State A acts as CUPG. -/
  | memInv (ld : Nat) (dpa : Nat) (tag : Nat)
  /-- BIRSP (R290): A host back-invalidation response acts as a snoop answer. -/
  | birsp (ld : Nat) (dpa : Nat) (r : BiRsp)
  /-- GET_EVENT_RECORDS (R424): The CXL Get Event Records mailbox command. -/
  | getEventRecords (mb : Mbx) (log : Nat)
  /-- CLEAR_EVENT_RECORDS (R424): The CXL Clear Event Records mailbox command. -/
  | clearEventRecords (mb : Mbx) (log : Nat) (handles : List Nat)
  /-- GET_EVENT_INTERRUPT_POLICY (R424): The CXL Get Event Interrupt Policy mailbox command. -/
  | getEventInterruptPolicy (mb : Mbx)
  /-- SET_EVENT_INTERRUPT_POLICY (R424): The CXL Set Event Interrupt Policy mailbox command. -/
  | setEventInterruptPolicy (mb : Mbx) (policy : List Byte)
  /-- GET_TIMESTAMP (R424): The CXL Get Timestamp mailbox command. -/
  | getTimestamp (mb : Mbx)
  /-- SET_TIMESTAMP (R424): Sets the host's reference time without changing the timebase. -/
  | setTimestamp (mb : Mbx) (t : Nat)
  /-- GET_SUPPORTED_LOGS (R424): The CXL Get Supported Logs mailbox command. -/
  | getSupportedLogs (mb : Mbx)
  /-- GET_LOG (R424): The CXL Get Log mailbox command. -/
  | getLog (mb : Mbx) (uuid : Nat) (off : Nat) (len : Nat)
  /-- IDENTIFY_MEMORY_DEVICE (R424): The CXL Identify Memory Device mailbox command. -/
  | identifyMemoryDevice (mb : Mbx)
  /-- GET_DC_CONFIGURATION (R424): The CXL Get Dynamic Capacity Configuration mailbox command. -/
  | getDcConfiguration (mb : Mbx)
  /-- GET_DC_EXTENT_LIST (R424): The CXL Get Dynamic Capacity Extent List mailbox command. -/
  | getDcExtentList (mb : Mbx)
  /-- MLD_MANAGEMENT (R424): An FM-owned LD command among the CXL MLD port and LD management commands. -/
  | mldManagement (mb : Mbx) (op : Nat) (input : List Byte)
  /-- MAILBOX_UNSUPPORTED (R424): A mailbox opcode not supported returns Unsupported or Invalid Input. -/
  | mailboxUnsupported (mb : Mbx) (op : Nat) (input : List Byte)
  /-- ENG_SUBMIT (R566): Submits a row engine or strainer step to run in unreserved engine time. -/
  | engSubmit (mb : Mbx) (cls : Nat) (inst : Nat) (desc : List Byte) (ups : List Upset)
  /-- ENG_STEP_SUSPEND (R566): An unscheduled step is suspended when a reserved interval of its engine begins. -/
  | engStepSuspend (step : Nat)
  /-- ENG_STEP_RESUME (R566): A suspended unscheduled step resumes when the reserved interval ends. -/
  | engStepResume (step : Nat)
  /-- WIN_LIST (R417): Returns the coherent windows the LD may cache as device physical address ranges. -/
  | winList (mb : Mbx)
  /-- TENANT_ENABLE (R422): Enables an OFF tenant at or after READY_TICK. -/
  | tenantEnable (mb : Mbx) (tenant : Nat)
  /-- TENANT_DISABLE (R419): Takes the zeroisation lock and moves an ON tenant to DRAINING. -/
  | tenantDisable (mb : Mbx) (tenant : Nat)
  /-- LD_ENABLE (R422): Enables an OFF, bound logical device at or after READY_TICK. -/
  | ldEnable (mb : Mbx) (ld : Nat)
  /-- LD_DISABLE (R419): Moves an ON logical device to DRAINING and declares it lost. -/
  | ldDisable (mb : Mbx) (ld : Nat)
  /-- FN_STATE (R427): Returns a function's state and READY_TICK. -/
  | fnState (mb : Mbx) (fn : Fn)
  /-- NOTICE_SUB (R429): Adds or removes a notice subscriber of the tenant. -/
  | noticeSub (mb : Mbx) (op : Nat) (hub : Nat) (ep : Nat)
  /-- FN_DRAIN_DONE (R420): A DRAINING function's accepted requests complete and it enters ZEROISING. -/
  | fnDrainDone (fn : Fn)
  /-- FN_DRAIN_CUT (R420): At f plus 50 µs a function's remaining requests complete as at an extent drain bound. -/
  | fnDrainCut (fn : Fn)
  /-- FN_OFF (R422): Zeroisation ends, the function enters OFF with READY_TICK, and its disable completes. -/
  | fnOff (fn : Fn)
  /-- RING_TAIL_WRITE (R433): A host write to an LD ring's TAIL is its doorbell, or is discarded as a bad tail. -/
  | ringTailWrite (ld : Nat) (w : RegW)
  /-- SYSRING_TAIL_WRITE (R435): A write to HOST_SYSRING_TAIL consumes system ring records. -/
  | sysringTailWrite (w : RegW)
  /-- RING_CFG_WRITE (R438): A write to HOST_RING_BASE_i or HOST_RING_CTL_i sets HEAD and TAIL to 0. -/
  | ringCfgWrite (ld : Nat) (r : RingReg) (w : RegW)
  /-- RING_COALESCE_TIMER (R434): COAL_US µs after an uncovered record the hub signals the ring's MSI-X vector. -/
  | ringCoalesceTimer (ld : Nat)
  /-- HOST_LINK_UP (R412): The host link trains, setting DEGRADED if below x16 or 64 GT/s. -/
  | hostLinkUp (width : Nat) (rate : Nat)
  /-- HOST_LINK_DOWN (R437): The host link goes down and every LD of the link is declared lost. -/
  | hostLinkDown
  /-- PERST_ASSERT (R528): PERST_N assertion resets the CXL PHY, controller and configuration spaces and counts as host link loss. -/
  | perstAssert
  /-- PERST_RELEASE (R528): PERST_N goes high and the link trains once the start has reached ROM. -/
  | perstRelease
  /-- ABORT (R208): An ABORT cell of the domain is forwarded once and sets the stop boundary of its job. -/
  | abort (inp : Nat) (c : Cell)
  /-- HERD_FORM (R439): Creates the herd record of an ADMITTED job slot. -/
  | herdForm (mb : Mbx) (job : Nat) (id : Nat) (minMembers : Nat)
  /-- HERD_ABORT (R441): Raises a commanded class 5 fault that aborts the job at every member. -/
  | herdAbort (mb : Mbx) (job : Nat)
  /-- HERD_CULL (R458): Culls a member by command within the cull budget. -/
  | herdCull (mb : Mbx) (job : Nat) (hub : Nat)
  /-- HERD_REIMAGE (R455): Replaces the image of a FAULTED job in AWAIT_IMAGE or STALLED. -/
  | herdReimage (mb : Mbx) (job : Nat) (va : Nat)
  /-- HERD_REBALANCE (R456): Takes the rebalance lock and restores a departed member's tiles from its partner. -/
  | herdRebalance (mb : Mbx) (job : Nat) (partner : Nat) (epoch : Nat) (partnerVa : Nat) (tiles : Nat) (dstVa : Nat)
  /-- HERD_SHADOW (R460): Admits the image of a working member at a shadow hub. -/
  | herdShadow (mb : Mbx) (tenant : Nat) (va : Nat) (work : Nat) (id : Nat)
  /-- HERD_STATUS (R463): Returns a herd's state, membership, epochs and stop tick. -/
  | herdStatus (mb : Mbx) (job : Nat)
  /-- HERD_SCORE_CLEAR (R463): Clears a member's health score at the leader. -/
  | herdScoreClear (mb : Mbx) (job : Nat) (hub : Nat)
  /-- BEAT_SEND (R446): Every BEAT ticks a member sends a BEAT to the leader, or the leader to the next member. -/
  | beatSend
  /-- BEAT (R450): A BEAT refreshes the sender's liveness and records STOPPED for a restart. -/
  | beat (inp : Nat) (c : Cell)
  /-- MEMBER_LOST (R446): A member without a BEAT for 3 × BEAT ticks is declared lost as a class 4 fault. -/
  | memberLost (job : Nat) (hub : Nat)
  /-- EPOCH_DONE (R449): The leader records that a member finished an epoch's checkpoint copies. -/
  | epochDone (inp : Nat) (c : Cell)
  /-- EPOCH_COMMIT (R449): A member records the epoch as committed. -/
  | epochCommit (inp : Nat) (c : Cell)
  /-- RESTART (R450): A member restores its tiles to the committed epoch, or arms the job for job tick J_E at T(S). -/
  | restart (inp : Nat) (c : Cell)
  /-- RESTORED (R450): The leader records a member's restore result and sends the arming RESTART when all are OK. -/
  | restored (inp : Nat) (c : Cell)
  /-- RESTORE_REQ (R451): A partner runs a commanded checkpoint copy back to the requesting member. -/
  | restoreReq (inp : Nat) (c : Cell)
  /-- RESTORE_COMPLETE (R451): Every restore copy is acknowledged and published, and the member answers RESTORED. -/
  | restoreComplete (job : Nat)
  /-- DIGEST (R460): A shadow compares the working member's digest with its own for the same tick. -/
  | digest (inp : Nat) (c : Cell)
  /-- DIGEST_MISSING (R461): A shadow without DIGEST for 2 ticks ends its shadowing. -/
  | digestMissing (job : Nat)
  /-- MEMBERS (R462): A MEMBERS message carries the new member count. -/
  | members (inp : Nat) (c : Cell)
  /-- SHADOW_PASSED (R461): The leader records a passed shadow for admission at the next restart. -/
  | shadowPassed (inp : Nat) (c : Cell)
  /-- HERD_MESSAGE_RETRY (R462): A herd message other than BEAT and DIGEST is resent every 100 µs until acknowledged OK. -/
  | herdMessageRetry (msg : Nat)
  /-- SCORE_DECAY (R457): Every DECAY hours every member's health score is halved. -/
  | scoreDecay
  /-- CULL_BUDGET_EXPIRE (R457): A cull leaves the budget 3,600 s after it was made. -/
  | cullBudgetExpire
  /-- ENERGY_SAMPLE (R466): Every 1 µs the power stage adds the interval's input energy and updates power means. -/
  | energySample (e : EnergySample)
  /-- FAST_LIMIT_STEP (R475): Every 10 µs while FAST stays at the limit EMERG rises by one. -/
  | fastLimitStep
  /-- FAST_LIMIT_END (R475): FAST below 95 % of the limit for 100 µs ends the episode. -/
  | fastLimitEnd
  /-- EMERG_LOWER (R475): Every 100 µs after the episode ends EMERG falls by one unless a throttle holds it. -/
  | emergLower
  /-- DAMP_CAP_WRITE (R469): A write to DAMP_CAP takes effect at the next boundary, or is discarded when CAP exceeds FAST. -/
  | dampCapWrite (w : RegW)
  /-- PWR_ALERT_ASSERT (R476): PWR_ALERT_N sampled low twice forces the lowest power state within 1 µs. -/
  | pwrAlertAssert
  /-- PWR_ALERT_CLEAR (R476): The external alert clears and the forced-state hold begins once both alerts are clear. -/
  | pwrAlertClear
  /-- INTERNAL_ALERT (R532): Undervoltage or overcurrent for 5 µs raises the power stage's internal alert and forces the lowest power state. -/
  | internalAlert (src : AlertCause)
  /-- INTERNAL_ALERT_CLEAR (R476): The internal alert clears and the forced-state hold begins once both alerts are clear. -/
  | internalAlertClear
  /-- DAMP_ALERT_END (R476): ALERT_HOLD µs after both alerts clear the forced state ends and EMERG starts at 7. -/
  | dampAlertEnd
  /-- SENSOR_READ (R480): Every 10 µs the hub reads the temperature sensors and applies warn, throttle, failure and trip rules. -/
  | sensorRead (t : List (Option Int))
  /-- AUX_POWER_ON (R535): AUX_3V3 applied while main power is off resets AON registers and samples the straps. -/
  | auxPowerOn (mode : Bool) (addr : Nat)
  /-- POWER_START (R533): With MAIN_EN high and VIN_48 in range for 10 ms the POWER stage brings the rails up in order. -/
  | powerStart
  /-- MAIN_EN_FALL (R534): MAIN_EN falling turns the rails off in reverse order and returns the hub to OFF. -/
  | mainEnFall
  /-- MAIN_POWER_FAULT (R532): VIN_48 below 36 V for 20 µs or above 62 V for 5 µs turns every main rail off. -/
  | mainPowerFault (f : SupplyFault)
  /-- WARM_RESET_PIN (R535): HUB_RESET_N low for at least 1 µs causes a warm reset. -/
  | warmResetPin
  /-- WARM_RESET_REG (R535): A write of 1 to CLK_RESET.WARM starts a warm reset. -/
  | warmResetReg (w : RegW)
  /-- WATCHDOG_EXPIRE (R536): Firmware not serving the watchdog for 2 s in RUN causes a warm reset. -/
  | watchdogExpire
  /-- PLL_LOCK_LOST (R540): A PLL losing lock in RUN faults every job of the hub as class 3. -/
  | pllLockLost (dom : Nat)
  /-- PLL_RESET_TIMER (R540): 1 ms after a PLL loses lock a warm reset follows. -/
  | pllResetTimer
  /-- POWER_DONE (R533): Every rail is within limits and every PLL locked, PWR_GOOD rises and ROM begins. -/
  | powerDone
  /-- ROM_DONE (R493): The boot ROM checks the identity region CRC and begins VERIFY, or stops the start. -/
  | romDone
  /-- VERIFY_DONE (R491): The read image is verified and the start goes on to CONFIG or into RECOVERY. -/
  | verifyDone
  /-- CONFIG_DONE (R497): Both configuration copies are read once and one is chosen, and the behaviour level is fixed. -/
  | configDone
  /-- STORE_DONE (R492): Stacks are trained and tested, every tile is FREE, and tenant keys are drawn. -/
  | storeDone
  /-- RNG_HEALTH_FAIL (R513): Entropy health tests fail and key generation waits. -/
  | rngHealthFail
  /-- RNG_HEALTH_PASS (R513): Entropy health tests pass again and waiting key generation proceeds. -/
  | rngHealthPass
  /-- START_STAGE_TIMEOUT (R492): A start stage exceeds its bound and the start stops with REASON 10. -/
  | startStageTimeout
  /-- START_RETRY (R492): 1 s after a stage timeout the start is retried once. -/
  | startRetry
  /-- YOKE_HELLO (R518): A HELLO from the peer half is checked against the yoke checks. -/
  | yokeHello (inp : Nat) (c : Cell)
  /-- YOKE_FORMED (R518): Mutual SPDM challenge succeeds and the halves take the pair hub ID. -/
  | yokeFormed (authOk : Bool)
  /-- YOKE_REFUSED (R519): A failed check or no yoke port UP within the bound refuses the yoke and each half starts single. -/
  | yokeRefused
  /-- APPLY_END (R499): At the first boundary after the last replayed item the lock is set if asked and the hub enters RUN. -/
  | applyEnd
  /-- CELLAR_STORE (R500): Captures the configuration at its timestamp and writes it into the other copy. -/
  | cellarStore (mb : Mbx)
  /-- CELLAR_WRITE_DONE (R501): A Cellar write and read-back end, making the new copy current or failing after one rewrite. -/
  | cellarWriteDone (ok : Bool)
  /-- CFG_INFO (R520): Returns the copy in use, the validity of both copies and their SEQ. -/
  | cfgInfo (mb : Mbx)
  /-- CFG_IDENT (R503): Sets identity header fields and stores them at once. -/
  | cfgIdent (mb : Mbx) (x : CfgIdent)
  /-- LOCK_SET (R506): Sets the configuration lock. -/
  | lockSet (mb : Mbx)
  /-- SEC_LOCK_WRITE (R506): A write of 1 to SEC_LOCK.LOCK sets the configuration lock, and a write of 0 is discarded. -/
  | secLockWrite (w : RegW)
  /-- SVN_RAISE (R505): Raises a monotonic counter, never lowering it or invalidating the running image. -/
  | svnRaise (mb : Mbx) (idx : Nat) (val : Nat)
  /-- IMAGE_WRITE (R494): Places image bytes in the management cores' SRAM. -/
  | imageWrite (mb : Mbx) (off : Nat) (data : List Byte)
  /-- IMAGE_COMMIT (R521): Verifies the staged image and writes it to the Cellar, or runs it from RECOVERY. -/
  | imageCommit (mb : Mbx)
  /-- DEBUG_UNLOCK (R516): Checks a debug token and grants debug level 1 or 2. -/
  | debugUnlock (mb : Mbx) (token : List Byte)
  /-- GET_VERSION (R508): The SPDM GET_VERSION request. -/
  | getVersion (conn : SpdmConn) (req : List Byte)
  /-- GET_CAPABILITIES (R508): The SPDM GET_CAPABILITIES request. -/
  | getCapabilities (conn : SpdmConn) (req : List Byte)
  /-- NEGOTIATE_ALGORITHMS (R508): The SPDM NEGOTIATE_ALGORITHMS request, negotiating only the supported algorithms. -/
  | negotiateAlgorithms (conn : SpdmConn) (req : List Byte)
  /-- GET_DIGESTS (R508): The SPDM GET_DIGESTS request. -/
  | getDigests (conn : SpdmConn) (req : List Byte)
  /-- GET_CERTIFICATE (R508): The SPDM GET_CERTIFICATE request for the Ed25519 chain. -/
  | getCertificate (conn : SpdmConn) (req : List Byte)
  /-- CHALLENGE (R508): The SPDM CHALLENGE request, signed with the Ed25519 alias key. -/
  | challenge (conn : SpdmConn) (req : List Byte)
  /-- GET_MEASUREMENTS (R508): The SPDM GET_MEASUREMENTS request returning the measurements of Table 18-7. -/
  | getMeasurements (conn : SpdmConn) (req : List Byte)
  /-- KEY_EXCHANGE (R508): The SPDM KEY_EXCHANGE request. -/
  | keyExchange (conn : SpdmConn) (req : List Byte)
  /-- FINISH (R508): The SPDM FINISH request. -/
  | finish (conn : SpdmConn) (req : List Byte)
  /-- END_SESSION (R508): The SPDM END_SESSION request. -/
  | endSession (conn : SpdmConn) (req : List Byte)
  /-- GET_COSIGN (R509): Returns the ML-DSA-65 co-signature over the last Ed25519-signed bytes. -/
  | getCosign (conn : SpdmConn)
  /-- GET_PQ_CHAIN (R509): Returns part of the ML-DSA-65 certificate chain. -/
  | getPqChain (conn : SpdmConn) (off : Nat) (len : Nat)
  /-- READ64 (R542): A sideband request reads a BAR0 register for the system context. -/
  | read64 (off : Nat)
  /-- WRITE64 (R542): A sideband request writes a BAR0 register for the system context. -/
  | write64 (off : Nat) (val : Nat)
  /-- MBX_IN (R543): Writes data into the sideband mailbox input buffer. -/
  | mbxIn (off : Nat) (data : List Byte)
  /-- MBX_STATUS (R542): Returns the sideband mailbox state, return code and output length. -/
  | mbxStatus
  /-- MBX_OUT (R542): Reads data from the sideband mailbox output buffer. -/
  | mbxOut (off : Nat) (len : Nat)
  /-- TELEMETRY (R542): Returns power, hottest sensor, throttle reasons and start state. -/
  | telemetry
  /-- IDCODE (R546): The TAP IDCODE instruction. -/
  | idcode
  /-- SAMPLE_PRELOAD (R546): The TAP SAMPLE/PRELOAD instruction. -/
  | samplePreload
  /-- EXTEST (R546): The TAP EXTEST instruction, acting as BYPASS outside OFF or a failed ROM. -/
  | extest (drive : List Bool)
  /-- TOKEN_LOAD (R546): The TAP shifts in a debug token and runs the token check. -/
  | tokenLoad (token : List Byte)
  /-- TOKEN_STATUS (R546): The TAP returns the status of the last TOKEN_LOAD. -/
  | tokenStatus
  /-- DBG_ACCESS (R546): At debug level 1 or 2 the TAP reads or writes a BAR0 register. -/
  | dbgAccess (off : Nat) (val : Nat) (wr : Bool)
  /-- BYPASS (R546): The TAP BYPASS instruction, also selected by every other code. -/
  | bypass (code : Nat) (tdi : Bool)
  /-- ENGINE_INTERVAL_END (R152): The end of a job's engine-time interval on an engine in a tick discards the job's accumulation frames and pail images there and frees the engine for unscheduled work. -/
  | engineIntervalEnd (cls : Nat) (inst : Nat) (job : Nat)
  /-- NOTICE (R207): A NOTICE cell addressed to this hub as a subscriber is received on VN3 and taken to the HOST port. -/
  | notice (inp : Nat) (c : Cell)
  /-- AUX_POWER_LOSS (R531): AUX_3V3 is lost; with main power present the AON domain is fed from main power and the sideband becomes unreachable. -/
  | auxPowerLoss
  /-- AUX_POWER_RETURN (R531): AUX_3V3 returns while main power is present, and the sideband becomes reachable again without an auxiliary power-on. -/
  | auxPowerReturn
  /-- HUB_RESET_RELEASE (R535): HUB_RESET_N goes high, ending the warm reset so that the POWER stage completes and the start proceeds. -/
  | hubResetRelease
  /-- RAIL_RAMP_TIMEOUT (R533): A rail not within limits 8 ms after its ramp began stops the start in POWER. -/
  | railRampTimeout
  /-- IDE_KM (R508): A CXL IDE_KM message in a secured SPDM session programs or controls the link's IDE keys. -/
  | ideKm (conn : SpdmConn) (req : List Byte)
  /-- I3C_DYNAMIC_ADDRESS (R541): A SETDASA or ENTDAA command on the I3C bus gives the sideband target its dynamic address. -/
  | i3cDynamicAddress (addr : Nat) (how : I3cHow)
deriving DecidableEq, Repr

end Sys2Proof
end

