-- ==== Sys2Proof/Decode.lean ====
section
/-! DEFINITION. Decode.lean: the command a table word spells. No row of spec/opcode_table.json gives bits (the hub is a block
that takes commands), so no word spells one. -/

namespace Sys2Proof

/-- The command spelled by a word of the opcode table's bits: none, since no row has bits. -/
def decodeTableWord (_nbits _w : Nat) : Option Instr := none

end Sys2Proof
end

