-- ==== Sys2Proof/Config.lean ====
section
/-! DEFINITION. Config.lean: what one hub's manufacture fixes and the values the spec leaves open. A constant without a body is
a free value: no proof can see what it is (assumption log 1, DESIGN CHOICE). -/

namespace Sys2Proof

/-- The serial number of the identity region (R489). -/
opaque Config.serial : Nat
/-- A 64-bit value no rule fixes: nonces, keys, signatures' randomness (R511, R516). -/
opaque Config.fresh64 : Nat → Nat
/-- The free-running generator of the congestion profiles, a u8 (R232). -/
opaque Config.draw8 : Nat → Nat
/-- How many of a copy pass's 128 sub-blocks had been read when a checked in-place write landed (R111). -/
opaque Config.passReach : Nat → Nat
/-- Bytes of a message whose content another standard or the implementation fixes: length, drawn number. -/
opaque Config.freeBytes : Nat → Nat → List Byte
/-- A value the spec does not state, drawn by number. -/
opaque Config.freeNat : Nat → Nat
/-- An integer result the spec does not state, drawn by number. -/
opaque Config.freeInt : Nat → Int
/-- Whether an Ed25519 signature verifies under a key slot (0 to 3 root keys, 4 the debug key): message, signature (R491, R516). -/
opaque Config.edVerify : Nat → List Byte → List Byte → Bool
/-- Whether an ML-DSA-65 signature verifies under a key slot: message, signature (R491, R516). -/
opaque Config.mlVerify : Nat → List Byte → List Byte → Bool
/-- SHA-384, 48 bytes (Table 18-7). -/
opaque Config.sha384 : List Byte → List Byte
/-- The unique device secret (R507). -/
opaque Config.uds : List Byte
/-- Key generation from a seed: the Ed25519 public key (RFC 8032), and the ML-DSA-65 one (FIPS 204) (R507). -/
opaque Config.edPublic : List Byte → List Byte
opaque Config.mlPublic : List Byte → List Byte
/-- A signature of Ed25519 under the key pair of a seed (RFC 8032): seed, message; and one of ML-DSA-65 (FIPS 204): seed, drawn number of
its randomness, message (R509). -/
opaque Config.edSign : List Byte → List Byte → List Byte
opaque Config.mlSign : List Byte → Nat → List Byte → List Byte
/-- The certificate chain of an algorithm, Elholt root, DevID, alias, as the DevID pair certifies an alias key: seed of the DevID pair,
alias public key (R507, R508, R509). -/
opaque Config.edChain : List Byte → List Byte → List Byte
opaque Config.mlChain : List Byte → List Byte → List Byte
/-- The boot ROM (Table 18-7). -/
opaque Config.bootRom : List Byte

/-- Further hubs that hold composition entries of a tenant, as its record home knows them: tenant (R403; log 32, DESIGN CHOICE). -/
opaque Config.compHubs : Nat → List Nat
/-- COH_AGENT_LD_k of the lower half, as the upper half of a pair uses it (R308; log 5, DEDUCED). -/
opaque Config.lowerSlot : Nat → Nat
/-- Which 32-byte entry of the area at HERD_META an entry of a checkpoint record takes: job slot, epoch, position (R448; log 66,
DESIGN CHOICE). -/
opaque Config.metaPlace : Nat → Nat → Nat → Nat
/-- Hubs that shadow a member of a herd, as its leader knows them: herd job ID (R460; log 24, DESIGN CHOICE). -/
opaque Config.herdShadows : Nat → List Nat
/-- The hub that shadows a member's job from a restart on, as that member is told: drawn number (R460; log 24, DESIGN CHOICE). -/
opaque Config.shadower : Nat → Option Nat

/-- Highest and lowest behaviour level of the silicon: the first stepping (R1). -/
def Config.levelHigh : Nat := 0x0100
def Config.levelLow : Nat := 0x0100

end Sys2Proof
end

