-- ==== Sys2Proof/Machine/State.lean ====
section
/-! DEFINITION. Machine/State.lean: the state of the hub as plain data, its reasons to stop, and the state right after reset.
Every field's comment names the rule of spec/ it comes from; its default value is its reset value. -/

namespace Sys2Proof.Machine

open Sys2Proof

/-- Why a command faults. No command of this model faults: the hub answers every error with a status (R13). -/
inductive Fault where
  /-- Raised by nobody: kept so that the type is inhabited. Safe: it never happens. -/
  | none
deriving DecidableEq, Repr

/-- Why a command is refused. -/
inductive Refusal where
  /-- Raised by the dispatcher for a row without a meaning. Safe: the model stops where the hub goes on. -/
  | notModelled (mnemonic : String)
deriving DecidableEq, Repr

/-- The answer of one step. -/
abbrev Out (σ : Type) := Host.Outcome σ Fault Refusal

/-- A sparse table: keys strictly rising, no entry equal to what an unlisted key holds (Ops.lean reads and writes it). -/
abbrev SMap (α : Type) := List (Nat × α)

/-- Access codes of register fields (Table 00-5, R10). -/
inductive Acc where
  | ro | rw | rw1c | rws | rwo | rwl
deriving DecidableEq, Repr

/-- Where a field lies in its register and its access code. -/
structure RField where
  hi : Nat
  lo : Nat
  acc : Acc
deriving DecidableEq, Repr

/-- One row of the register map (R554): base address, counts and strides of its two indices, fields, reset values in index
order (one value: the same for every index), staging mark (R553). -/
structure RegRow where
  name : String
  base : Nat
  n1 : Nat
  s1 : Nat
  n2 : Nat
  s2 : Nat
  fields : List RField
  resets : List Nat
  staging : Bool
deriving DecidableEq, Repr

/-- A named field of the register at a BAR0 address. -/
structure Fld where
  addr : Nat
  hi : Nat
  lo : Nat
deriving DecidableEq, Repr

/-- CXL return codes the spec names (R423 to R425, R418). -/
inductive CxlRc where
  | success | busy | unsupported | invalidInput | mediaDisabled | backgroundStarted | other (n : Nat)
deriving DecidableEq, Repr

/-- What the hub sends out of itself. -/
inductive Emit where
  /-- a cell leaves an external port (R249) -/
  | cell (port : Nat) (c : Cell)
  /-- a control block leaves an external port (R190) -/
  | block (port : Nat) (b : List Byte)
  /-- a vendor command completes: head STATUS and FLAGS, then output data (R425) -/
  | reply (mb : Mbx) (status flags : Nat) (data : List Byte)
  /-- a CXL command completes with a return code and a payload (R424) -/
  | cxl (mb : Mbx) (rc : CxlRc) (data : List Byte)
  /-- CXL.mem MemData of an LD's read (R413) -/
  | memData (ld tag : Nat) (data : List Byte)
  /-- CXL.mem completion without data: 0 Cmp, 1 Cmp-S, 2 Cmp-E, 3 Cmp-M (Table 10-3) -/
  | memCmp (ld tag kind : Nat)
  /-- CXL.mem back-invalidate snoop to an LD: 0 BISnpInv, 1 BISnpData, 2 BISnpCur (Table 10-3) -/
  | biSnp (ld dpa kind : Nat)
  /-- a CXL.io memory write into host memory (R432) -/
  | hostWrite (ld addr : Nat) (data : List Byte)
  /-- MSI-X signal (R434) -/
  | msix (ld vec : Nat)
  /-- the value an access to BAR0 answers, or an unsupported request (R9) -/
  | regRead (path : RegPath) (off val : Nat)
  | regBad (path : RegPath) (off : Nat)
  /-- answers on the sideband, on the test access port and on an SPDM connection -/
  | sideband (data : List Byte)
  | tap (code : Nat) (bits : List Byte)
  | spdm (conn : SpdmConn) (data : List Byte)
  /-- an output pin takes a level (Table 19-4) -/
  | pin (name : String) (level : Bool)
  /-- the hub asks its management cores to deliver a message of its own accord (a state change of a function, an erase) -/
  | event (name : String) (args : List Nat)
deriving DecidableEq, Repr

/-! ### The tick and the schedule (spec/01) -/

/-- The tick and alignment state. -/
structure Tick where
  /-- TICK_NOW: tick number, 48 bits (R18) -/
  num : Nat := 0
  /-- T(k): timebase value of the boundary that opened the tick, 64 bits (R18) -/
  start : Nat := 0
  /-- base period in force, TBS cycles (R33) -/
  base : Nat := 12500
  /-- guard in force (R54) -/
  guard : Nat := 250
  /-- TICK_STRETCH.CUR: stretch level in force (R34) -/
  cur : Nat := 0
  /-- TICK_STRETCH.PEND, PEND_AT: announced level and the tick it takes effect at (R35) -/
  pend : Option (Nat × Nat) := none
  /-- the latest level each child port asked for (R37) -/
  childReq : List (Nat × Nat) := []
  /-- the level this hub last asked its parent for (R37) -/
  asked : Nat := 0
  /-- the member has stepped to its domain's tick since TICK_TREE was written (R28) -/
  joined : Bool := false
  /-- a TICK cell was received in this tick (R31) -/
  got : Bool := false
  /-- consecutive ticks without a TICK cell (R31) -/
  missed : Nat := 0
  /-- TICK_STATUS.HOLDOVER (R31) -/
  holdover : Bool := false
  /-- the hub goes on as its own root after tick loss (R31) -/
  lostRoot : Bool := false
  /-- a period mismatch episode is open (R32) -/
  mismatch : Bool := false
  /-- TICK_OFFSET: latest offset to the root, 0.125 ns units, signed 32 bits (R28) -/
  offset : Int := 0
  /-- TICK_STATUS.ALIGNED (R30) -/
  aligned : Bool := false
  /-- consecutive boundaries with an offset beyond 10 ns (R30) -/
  warnRun : Nat := 0
  /-- fractional part of the timebase at the present instant, 0.125 ns units (R17) -/
  frac : Nat := 0
  /-- the last 8 one-way delays of the parent link, newest first (R27) -/
  delays : List Int := []
  /-- STAMP_A of the delay request in flight, and the tick of the last measurement (R27) -/
  delayReq : Option Nat := none
  delayTick : Option Nat := none
  /-- boundary work of the last boundary is still going on past the guard (R86) -/
  workLeft : Bool := false
  /-- TICK_STATUS.FOREIGN (R25) -/
  foreign : Nat := 0
deriving DecidableEq, Repr

/-- Job states (Table 01-7). -/
inductive JobState where
  | idle | admitted | armed | running | faulted | complete
deriving DecidableEq, Repr

/-- A reservation entry (Table 01-3). -/
structure Resv where
  cls : Nat
  inst : Nat
  amount : Nat
deriving DecidableEq, Repr

/-- A slot entry (Table 01-5). -/
structure SlotE where
  tick : Nat
  cls : Nat
  inst : Nat
  phase : Nat
  start : Nat
  fin : Nat
  step : Nat
deriving DecidableEq, Repr

/-- A phase entry (R44). -/
structure PhaseE where
  phase : Nat
  layer : Nat
  pkind : Nat
deriving DecidableEq, Repr

/-- The copy of an admitted schedule image in the firmware working store (R38, R562). -/
structure Image where
  level : Nat := 0
  tenant : Nat := 0
  members : Nat := 0
  index : Nat := 0
  period : Nat := 0
  pro : Nat := 0
  body : Nat := 1
  epi : Nat := 0
  repeats : Nat := 1
  seed : Nat := 0
  res : List Resv := []
  slots : List SlotE := []
  steps : List (List Byte) := []
  phases : List PhaseE := []
  memberIds : List Nat := []
deriving DecidableEq, Repr

/-- One job slot of the sequencer (R49, R61). -/
structure Job where
  /-- SEQ_JOB_STATE.STATE, 3 bits (R49) -/
  state : JobState := .idle
  /-- SEQ_JOB_STATE.TENANT, 9 bits -/
  tenant : Nat := 0
  /-- SEQ_JOB_STATE.PHASE, 16 bits: phase of the slot most recently dispatched (R61) -/
  phase : Nat := 0
  /-- SEQ_JOB_START: start tick S, 48 bits (R50) -/
  start : Nat := 0
  /-- job tick at which the armed or running job begins at T(S) (R563) -/
  resume : Nat := 0
  /-- current job tick (R39) -/
  tick : Nat := 0
  /-- the admitted image (R562) -/
  image : Image := {}
  /-- reservations are held (R47, R51) -/
  holds : Bool := false
  /-- the slot has been RUNNING since its admission (R50) -/
  everRan : Bool := false
  /-- a fault waits for the coming boundary: status, class of Table 16-1 (R57, R53) -/
  fault : Option (Nat × Nat) := none
  /-- boundary (tick number) at which the job stops: an abort (R443) -/
  stopAt : Option Nat := none
  /-- JOB_RELEASE waits for the job to stop: the mailboxes to answer (R52) -/
  release : List Mbx := []
  /-- JOB_ADMIT waits for room clearing: the mailbox to answer (R99) -/
  clearing : Option Mbx := none
  /-- the image that HERD_REIMAGE replaces, while room clearing for the new one goes on (R455) -/
  prior : Option Image := none
deriving DecidableEq, Repr

/-- An accumulation frame of a reduction step, or the record of one already converted (R154, R160, R162). -/
structure Frame where
  /-- target tile index i (R158) -/
  idx : Nat := 0
  /-- accumulators, i48, by element of the tile (R154) -/
  acc : SMap Int := []
  /-- contribution count of each block of IFMT (R154) -/
  got : SMap Nat := []
  /-- elements whose contribution was clamped (R149) -/
  clamped : List Nat := []
  /-- the frame has been converted and written (R162) -/
  done : Bool := false
deriving DecidableEq, Repr

/-- A checkpoint tile, or a WRITE cell of position `idx`, sent and not yet, or already, acknowledged (R177, R347, R373). -/
structure Ack where
  idx : Nat
  /-- of a gather or a query: the TXN of the WRITE cell -/
  due : Nat := 0
  /-- tick in which the tile's trailer left the sender (R177) -/
  left : Option Nat := none
  status : Option Nat := none
  /-- what a checkpoint record entry keeps of it (R448): virtual tile, VERSION, CRC_P -/
  vtile : Nat := 0
  version : Nat := 0
  crcp : Nat := 0
deriving DecidableEq, Repr

/-- A step an engine runs: of a job slot, or of an ENG_SUBMIT or CKPT_COPY command (R43, R56, R566). -/
structure Step where
  id : Nat
  job : Option Nat := none
  mb : Option Mbx := none
  tenant : Nat := 0
  slot : Nat := 0
  kind : Nat := 0
  cls : Nat := 0
  inst : Nat := 0
  phase : Nat := 0
  layer : Nat := 0
  imgTick : Nat := 0
  flags : Nat := 0
  body : List Byte := []
  /-- dispatch and deadline, TBS cycles (R42, R56) -/
  start : Nat := 0
  deadline : Nat := 0
  /-- seed and body repetition the dither takes (R143) -/
  seed : Nat := 0
  rep : Nat := 0
  expect : Nat := 0
  got : Nat := 0
  status : Nat := 0
  saturated : Bool := false
  defaultRow : Bool := false
  slow : Bool := false
  suspended : Bool := false
  /-- waits for its engine (R566) -/
  waiting : Bool := false
  /-- the engine has done all of its own work -/
  done : Bool := false
  frames : List Frame := []
  /-- tiles of a checkpoint copy (R177) and its maintenance locks (R174) -/
  acks : List Ack := []
  locks : List Nat := []
  /-- its work waits until agents gave back the coherent lines it writes (R274) -/
  blocked : Bool := false
  /-- VN0 requests it awaits (R347) -/
  writes : List Nat := []
  /-- reduction job number, epoch and other engine-specific numbers -/
  aux : List Nat := []
  /-- data the step answers with (ENG_SUBMIT) -/
  data : List Byte := []
deriving DecidableEq, Repr

/-- The sequencer: job slots and steps in progress (R49, R54). -/
structure Seq where
  jobs : SMap Job := []
  steps : List Step := []
  /-- number the next step takes -/
  nextStep : Nat := 1
  /-- steps that overran in the tick in progress: job, slot index, image tick, phase, engine class, instance (R57, R58) -/
  overran : List (Nat × Nat × Nat × Nat × Nat × Nat) := []
  /-- slots dispatched in the tick in progress: job, slot index (R42) -/
  dispatched : List (Nat × Nat) := []
deriving DecidableEq, Repr

/-! ### The tile store, tiers and the barrow (spec/02, spec/03) -/

/-- Tile states (Table 02-3, R80). -/
inductive TState where
  | free | sealed | opened | shadowed | inTransit | retired
deriving DecidableEq, Repr

/-- A tile map entry (Table 02-3, 32 bytes) and what the tier controller keeps beside it. -/
structure Tile where
  /-- CRC, 64 bits (R67): of the sealed contents; kept current under in-place writes (R73, R74) -/
  crc : Nat := 0
  /-- VERSION, 16 bits (R71) -/
  version : Nat := 0
  /-- STATE, 3 bits -/
  state : TState := .free
  /-- OLD_OPEN and OLD_LOST -/
  oldOpen : Bool := false
  oldLost : Bool := false
  /-- FORMAT, 8 bits (R65) -/
  format : Nat := 0
  /-- LOC: TIER, STACK and SLOT, 26 bits (R70) -/
  loc : Nat := 0x3FFFFFF
  /-- KEY, 16 bits (R317) -/
  key : Nat := 0
  /-- TENANT, 9 bits -/
  tenant : Nat := 0
  /-- HINT, 3 bits (R105) -/
  hint : Nat := 0
  /-- ALT_LOC, 26 bits -/
  alt : Nat := 0x3FFFFFF
  /-- SEAL_TICK, 48 bits (R84) -/
  sealTick : Nat := 0
  /-- the tile received a checked in-place write in this tick (R74) -/
  rowWritten : Bool := false
  /-- jobs that charge the tile's near slot (R96) -/
  charges : List Nat := []
  /-- the shadow's job (R85), checksum, format and completeness (R72, R77), and the job it is charged to (R96) -/
  shJob : Option Nat := none
  shStep : Nat := 0
  shCrc : Nat := 0
  shFormat : Nat := 0
  shFull : Bool := false
  shCharge : Option Nat := none
  /-- timebase value of the tile's last use (R103) -/
  lastUse : Nat := 0
deriving DecidableEq, Repr

/-- A move the barrow has been asked for and has not started (R102, R105, R118). -/
structure Move where
  tile : Nat
  /-- true: towards near tier -/
  promote : Bool
  /-- prefetch step that asked for it, and the job it charges (R118) -/
  step : Option Nat := none
  job : Option Nat := none
  /-- preferred stack, 255 none (R100) -/
  pref : Nat := 255
  /-- tenant virtual address a prefetch entry names (R117) -/
  va : Nat := 0
deriving DecidableEq, Repr

/-- One barrow copy in progress (R108 to R114). -/
structure Copy where
  tile : Nat
  /-- prefetch step that asked for it, and the job it charges (R118) -/
  step : Option Nat := none
  job : Option Nat := none
  /-- true: towards near tier -/
  promote : Bool := true
  /-- preferred stack and address, for a copy that is started again (R100, R119) -/
  pref : Nat := 255
  va : Nat := 0
  /-- passes made -/
  passes : Nat := 0
  /-- sub-blocks the current pass has still to read, in rising order (R109, R112) -/
  left : List Nat := List.range 128
  /-- dirty sub-blocks (R111) -/
  dirty : List Nat := []
  /-- close timestamp c of the cut-over (R113) -/
  close : Option Nat := none
  /-- requests accepted at the source before c have completed (R113) -/
  drained : Bool := false
deriving DecidableEq, Repr

/-- Maintenance activities in the order of Table 03-4. -/
inductive Activity where
  | scrub | migration | zeroise | rebalance | checkpoint | reclaim
deriving DecidableEq, Repr

/-- A maintenance lock range: held or waiting (R120 to R123). -/
structure MLock where
  id : Nat
  act : Activity
  first : Nat
  count : Nat
  held : Bool := true
  /-- timestamp of the request and whether MIG_MAINT_WAIT was raised (R122, R123) -/
  time : Nat := 0
  warned : Bool := false
  /-- the locks the holder has yielded to: it takes its tiles up again after they end (R121) -/
  yielded : List Nat := []
deriving DecidableEq, Repr

/-- An entry of the demand table (R102). -/
structure Demand where
  tile : Nat := 0
  count : Nat := 0
deriving DecidableEq, Repr

/-- An old slot kept for queries bound to an earlier snapshot: its tile, location, CRC and their steps (R375). -/
structure Retain where
  tile : Nat
  loc : Nat
  crc : Nat
  steps : List Nat
deriving DecidableEq, Repr

/-- A SHADOWED tile as the tick before a boundary left it, for the requests stamped before that boundary that are still on their
way (R83, R87): the boundary's time, whether its old copy was lost, its old contents. -/
structure Past where
  tile : Nat
  before : Nat
  lost : Bool
  data : List Byte
deriving DecidableEq, Repr

/-- The tile store and the barrow. -/
structure Store where
  /-- tile map (R69) -/
  tiles : SMap Tile := []
  /-- slots out of service until cold start (R90) -/
  bad : List Nat := []
  /-- old slots a query snapshot retains (R375) -/
  retained : List Retain := []
  /-- an episode of no free slot is open (R75) -/
  noSlot : Bool := false
  /-- an episode of U at its limit is open (Table 03-6) -/
  roomShort : Bool := false
  /-- TILE_SCRUB_STATUS.NEXT and PASSES; a pass is going on, and the time before which no further one begins (R91) -/
  scrubNext : Nat := 0
  scrubPasses : Nat := 0
  scrubOn : Bool := false
  scrubDue : Nat := 0
  /-- copies in progress (R108) -/
  copies : List Copy := []
  /-- moves asked for, in order (R102, R105, R118) -/
  queue : List Move := []
  /-- demand table and the tick of its last halving (R102) -/
  demand : SMap Demand := []
  decayed : Nat := 0
  /-- maintenance locks, in request order (R122) -/
  locks : List MLock := []
  nextLock : Nat := 1
  /-- read errors that the next read of a tile's slot meets (R88, R89, R92) (log 101, DESIGN CHOICE) -/
  ups : List Upset := []
  /-- tiles as they stood before a boundary (R83) -/
  past : List Past := []
  /-- the work in hand has met a tile in cut-over, and is done again after it (R81, R113) (log 10, DEDUCED) -/
  stuck : Bool := false
deriving DecidableEq, Repr

/-! ### Fabric ports, the switch core and shaping (spec/06 to spec/08) -/

/-- Port states (Table 06-1). -/
inductive PState where
  | down | detect | train | lock | negotiate | up | recover | disabled
deriving DecidableEq, Repr

/-- What a NEG block announces (Table 06-3). -/
structure Neg where
  hub : Bool := true
  node : Nat := 0
  port : Nat := 0
  acked : Bool := false
  yoked : Bool := false
  domain : Nat := 0
  cred : List Nat := []
  rxNext : Nat := 0
deriving DecidableEq, Repr

/-- One optical port and its link layer (R185 to R200). -/
structure Port where
  state : PState := .down
  /-- when it entered its state, and in RECOVER the stage it goes through again (R185, R188) -/
  since : Nat := 0
  stage : PState := .train
  /-- lanes that passed LOCK (FAB_PORT_STATUS.LANES_OK); lane number and latest codeword counter of the LANE blocks received (R186) -/
  lanes : Nat := 0
  lanesSeen : List (Nat × Nat) := []
  /-- the latest NEG block of the peer, how many identical ones arrived, and whether one had ACKED (R187) -/
  neg : Option Neg := none
  negSame : Nat := 0
  negAcked : Bool := false
  /-- the peer of the link while UP or in RECOVER -/
  peer : Option Neg := none
  /-- number of the next cell to send, of the oldest unacknowledged one, and of the next one expected (R196, R197) -/
  txNext : Nat := 0
  txAck : Nat := 0
  rxNext : Nat := 0
  /-- unacknowledged cells, oldest first, and how often each has been sent again (R188, R196) -/
  replay : List (Cell × Nat) := []
  /-- waiting for the expected cell after a NAK (R197) -/
  nakWait : Bool := false
  /-- times of the NAKs received in the last 1 ms (R188) -/
  naks : List Nat := []
  /-- credits granted to the peer, as fixed at NEGOTIATE from DOWN (R200, R212) -/
  inits : List Nat := [0, 0, 0, 0]
  /-- per virtual network: cells sent, credits returned by the peer, credits the peer granted (R200) -/
  sent : List Nat := [0, 0, 0, 0]
  returned : List Nat := [0, 0, 0, 0]
  granted : List Nat := [0, 0, 0, 0]
  /-- credits this hub has returned, per virtual network, and the next CVN (R192, R200) -/
  freed : List Nat := [0, 0, 0, 0]
  cvn : Nat := 0
deriving DecidableEq, Repr

/-- Where the ingress stage translated a request to: tenant, tenant virtual address, pair-local tile, offset, segment key, and the
extent under which it passed check 6 (R219, R386). -/
structure Place where
  ten : Nat
  va : Nat
  tile : Nat
  off : Nat
  key : Nat
  ext : Option Nat := none
deriving DecidableEq, Repr

/-- A cell an internal port sends, that may have to wait for an entry of the shared buffer: its number, the port, the external port
it is bound for (none: by the route table), and the ingress stamp of a forwarded TICK cell (R217). -/
structure Unsent where
  id : Nat
  unit : Nat
  port : Option Nat := none
  c : Cell
  stamp : Option Nat := none
deriving DecidableEq, Repr

/-- A cell inside the switch core. -/
structure QCell where
  /-- number of the arrival: copies of one multicast cell share it (R216, R218) -/
  id : Nat
  c : Cell
  inp : Nat
  out : Nat
  plane : Nat
  /-- arbiter slot (R239) -/
  slot : Nat := 513
  /-- arrival time in SWX cycles (R256), and the timestamp of its first byte at the ingress (R21) -/
  arrived : Nat := 0
  time : Nat := 0
  /-- ingress stamp of a TICK cell, 0.125 ns units (R26, R27) -/
  stamp : Option Nat := none
  /-- where the ingress stage translated it to (R219) -/
  place : Option Place := none
  /-- the cell time it moves in, once a matching has claimed it, and its output position (R225, R249) -/
  mslot : Nat := 0
  pos : Nat := 0
  /-- shaper that passed it and the gate close it was fitted to (R255) -/
  gateClose : Option Nat := none
deriving DecidableEq, Repr

/-- One level of an arbiter (R246). -/
structure Drr where
  defs : SMap Int := []
  ring : List Nat := []
  cur : Nat := 0
  /-- the last input served for each claimant (round robin over inputs) -/
  last : SMap Nat := []
deriving DecidableEq, Repr

/-- One arbiter instance: top level (claimant 0 to 511 green, 1024 the pool) and the pool (R244). -/
structure Arb where
  top : Drr := {}
  pool : Drr := {}
deriving DecidableEq, Repr

/-- An unissued entry of the skimmer with its riders (R235). -/
structure Skim where
  inp : Nat
  c : Cell
  gw : Nat
  place : Option Place := none
  /-- timestamp of its cell (R21) -/
  time : Nat := 0
  cand : Bool := true
  riders : List (Nat × Cell) := []
  /-- a later cell wrote the entry's line (R235) -/
  stale : Bool := false
deriving DecidableEq, Repr

/-- A request this hub sent on VN0 and awaits the response of (R203, R219). -/
structure Txn where
  txn : Nat
  dst : Nat
  /-- the unit that issued it: internal port (Table 07-2) -/
  unit : Nat
  deadline : Nat
  /-- the step whose output write it is (R347) -/
  step : Option Nat := none
  /-- a message of the herd or of a hand-over waits on it -/
  msg : Option Nat := none
deriving DecidableEq, Repr

/-- Sampling of one queue over a period (R256). -/
structure Samp where
  maxDepth : Nat := 0
  maxDelay : Nat := 0
  sumDelay : Nat := 0
  cells : Nat := 0
deriving DecidableEq, Repr

/-- A token bucket: tokens at a time in SWX cycles × 5 / TBS cycles × 16 (R242, R251). -/
structure Bucket where
  tokens : Nat := 0
  time : Nat := 0
deriving DecidableEq, Repr

/-- Fabric, switch and shapers. -/
structure Fab where
  ports : SMap Port := []
  /-- VOQs: cells in arrival order (R215) -/
  voq : List QCell := []
  /-- claimed cells, which have their place in an egress queue, in claim order (R224, R249) -/
  egress : List QCell := []
  /-- cells of the internal ports that wait for a buffer entry, oldest first (R217) -/
  unsent : List Unsent := []
  nextId : Nat := 1
  /-- the current cell time, and the input and output positions that the matching for the next one has paired so far: plane, port,
  number at the port (R225) -/
  slot : Nat := 0
  paired : List ((Nat × Nat × Nat) × (Nat × Nat × Nat)) := []
  /-- averages A(q, v), key 4q + v (R231) -/
  avg : SMap Nat := []
  /-- round-robin pointers of outputs and inputs: a position of the plane, 0 to 83 (R226); key plane * 1024 + position -/
  rrOut : SMap Nat := []
  rrIn : SMap Nat := []
  /-- arbiters by instance: 0 to 33 switch outputs, 34 35 gateways, 36 to 43 near stacks, 44 to 59 far stacks, 60 barrow,
  61 to 63 unscheduled churn, row and strainer work (Table 08-1) -/
  arbs : SMap Arb := []
  /-- tenant weights in force, where they differ from the register (R240): key slot -/
  weights : SMap Nat := []
  /-- green shares in force by arbiter instance: key instance * 1024 + slot (R244) -/
  shares : SMap Nat := []
  /-- gate registers in force: key as offset / 8 (R254) -/
  gates : SMap Nat := []
  /-- shaper buckets (key 16q + k) and meter buckets (key m) -/
  shapers : SMap Bucket := []
  meters : SMap Bucket := []
  /-- sampling, key 4q + v, and the tick the period began at (R256) -/
  samps : SMap Samp := []
  sampFrom : Nat := 0
  /-- skimmer entries in arrival order (R235) -/
  skims : List Skim := []
  /-- outstanding VN0 requests of this hub (R203) -/
  txns : List Txn := []
  nextTxn : Nat := 0
  /-- transaction IDs of requests that ended by timeout and whose response may still come (R203) -/
  late : List Nat := []
  /-- once-per-tick notices already raised in this tick: code, index (R194, R205, R220, R229, R233, R239, R242, R255) -/
  raised : List (Nat × Nat) := []
  /-- multicast group table entries, 64 bits (R228); tag table entries, 16 bits (R239) -/
  groups : SMap Nat := []
  tags : SMap Nat := []
  /-- ABORT cells already forwarded: origin, job, tick, offset (R208) -/
  aborts : List (Nat × Nat × Nat × Nat) := []
deriving DecidableEq, Repr

/-! ### Segments, windows and the fault queue (spec/11) -/

/-- Three words of a segment or window entry (Tables 11-1, 11-3). -/
structure Ent3 where
  w0 : Nat := 0
  w1 : Nat := 0
  w2 : Nat := 0
deriving DecidableEq, Repr

/-- A pending entry of the fault queue (Table 11-6). -/
structure FltE where
  seq : Nat
  count : Nat
  tenant : Nat
  seg : Nat
  mask : Nat
  status : Nat
  vtile : Nat
  firstVa : Nat
  lastVa : Nat
  more : Bool
  access : Nat
  firstTick : Nat
  lastTick : Nat
  reqs : List Nat
deriving DecidableEq, Repr

/-- A tenant's overflow counters (R329). -/
structure Ovf where
  count : Nat := 0
  first : Nat := 0
  last : Nat := 0
deriving DecidableEq, Repr

/-- Translation state. -/
structure Xlt where
  /-- segment entries in force and as they will stand at the next boundary (R314) -/
  segs : SMap Ent3 := []
  segsNext : SMap Ent3 := []
  /-- the segment and window entries that the last boundary replaced, and its instant: a translation with an earlier timestamp uses the
  entry as it stood (R314) -/
  segsOld : SMap Ent3 := []
  winsOld : SMap Ent3 := []
  turned : Nat := 0
  /-- window entries in force and as they will stand (R320) -/
  wins : SMap Ent3 := []
  winsNext : SMap Ent3 := []
  /-- the fault queue, oldest first (R326) -/
  faults : List FltE := []
  nextSeq : Nat := 1
  /-- overflow counters by tenant (R329) -/
  ovf : SMap Ovf := []
deriving DecidableEq, Repr

/-! ### The host link, functions and notices (spec/15) -/

/-- Function states (Table 15-2). -/
inductive FnState where
  | off | on | draining | zeroising
deriving DecidableEq, Repr

/-- A tenant or a logical device (R418). -/
structure FnRec where
  state : FnState := .off
  /-- READY_TICK, 48 bits (R422) -/
  ready : Nat := 0
  /-- disable timestamp f (R420) and the mailbox to answer (R419) -/
  since : Nat := 0
  mb : Option Mbx := none
  /-- the zeroisation locks of a tenant disable -/
  locks : List Nat := []
deriving DecidableEq, Repr

/-- A notice destination's counters. -/
structure Dest where
  /-- SEQ of the last record (R431) -/
  seq : Nat := 0
  /-- a record was dropped since the last one written (R433) -/
  lost : Bool := false
deriving DecidableEq, Repr

/-- Ring signalling of one LD (R434). -/
structure RingSig where
  unsignalled : Nat := 0
  since : Option Nat := none
deriving DecidableEq, Repr

/-- A notice held until RUN (R495): code, tenant, job, arguments, time, tick. -/
structure HeldNotice where
  code : Nat
  tenant : Nat
  job : Option Nat
  args : List Nat
  time : Nat
  tick : Nat
deriving DecidableEq, Repr

/-- The sideband mailbox (R543): buffers, state 0 idle 1 running 2 done, CXL return code, output length. -/
structure SbMbx where
  inp : SMap Byte := []
  outp : List Byte := []
  state : Nat := 0
  rc : Nat := 0
deriving DecidableEq, Repr

/-- Host link state. -/
structure HostSt where
  tenants : SMap FnRec := []
  lds : SMap FnRec := []
  /-- NOTICE_SUB subscribers: tenant, hub, endpoint (R429) -/
  subs : List (Nat × Nat × Nat) := []
  /-- destinations: key 0 system ring, 1 + i LD rings, 0x10000 + hub * 256 + endpoint fabric agents (R431) -/
  dests : SMap Dest := []
  sigs : SMap RingSig := []
  /-- mailboxes that run a background command: key 0 to 15 LDs, 16 FM, 17 sideband (R423, R426) -/
  busy : List Nat := []
  /-- CXL Set Timestamp: the time set and the timebase value at its setting (R424) -/
  timestamp : Option (Nat × Nat) := none
  /-- CXL event logs: (log, handle, record) per mailbox key (R424) -/
  events : List (Nat × Nat × Nat × List Byte) := []
  nextHandle : Nat := 1
  /-- CXL event interrupt policy per mailbox key (R424) -/
  policy : List (Nat × List Byte) := []
  /-- notices held before RUN, oldest first (R495) -/
  heldNotices : List HeldNotice := []
  /-- HOST_MEM_ERR was raised for the LD in this tick (R413) -/
  memErr : List Nat := []
  /-- HOST_LINK: the CXL link is up (R412) -/
  linkUp : Bool := false
  /-- the sideband mailbox (R543) -/
  sb : SbMbx := {}
  /-- PERST# asserted (R528) -/
  perst : Bool := true
deriving DecidableEq, Repr
/-! ### Byte-path requests in progress (spec/09, spec/10, spec/14) -/

/-- Why an accepted request waits. -/
inductive ReqWait where
  /-- for the cut-over of its tile (R113) -/
  | tile
  /-- for a hand-over of composition piece `idx` (R407) -/
  | piece (idx : Nat)
  /-- for the line's turn, its hold window or a free way (R287, R297, R300) -/
  | line
  /-- for the snoops sent for it (R291, R295) -/
  | snoop
  /-- for an earlier request of its own source (R262) -/
  | behind
  /-- for the owner's response to its forward (R401) or to its routed CXL request (R400) -/
  | fwd (txn : Nat)
deriving DecidableEq, Repr

/-- A byte-path request accepted and not yet completed. For a logical device the cell is the request written as a cell. -/
structure Req where
  id : Nat
  /-- timestamp (R21) -/
  time : Nat
  inp : Nat
  cell : Cell
  /-- logical device and CXL tag, device physical address, Meta0-State, byte enables -/
  ld : Option (Nat × Nat) := none
  dpa : Nat := 0
  ms : MetaState := .i
  en : List Bool := []
  ten : Nat := 0
  va : Nat := 0
  /-- pair-local tile, offset and segment key it translated to (R311) -/
  tile : Nat := 0
  off : Nat := 0
  key : Nat := 0
  /-- extent under which it passed check 6 (R386, R393) -/
  ext : Option Nat := none
  /-- agent of the domain that may hold the line (R284) -/
  agent : Option Nat := none
  wait : ReqWait := .behind
  /-- it had to snoop an agent that was then declared lost as the line's owner (R303) -/
  lost : Bool := false
  /-- the snoops its lines called for were sent -/
  asked : Bool := false
  /-- it has moved its line's contention counter (R298) -/
  counted : Bool := false
  /-- its buffer's credit is withheld until it completes: the pools of R115 and R287 were empty -/
  owes : Bool := false
  /-- the skimmer's riders: port and cell, in arrival order (R235, R236) -/
  riders : List (Nat × Cell) := []
deriving DecidableEq, Repr

/-! ### The coherence domain (spec/10) -/

/-- Directory states (R286). -/
inductive DirState where
  | shared | excl | pend
deriving DecidableEq, Repr

/-- A directory entry (Table 10-1) with the way it lies in. -/
structure DirE where
  valid : Bool := false
  state : DirState := .shared
  /-- SHARERS, 64 bits -/
  sharers : Nat := 0
  owner : Nat := 0
  /-- HOLD_END as an absolute DIR cycle (R297) -/
  holdEnd : Nat := 0
  age : Nat := 0
  way : Nat := 0
  /-- in PEND: the line was EXCL (R302); agents that answered that they keep a shared copy, and the request served (none: another
  purpose) -/
  wasX : Bool := false
  keep : Nat := 0
  /-- in PEND: the owner answered that it keeps its exclusive copy (BIRspE) -/
  keepX : Bool := false
  serves : Option Nat := none
deriving DecidableEq, Repr

/-- A snoop awaiting its answer (R288, R294). -/
structure Snp where
  line : Nat
  agent : Nat
  txn : Nat
  inv : Bool
  since : Nat
  warned : Bool := false
deriving DecidableEq, Repr

/-- An answer to a snoop whose data waits for the cut-over of its tile (R81, R113). -/
structure Back where
  line : Nat
  agent : Nat
  keep : Bool
  data : List Byte
deriving DecidableEq, Repr

/-- An entry of a lost-write record (Table 10-5). -/
structure LostE where
  agent : Nat
  addr : Nat
  linkLoss : Bool
  tick : Nat
deriving DecidableEq, Repr

/-- A declaration of a lost agent whose walk has not been reported yet: the tenants that lost lines, with count and first line
(R301, R306). -/
structure LostDecl where
  agent : Nat
  /-- when the agent was declared lost (R301) -/
  since : Nat := 0
  lines : List (Nat × Nat × Nat) := []
deriving DecidableEq, Repr

/-- A window register write that waits for back-invalidation (R283): window, register number 0 to 3, value. -/
structure WinPend where
  win : Nat
  reg : Nat
  val : Nat
deriving DecidableEq, Repr

/-- The coherence domain. -/
structure Coh where
  /-- directory, by line number (R285) -/
  dir : SMap DirE := []
  snoops : List Snp := []
  backs : List Back := []
  nextTxn : Nat := 0
  /-- contention counters, 2 bits (R298) -/
  pred : SMap Nat := []
  /-- tick at which the contention counters last decayed -/
  predAt : Nat := 0
  /-- COH_LOST_AGENTS.MASK, bit a set: agent a is lost (R304) -/
  lost : Nat := 0
  decls : List LostDecl := []
  /-- lost-write records by tenant and open overflow episodes (R305) -/
  recs : SMap (List LostE) := []
  ovfEp : List Nat := []
  /-- how many entries of a tenant's record, from the first, have been read (Table 15-5) -/
  readTo : SMap Nat := []
  winPend : List WinPend := []
  /-- BIConflicts not acknowledged yet: LD, device physical address, line (R290) -/
  conflicts : List (Nat × Nat × Nat) := []
deriving DecidableEq, Repr

/-! ### Extents and composition (spec/14) -/

/-- An extent entry (Table 14-1); STATE 0 FREE, 1 OFFERED, 2 LIVE, 3 GRACE, 4 FENCED, 5 ZEROISING. -/
structure Ext where
  state : Nat := 0
  zero : Bool := false
  dcd : Bool := false
  tenant : Nat := 0
  /-- 18 bits -/
  gen : Nat := 0
  start : Nat := 0
  len : Nat := 0
  holder : Nat := 0
  rights : Nat := 0
  period : Nat := 0
  seq : Nat := 0
  renewed : Nat := 0
  fence : Nat := 0
  /-- the fence came from lease expiry (R304); the mailbox to answer when it becomes FREE; its locks (R392) -/
  expired : Bool := false
  mb : Option Mbx := none
  locks : List Nat := []
  /-- when it was offered (R387) -/
  offered : Nat := 0
deriving DecidableEq, Repr

/-- A composition map entry (Table 14-4); STATE 0 INVALID, 1 OWNED, 2 HANDOVER. -/
structure Piece where
  state : Nat := 0
  home : Bool := false
  tenant : Nat := 0
  tiles : Nat := 0
  va : Nat := 0
  owner : Nat := 0
  ownerTag : Nat := 0
  chgEpoch : Nat := 0
  recHub : Nat := 0
  ownerVa : Nat := 0
  recIdx : Nat := 0
  hoSeq : Nat := 0
  newVa : Nat := 0
  newOwner : Nat := 0
  newTag : Nat := 0
  ckpt : Nat := 0
  hoStart : Nat := 0
deriving DecidableEq, Repr

/-- A hand-over at this hub besides the entry's fields (R403): at the record home the results received and the chosen boundary,
at any hub a commit that waits for its boundary: K and the epoch; at the old and the new owner: HO_BEGIN was taken, the result was
sent; when an ownership query was last sent (R407). -/
structure Ho where
  idx : Nat
  ready : Option Nat := none
  release : Option Nat := none
  commit : Option (Nat × Nat) := none
  begun : Bool := false
  released : Bool := false
  asked : Option Nat := none
deriving DecidableEq, Repr

/-- A message of the herd or of a hand-over that is resent until its WRITE_RSP returns OK (R409, R462). -/
structure Msg where
  id : Nat
  herd : Bool
  job : Nat := 0
  dst : Nat
  addr : Nat
  payload : List Byte
  sent : Nat
deriving DecidableEq, Repr

/-- Extents, composition and the messages in flight. -/
structure ExtSt where
  exts : SMap Ext := []
  pieces : SMap Piece := []
  /-- composition commands that take effect at the boundary: index and new entry (R396) -/
  next : List (Nat × Piece) := []
  hos : List Ho := []
  /-- the outcomes of hand-overs already applied: record hub, index, sequence number (R409) -/
  applied : List (Nat × Nat × Nat) := []
  /-- EXT_EPOCH_n by tenant: epoch and record hub (R398) -/
  epochs : SMap (Option (Nat × Nat)) := []
  /-- messages sent again until they are answered, and the number the next one takes (R409, R462) -/
  msgs : List Msg := []
  nextMsg : Nat := 1
deriving DecidableEq, Repr

/-! ### The churn (spec/05) -/

/-- A pail image (R154): page of an engine's pail, the job that wrote it, its format and bytes. -/
structure PailImg where
  eng : Nat
  page : Nat
  job : Nat
  fmt : Nat
  data : List Byte
deriving DecidableEq, Repr

/-- A posted frame (R165). -/
structure Post where
  tile : Nat
  tenant : Nat
  key : Nat
  fmt : Nat
  tscale : Int
  /-- tick in which it opened, and the cutoff of that tick as a timebase value -/
  tick : Nat
  cut : Nat
  closed : Bool := false
  /-- its conversion has been asked for, and its shadow is written -/
  asked : Bool := false
  converted : Bool := false
  acc : SMap Int := []
  /-- posts taken per block of 16 elements -/
  got : SMap Nat := []
  clamped : List Nat := []
deriving DecidableEq, Repr

/-- A checkpoint assembly (R176). -/
structure Asm where
  tile : Nat
  tenant : Nat
  key : Nat
  /-- tick of its first cell -/
  tick : Nat
  data : List Byte
  seen : List Nat := []
  /-- the trailer cell -/
  trailer : Option Cell := none
  cell : Cell
deriving DecidableEq, Repr

/-- A VN2 cell whose buffer is withheld (R160, R165): port, cell, timestamp, when its wait began, and the engine that counts it. -/
structure Held2 where
  inp : Nat
  cell : Cell
  time : Nat
  since : Nat := 0
  eng : Option Nat := none
deriving DecidableEq, Repr

/-- The churn engines. -/
structure Churn where
  images : List PailImg := []
  posts : List Post := []
  asms : List Asm := []
  held : List Held2 := []
  /-- arithmetic notices raised: code, job and body repetition (R149) -/
  arith : List (Nat × Nat × Nat) := []
deriving DecidableEq, Repr

/-! ### The herd (spec/16) -/

/-- A member of a herd as this hub knows it (R439, R446, R449, R450, R457). -/
structure Member where
  /-- member index in the image's table -/
  idx : Nat
  hub : Nat
  /-- tick of its last BEAT -/
  beat : Nat := 0
  /-- it has sent BEAT with STOPPED since the last stop -/
  stopped : Bool := false
  /-- it was declared lost and departs at the next restart (R454) -/
  lost : Bool := false
  /-- latest epoch it reported done -/
  done : Option Nat := none
  /-- its RESTORED status in the restore going on -/
  restored : Option Nat := none
  /-- health score, 16 bits, and SUSPECT -/
  score : Nat := 0
  suspect : Bool := false
deriving DecidableEq, Repr

/-- A checkpoint record entry (Table 16-2) with the epoch it belongs to. -/
structure CkRec where
  epoch : Nat
  vtile : Nat
  version : Nat
  partner : Nat
  tag : Nat
  dstVa : Nat
  crcp : Nat
deriving DecidableEq, Repr

/-- A herd record (R439) and what the restart and the shadowing of its job need. -/
structure Herd where
  /-- HERD_MEMB.STATE: 0 none, 1 formed, 2 restoring, 3 await image, 4 stalled, 5 shadow -/
  state : Nat := 0
  id : Nat := 0
  min : Nat := 0
  members : List Member := []
  committed : Option Nat := none
  inProgress : Nat := 0
  /-- this member's checkpoint copies that completed with OK since its last start: epoch and how many (R449) -/
  copies : List (Nat × Nat) := []
  /-- the member count the leader last told (R462) -/
  told : Option Nat := none
  recs : List CkRec := []
  /-- this hub's own message sequence number, and the messages applied: sender, MSG, SEQ (R462) -/
  seq : Nat := 0
  applied : List (Nat × Nat × Nat) := []
  /-- boundary the job stops at, its origin and reason (R443) -/
  stop : Option (Nat × Nat × Nat) := none
  lastStop : Nat := 0
  lastReason : Nat := 0
  /-- the leader waits for STOPPED (step 2 of R450), or restores epoch E -/
  waitStop : Bool := false
  /-- restore at this member: epoch, and the tiles requested with the tick of the request (R451) -/
  restore : Option Nat := none
  wanted : List (Nat × Nat) := []
  /-- the first status of a restore copy that failed -/
  restoreSt : Option Nat := none
  /-- culls held in the budget by time (R457) and when the record was made -/
  culls : List Nat := []
  formed : Nat := 0
  /-- time from which the present decay period of the scores runs (R457) -/
  halved : Nat := 0
  /-- shadowing (R460, R461): working hub, consecutive matches, passed, active, ticks without a DIGEST, the members that
  passed and wait to be admitted -/
  work : Nat := 0
  matched : Nat := 0
  passed : Bool := false
  active : Bool := false
  digestWait : Nat := 0
  joining : List Nat := []
  /-- the hub that shadows this member, as it was told at the restart (log 24, DESIGN CHOICE) -/
  shadower : Option Nat := none
  /-- own digest of the last tick: tick, TILE_D, EGRESS_D (R459) -/
  digest : Nat × Nat × Nat := (0, 0, 0)
deriving DecidableEq, Repr

/-- A rebalance in progress at the new home (R456): slot, mailbox, locks, epoch, partner, tag, partner address, destination
address, tiles, request tick, and the virtual tiles not published yet. -/
structure Rebal where
  job : Nat
  mb : Mbx
  locks : List Nat
  epoch : Nat
  partner : Nat
  tag : Nat
  partnerVa : Nat
  dstVa : Nat
  tiles : Nat
  tick : Nat
  left : List Nat
deriving DecidableEq, Repr

/-- The herds of the job slots. -/
structure HerdSt where
  herds : SMap Herd := []
  /-- EGRESS_D of the tick in progress by job (R459) -/
  egress : SMap Nat := []
  rebals : List Rebal := []
  /-- tick of the last BEATs sent (R446) -/
  beatAt : Nat := 0
  /-- CRC over the cells each step has sent in the tick in progress, by step (R459) -/
  stepDig : SMap Nat := []
deriving DecidableEq, Repr


/-! ### Versioned row tables and open collections (spec/12, spec/13) -/

/-- A versioned table handle (Table 12-10). -/
structure Vt where
  isOpen : Bool := false
  tenant : Nat := 0
  /-- VERSION, 32 bits, and the base in force -/
  version : Nat := 0
  cur : Nat := 0
  /-- a pending switch's base -/
  next : Option Nat := none
  /-- the replaced version that has not drained yet -/
  old : Option Nat := none
deriving DecidableEq, Repr

/-- A collection record (Table 13-2). -/
structure CollRec where
  dim : Nat := 0
  vlog : Nat := 0
  ncent : Nat := 0
  nlist : Nat := 0
  cent : Nat := 0
  ctab : Nat := 0
  list : Nat := 0
  vec : Nat := 0
  stmap : Nat := 0
deriving DecidableEq, Repr

/-- A collection handle (Table 13-11, R365, R366). -/
structure Coll where
  taken : Bool := false
  isOpen : Bool := false
  /-- an open or a close takes effect at the next boundary -/
  pend : Bool := false
  tenant : Nat := 0
  va : Nat := 0
  cr : CollRec := {}
  /-- hub-local tiles of the five areas: first and count -/
  areas : List (Nat × Nat) := []
  /-- lists whose STRN_DEAD_HIGH stands until a COMPACT (R380) -/
  warned : List Nat := []
deriving DecidableEq, Repr

/-- Handles of the row engines and of the strainer. -/
structure Handles where
  vts : SMap Vt := []
  colls : SMap Coll := []
deriving DecidableEq, Repr

/-! ### The damper (spec/17) -/

/-- A phase table entry (R470). -/
structure PhEnt where
  job : Nat
  phase : Nat
  cls : Nat
  energy : Nat
  updated : Nat := 0
deriving DecidableEq, Repr

/-- A temperature sensor (R480 to R484). -/
structure Sensor where
  temp : Int := 0
  fail : Bool := false
  /-- consecutive readings without a value, and at TRIP or above -/
  missing : Nat := 0
  hot : Nat := 0
  /-- its DAMP_THERM_WARN episode is open -/
  warned : Bool := false
deriving DecidableEq, Repr

/-- Energy of one tick: scheduled and unscheduled engine work in nJ, input in nJ, and its length (R471). -/
structure TickEn where
  sched : Nat := 0
  unsched : Nat := 0
  input : Nat := 0
  len : Nat := 0
  /-- best-effort duty level in force in the tick -/
  be : Nat := 0
deriving DecidableEq, Repr

/-- The damper. -/
structure Damp where
  /-- cap register in force, as last taken up at a boundary (R469) -/
  capIn : Nat := 0x0800_0546_000A_047E
  /-- a DAMP_CAP write waits for the boundary -/
  capNew : Bool := false
  /-- input samples of the last WINDOW ms, newest first, in 2^-16 J per µs (R466, R467) -/
  samples : List Nat := []
  /-- DAMP_STATE fields (Table 17-6) -/
  be : Nat := 0
  emerg : Nat := 0
  sCap : Nat := 0
  sTherm : Nat := 0
  want : Nat := 0
  /-- consecutive boundaries at which the wanted level was lower, and at which every sensor was cool (R473, R481) -/
  lower : Nat := 0
  cool : Nat := 0
  /-- alerts asserted: external, internal (R476) -/
  alertExt : Bool := false
  alertInt : Bool := false
  /-- forced state holds, for which sources (bit 0 external, bit 1 internal), and when both alerts cleared -/
  forced : Bool := false
  forcedSrc : Nat := 0
  cleared : Option Nat := none
  /-- fast-limit episode, since when FAST is below 95 % (R475) -/
  fastEp : Bool := false
  fastLow : Option Nat := none
  /-- CAP_UNMET holds (R474) and a throttle episode is open (R482) -/
  unmet : Bool := false
  throttle : Bool := false
  phases : List PhEnt := []
  sensors : SMap Sensor := []
  /-- energy of the tick in progress and of the last 16 ticks, newest first (R471) -/
  now : TickEn := {}
  ticks : List TickEn := []
  /-- times of the last energy sample, sensor reading, fast limit step and fall of EMERG (R466, R475, R480) -/
  sampleAt : Nat := 0
  readAt : Nat := 0
  stepAt : Nat := 0
  lowerAt : Nat := 0
  /-- wanted level of the upper half of a pair (R485) -/
  upperWant : Nat := 0
deriving DecidableEq, Repr

/-! ### Start, the Cellar, trust and the package (spec/18, spec/19) -/

/-- Start stages (Table 18-3). -/
inductive Stage where
  | off | power | rom | verify | config | store | yoke | apply | run | recovery
deriving DecidableEq, Repr

/-- The configuration record's header fields (Table 18-5). -/
structure CfgHdr where
  level : Nat := 0
  seq : Nat := 0
  hubId : Nat := 0
  lock : Bool := false
  yoke : Bool := false
  upper : Bool := false
  pairId : Nat := 0
  peerSerial : Nat := 0
  pairDigest : Nat := 0
deriving DecidableEq, Repr

/-- A configuration record item (Table 18-6). -/
structure CfgItem where
  kind : Nat
  pair : Bool
  arg : Nat
  value : Nat
deriving DecidableEq, Repr

/-- Non-volatile contents of the Cellar (Table 18-1) besides the identity region, which Config names. -/
structure Cellar where
  /-- identity region CRC is correct (R493) -/
  identityOk : Bool := true
  copyA : List Byte := []
  copyB : List Byte := []
  image : List Byte := []
  /-- a write of the image was cut short: the number its remains are drawn by (R521) -/
  imageTorn : Option Nat := none
  /-- monotonic counters, 16 of 32 bits (R504) -/
  mono : SMap Nat := []
deriving DecidableEq, Repr

/-- A Cellar write in progress (R501, R521): 0 a record by CELLAR_STORE, 1 a record by CFG_IDENT, 2 the image, 3 the image
written by firmware started in RECOVERY (R494). -/
structure CellarJob where
  kind : Nat
  mb : Option Mbx
  data : List Byte
  toB : Bool := false
  seq : Nat := 0
  attempt : Nat := 1
deriving DecidableEq, Repr

/-- An SPDM connection (R508): bytes most recently signed with Ed25519, whether a secured session is open, and the
negotiation reached (0 nothing, 1 version, 2 capabilities, 3 algorithms). -/
structure SpdmSt where
  signed : Option (List Byte) := none
  session : Bool := false
  /-- the last IDE_KM message taken in the session -/
  ide : Option (List Byte) := none
  keyEx : Bool := false
  level : Nat := 0
deriving DecidableEq, Repr

/-- The supervisor: power, start, Cellar, trust. Only the commands of spec/18, of spec/19 and the register writes reach it. -/
structure Sup where
  /-- CELL_START.STAGE, REASON, RUN_LEVEL (R492, R498) -/
  stage : Stage := .off
  reason : Nat := 0
  level : Nat := 0
  /-- timebase at which the stage began (R492) -/
  stageAt : Nat := 0
  /-- a stage exceeded its bound: the start waits for its one retry, or has retried (R492) -/
  stopped : Bool := false
  retried : Bool := false
  /-- auxiliary power, MAIN_EN and VIN_48 in range, a trip keeps the hub off (R483, R533) -/
  aux : Bool := true
  tripped : Bool := false
  /-- rails within limits, 0 to 8 of Table 19-7, and PWR_GOOD -/
  rails : Nat := 0
  pwrGood : Bool := false
  /-- straps (R541): SB_MODE, SB_ADDR, and the dynamic I3C address -/
  sbI3c : Bool := true
  sbAddr : Nat := 0
  sbDyn : Option Nat := none
  /-- HUB_RESET_N holds POWER of a warm reset (Table 19-8) -/
  warmHeld : Bool := false
  /-- CLK_RESET_CAUSE, 8 bits, AON; reset 1 (R547) -/
  cause : Nat := 1
  /-- DAMP_TRIP: TRIPPED, SENSOR, TICK, AON; reset 0 (R483, R488) -/
  trip : Bool := false
  tripSensor : Nat := 0
  tripTick : Nat := 0
  /-- a trip whose DAMP_THERM_TRIP the next start still owes (R483) -/
  tripNote : Bool := false
  /-- main power has been removed since the trip (R537) -/
  removed : Bool := false
  /-- last clock seen on TCK (CLK_LOCK bit 17, Table 19-13) -/
  tck : Option Nat := none
  /-- CLK_LOCK.LOCKED, 18 bits; a lost PLL brings a warm reset (R540) -/
  locks : Nat := 0
  pllLost : Option Nat := none
  cellar : Cellar := {}
  /-- image staged in the management cores' SRAM (R494) -/
  sram : SMap Byte := []
  /-- CELL_IMAGE: SVN, KEY_ID, LEVEL_MAX of the running image -/
  imgSvn : Nat := 0
  imgKey : Nat := 0
  imgLevelMax : Nat := 0
  /-- CELL_CFG: SEQ, SKIPPED, A_VALID, B_VALID, CURRENT, NONE (R497) -/
  skipped : Nat := 0
  aValid : Bool := false
  bValid : Bool := false
  current : Bool := false
  cfgNone : Bool := false
  /-- header fields read at start or set since by CFG_IDENT (R500), and the items to replay (R499) -/
  hdr : CfgHdr := {}
  items : List CfgItem := []
  /-- a Cellar write in progress: CELL_CFG.STORE_BUSY (R501) -/
  job : Option CellarJob := none
  /-- SEC_LOCK.LOCK (R506) -/
  lock : Bool := false
  /-- SEC_DEBUG.LEVEL, SEC_DEBUG_NONCE, DBG_STATUS.LAST and FAILS (R516, R547) -/
  debug : Nat := 0
  nonce0 : Nat := 0
  nonce1 : Nat := 0
  tokLast : Nat := 0
  tokFails : Nat := 0
  /-- SEC_RNG.OK, FAILS, and an open RNG_FAIL episode (R513) -/
  rngOk : Bool := false
  rngFails : Nat := 0
  rngEp : Bool := false
  /-- SEC_KEY_GEN_n, 32 bits each; key 512 is the system context's (R511, R512) -/
  keyGen : SMap Nat := []
  /-- FAB_NODE: HUB_ID, YOKED, UPPER (R518) -/
  hubId : Nat := 0
  yoked : Bool := false
  upper : Bool := false
  /-- YOKE_STATUS.STATE, REASON; YOKE_PEER; the peer's HELLO (R517) -/
  yokeState : Nat := 0
  yokeReason : Nat := 0
  peerSerial : Nat := 0
  hello : Option (List Byte) := none
  /-- the HELLO passed checks 2 to 8 of Table 18-8 -/
  helloOk : Bool := false
  /-- status of the last TOKEN_LOAD (Table 19-11) -/
  tapLast : Nat := 0
  /-- the running image's signed message and the record copy read at start, as measurements 2 and 3 take them (R508) -/
  runImage : List Byte := []
  cfgRead : List Byte := []
  /-- the reason of a recovery this start passed through (R495) -/
  recovered : Option Nat := none
  /-- SPDM connections (R508): key 0 to 15 LD DOE, 16 FM, 17 yoke -/
  spdm : SMap SpdmSt := []
deriving DecidableEq, Repr

/-! ### The state -/

/-- The state of the hub: every register, queue, buffer and counter the spec gives it, and the commands that wait. -/
structure State where
  /-- commands waiting, first in first out -/
  pending : List Instr := []
  /-- TICK_TIME: the timebase, 64 bits, TBS cycles (R17) -/
  time : Nat := 0
  /-- the model's own counter from which a free value is drawn (DESIGN CHOICE; nothing rests on it) -/
  free : Nat := 0
  /-- the registers of BAR0 by address (R548, R559): only those that differ from their reset value -/
  regs : SMap (BitVec 64) := []
  /-- plaintext store by location and offset (R62), and the reserved area by hub-local address (R64): only non-zero bytes -/
  mem : List Host.Cell := []
  resv : List Host.Cell := []
  /-- what the hub has sent, newest first -/
  out : List Emit := []
  sup : Sup := {}
  tk : Tick := {}
  seq : Seq := {}
  st : Store := {}
  fab : Fab := {}
  xlt : Xlt := {}
  host : HostSt := {}
  damp : Damp := {}
  reqs : List Req := []
  /-- number the next request takes -/
  nextReq : Nat := 1
  coh : Coh := {}
  ext : ExtSt := {}
  chrn : Churn := {}
  herd : HerdSt := {}
  hnd : Handles := {}
deriving DecidableEq, Repr

/-- The hub right after its auxiliary power came up for the first time: main power off, every register at its reset value,
nothing stored, no command waiting (R535, R554). -/
def State.reset : State := {}

end Sys2Proof.Machine
end

