-- ==== Sys2Proof/Machine/RegMap.lean ====
section
/-! DEFINITION. Machine/RegMap.lean: the register map of BAR0 (spec/20_register_map.md, R548, R554, R559, and the field
maps of each chapter): one row per register with its address, its fields' places and access codes, its reset value and
its staging mark; then one named field (`F.<REGISTER>_<FIELD>`) per field, taking the register's indices. -/

namespace Sys2Proof.Machine

/-- The GEN block (R559). -/
def regsGEN : List RegRow := [
  ⟨"GEN_ID", 0x0, 1, 0x0, 1, 0x0, [⟨31, 28, .ro⟩, ⟨27, 12, .ro⟩, ⟨11, 1, .ro⟩, ⟨0, 0, .ro⟩], [0x1b3c0b53], false⟩,
  ⟨"GEN_BEHAVIOUR_LEVEL", 0x8, 1, 0x0, 1, 0x0, [⟨47, 32, .ro⟩, ⟨31, 16, .ro⟩, ⟨15, 0, .ro⟩], [0x1000100], false⟩,
  ⟨"GEN_CAPS", 0x10, 1, 0x0, 1, 0x0, [⟨57, 48, .ro⟩, ⟨47, 40, .ro⟩, ⟨39, 32, .ro⟩, ⟨31, 24, .ro⟩, ⟨23, 16, .ro⟩, ⟨15, 8, .ro⟩, ⟨7, 0, .ro⟩], [0x200201a10080410], false⟩,
  ⟨"GEN_MEM", 0x18, 1, 0x0, 1, 0x0, [⟨47, 32, .ro⟩, ⟨31, 16, .ro⟩, ⟨15, 8, .ro⟩, ⟨7, 0, .ro⟩], [0xb8000801008], false⟩,
  ⟨"GEN_BLOCKS", 0x20, 1, 0x0, 1, 0x0, [⟨24, 0, .ro⟩], [0x1ffffff], false⟩,
  ⟨"GEN_STATUS", 0x28, 1, 0x0, 1, 0x0, [⟨4, 4, .ro⟩, ⟨3, 3, .ro⟩, ⟨2, 2, .ro⟩, ⟨1, 1, .ro⟩, ⟨0, 0, .ro⟩], [0x0], false⟩,
  ⟨"GEN_SCRATCH_n", 0x100, 8, 0x8, 1, 0x0, [⟨63, 0, .rws⟩], [0x0], false⟩]

/-- The CELL block (R559). -/
def regsCELL : List RegRow := [
  ⟨"CELL_START", 0x10000, 1, 0x0, 1, 0x0, [⟨31, 16, .ro⟩, ⟨15, 8, .ro⟩, ⟨3, 0, .ro⟩], [0x0], false⟩,
  ⟨"CELL_CFG", 0x10008, 1, 0x0, 1, 0x0, [⟨63, 32, .ro⟩, ⟨31, 16, .ro⟩, ⟨4, 4, .ro⟩, ⟨3, 3, .ro⟩, ⟨2, 2, .ro⟩, ⟨1, 1, .ro⟩, ⟨0, 0, .ro⟩], [0x0], false⟩,
  ⟨"CELL_IMAGE", 0x10010, 1, 0x0, 1, 0x0, [⟨63, 32, .ro⟩, ⟨31, 24, .ro⟩, ⟨15, 0, .ro⟩], [0x0], false⟩,
  ⟨"CELL_MONO_n", 0x10100, 16, 0x8, 1, 0x0, [⟨31, 0, .ro⟩], [0x0], false⟩]

/-- The SEC block (R559). -/
def regsSEC : List RegRow := [
  ⟨"SEC_LOCK", 0x20000, 1, 0x0, 1, 0x0, [⟨0, 0, .rwo⟩], [0x0], false⟩,
  ⟨"SEC_SERIAL", 0x20008, 1, 0x0, 1, 0x0, [⟨63, 0, .ro⟩], [0x0], false⟩,
  ⟨"SEC_RNG", 0x20010, 1, 0x0, 1, 0x0, [⟨63, 32, .rws⟩, ⟨0, 0, .ro⟩], [0x0], false⟩,
  ⟨"SEC_DEBUG", 0x20018, 1, 0x0, 1, 0x0, [⟨1, 0, .ro⟩], [0x0], false⟩,
  ⟨"SEC_DEBUG_NONCE", 0x20020, 2, 0x8, 1, 0x0, [⟨63, 0, .ro⟩], [0x0], false⟩,
  ⟨"SEC_KEY_GEN_n", 0x21000, 512, 0x8, 1, 0x0, [⟨31, 0, .ro⟩], [0x0], false⟩]

/-- The CLK block (R559). -/
def regsCLK : List RegRow := [
  ⟨"CLK_CAPS", 0x30000, 1, 0x0, 1, 0x0, [⟨15, 8, .ro⟩, ⟨7, 0, .ro⟩], [0x9c12], false⟩,
  ⟨"CLK_LOCK", 0x30008, 1, 0x0, 1, 0x0, [⟨17, 0, .ro⟩], [0x0], false⟩,
  ⟨"CLK_RESET_CAUSE", 0x30010, 1, 0x0, 1, 0x0, [⟨7, 7, .rw1c⟩, ⟨6, 6, .rw1c⟩, ⟨5, 5, .rw1c⟩, ⟨4, 4, .rw1c⟩, ⟨3, 3, .rw1c⟩, ⟨2, 2, .rw1c⟩, ⟨1, 1, .rw1c⟩, ⟨0, 0, .rw1c⟩], [0x1], false⟩,
  ⟨"CLK_RESET", 0x30018, 1, 0x0, 1, 0x0, [⟨0, 0, .rw⟩], [0x0], false⟩,
  ⟨"CLK_TBS_TRIM", 0x30020, 1, 0x0, 1, 0x0, [⟨31, 0, .ro⟩], [0x0], false⟩]

/-- The DAMP block (R559). -/
def regsDAMP : List RegRow := [
  ⟨"DAMP_CAPS", 0x40000, 1, 0x0, 1, 0x0, [⟨31, 24, .ro⟩, ⟨23, 16, .ro⟩, ⟨15, 8, .ro⟩, ⟨7, 0, .ro⟩], [0x400a080a], false⟩,
  ⟨"DAMP_CAP", 0x40008, 1, 0x0, 1, 0x0, [⟨63, 56, .rw⟩, ⟨47, 32, .rw⟩, ⟨23, 16, .rw⟩, ⟨15, 0, .rw⟩], [0x8000546000a047e], true⟩,
  ⟨"DAMP_CTL", 0x40010, 1, 0x0, 1, 0x0, [⟨63, 48, .rwl⟩, ⟨32, 32, .rwl⟩, ⟨19, 16, .rwl⟩, ⟨15, 0, .rwl⟩], [0x3e8000100040040], true⟩,
  ⟨"DAMP_ENERGY", 0x40018, 1, 0x0, 1, 0x0, [⟨63, 0, .ro⟩], [0x0], false⟩,
  ⟨"DAMP_RAIL_ENERGY_r", 0x40020, 4, 0x8, 1, 0x0, [⟨63, 0, .ro⟩], [0x0], false⟩,
  ⟨"DAMP_POWER", 0x40040, 1, 0x0, 1, 0x0, [⟨63, 32, .ro⟩, ⟨31, 0, .ro⟩], [0x0], false⟩,
  ⟨"DAMP_STATE", 0x40048, 1, 0x0, 1, 0x0, [⟨30, 24, .ro⟩, ⟨22, 16, .ro⟩, ⟨14, 8, .ro⟩, ⟨7, 7, .ro⟩, ⟨6, 4, .ro⟩, ⟨2, 0, .ro⟩], [0x0], false⟩,
  ⟨"DAMP_REASON", 0x40050, 1, 0x0, 1, 0x0, [⟨9, 0, .ro⟩], [0x0], false⟩,
  ⟨"DAMP_REASON_SEEN", 0x40058, 1, 0x0, 1, 0x0, [⟨9, 0, .rw1c⟩], [0x0], false⟩,
  ⟨"DAMP_TRIP", 0x40060, 1, 0x0, 1, 0x0, [⟨63, 63, .rw1c⟩, ⟨53, 48, .ro⟩, ⟨47, 0, .ro⟩], [0x0], false⟩,
  ⟨"DAMP_PHASE_SEL", 0x40068, 1, 0x0, 1, 0x0, [⟨9, 0, .rw⟩], [0x0], false⟩,
  ⟨"DAMP_PHASE", 0x40070, 1, 0x0, 1, 0x0, [⟨63, 63, .ro⟩, ⟨57, 53, .ro⟩, ⟨52, 50, .ro⟩, ⟨47, 32, .ro⟩, ⟨31, 0, .ro⟩], [0x0], false⟩,
  ⟨"DAMP_DUR_b", 0x40100, 10, 0x8, 1, 0x0, [⟨63, 0, .rws⟩], [0x0], false⟩,
  ⟨"DAMP_TEMP_i", 0x40200, 64, 0x8, 1, 0x0, [⟨16, 16, .ro⟩, ⟨15, 0, .ro⟩], [0x0], false⟩,
  ⟨"DAMP_THERM_c", 0x40400, 4, 0x8, 1, 0x0, [⟨23, 16, .ro⟩, ⟨15, 8, .rwl⟩, ⟨7, 0, .rwl⟩], [0x73695f, 0x695f55, 0x7d7364, 0x5f554b], true⟩]

/-- The TICK block (R559). -/
def regsTICK : List RegRow := [
  ⟨"TICK_PERIOD", 0x100000, 1, 0x0, 1, 0x0, [⟨18, 0, .rwl⟩], [0x30d4], true⟩,
  ⟨"TICK_GUARD", 0x100008, 1, 0x0, 1, 0x0, [⟨11, 0, .rwl⟩], [0xfa], true⟩,
  ⟨"TICK_NOW", 0x100010, 1, 0x0, 1, 0x0, [⟨47, 0, .ro⟩], [0x0], false⟩,
  ⟨"TICK_TIME", 0x100018, 1, 0x0, 1, 0x0, [⟨63, 0, .ro⟩], [0x0], false⟩,
  ⟨"TICK_STRETCH", 0x100020, 1, 0x0, 1, 0x0, [⟨63, 16, .ro⟩, ⟨15, 15, .ro⟩, ⟨14, 8, .ro⟩, ⟨6, 0, .ro⟩], [0x0], false⟩,
  ⟨"TICK_TREE", 0x100028, 1, 0x0, 1, 0x0, [⟨63, 48, .rw⟩, ⟨43, 32, .rw⟩, ⟨11, 8, .rw⟩, ⟨4, 0, .rw⟩], [0x1f], false⟩,
  ⟨"TICK_CHILDREN", 0x100030, 1, 0x0, 1, 0x0, [⟨25, 0, .rw⟩], [0x0], false⟩,
  ⟨"TICK_STATUS", 0x100038, 1, 0x0, 1, 0x0, [⟨63, 32, .ro⟩, ⟨5, 5, .rw1c⟩, ⟨4, 4, .rw1c⟩, ⟨3, 3, .rw1c⟩, ⟨2, 2, .rw1c⟩, ⟨1, 1, .ro⟩, ⟨0, 0, .ro⟩], [0x0], false⟩,
  ⟨"TICK_OFFSET", 0x100040, 1, 0x0, 1, 0x0, [⟨31, 0, .ro⟩], [0x0], false⟩,
  ⟨"TICK_PORT_DELAY_n", 0x100100, 26, 0x8, 1, 0x0, [⟨31, 0, .ro⟩], [0x0], false⟩,
  ⟨"TICK_PORT_ASYM_n", 0x100200, 26, 0x8, 1, 0x0, [⟨15, 0, .rwl⟩], [0x0], true⟩]

/-- The SEQ block (R559). -/
def regsSEQ : List RegRow := [
  ⟨"SEQ_JOB_STATE_j", 0x110000, 32, 0x8, 1, 0x0, [⟨63, 48, .ro⟩, ⟨40, 32, .ro⟩, ⟨2, 0, .ro⟩], [0x0], false⟩,
  ⟨"SEQ_JOB_START_j", 0x110100, 32, 0x8, 1, 0x0, [⟨47, 0, .ro⟩], [0x0], false⟩,
  ⟨"SEQ_JOB_STEP_j", 0x110200, 32, 0x8, 1, 0x0, [⟨63, 32, .ro⟩, ⟨31, 0, .ro⟩], [0x0], false⟩,
  ⟨"SEQ_OVERRUN_COUNT", 0x110300, 1, 0x0, 1, 0x0, [⟨63, 0, .rws⟩], [0x0], false⟩]

/-- The TILE block (R559). -/
def regsTILE : List RegRow := [
  ⟨"TILE_CAPS", 0x200000, 1, 0x0, 1, 0x0, [⟨57, 32, .ro⟩, ⟨15, 8, .ro⟩, ⟨7, 0, .ro⟩], [0x2e0000000002010], false⟩,
  ⟨"TILE_MAP_BASE", 0x200008, 1, 0x0, 1, 0x0, [⟨42, 0, .ro⟩], [0x2e000000000], false⟩,
  ⟨"TILE_FREE_SLOTS", 0x200010, 1, 0x0, 1, 0x0, [⟨63, 32, .ro⟩, ⟨31, 0, .ro⟩], [0x1e0000001000000], false⟩,
  ⟨"TILE_USED", 0x200018, 1, 0x0, 1, 0x0, [⟨57, 32, .ro⟩, ⟨25, 0, .ro⟩], [0x0], false⟩,
  ⟨"TILE_CRC_COUNT", 0x200020, 1, 0x0, 1, 0x0, [⟨63, 32, .rws⟩, ⟨31, 0, .rws⟩], [0x0], false⟩,
  ⟨"TILE_NO_SLOT_COUNT", 0x200028, 1, 0x0, 1, 0x0, [⟨63, 0, .rws⟩], [0x0], false⟩,
  ⟨"TILE_SCRUB_CTL", 0x200030, 1, 0x0, 1, 0x0, [⟨8, 8, .rwl⟩, ⟨7, 0, .rwl⟩], [0x118], true⟩,
  ⟨"TILE_SCRUB_STATUS", 0x200038, 1, 0x0, 1, 0x0, [⟨63, 32, .ro⟩, ⟨25, 0, .ro⟩], [0x0], false⟩,
  ⟨"TILE_BAD_SLOTS", 0x200040, 1, 0x0, 1, 0x0, [⟨63, 32, .ro⟩, ⟨31, 0, .ro⟩], [0x0], false⟩]

/-- The MIG block (R559). -/
def regsMIG : List RegRow := [
  ⟨"MIG_CAPS", 0x210000, 1, 0x0, 1, 0x0, [⟨31, 16, .ro⟩, ⟨15, 8, .ro⟩, ⟨7, 0, .ro⟩], [0x3e84009], false⟩,
  ⟨"MIG_CTL", 0x210008, 1, 0x0, 1, 0x0, [⟨16, 16, .rwl⟩, ⟨11, 8, .rwl⟩, ⟨7, 0, .rwl⟩], [0x10420], true⟩,
  ⟨"MIG_DEMAND", 0x210010, 1, 0x0, 1, 0x0, [⟨63, 32, .rwl⟩, ⟨7, 0, .rwl⟩], [0x40000000004], true⟩,
  ⟨"MIG_PIN", 0x210018, 1, 0x0, 1, 0x0, [⟨63, 32, .ro⟩, ⟨31, 0, .rwl⟩], [0x40000], true⟩,
  ⟨"MIG_ROOM", 0x210020, 1, 0x0, 1, 0x0, [⟨63, 32, .ro⟩, ⟨31, 0, .ro⟩], [0x0], false⟩,
  ⟨"MIG_STATS_DONE", 0x210028, 1, 0x0, 1, 0x0, [⟨63, 0, .rws⟩], [0x0], false⟩,
  ⟨"MIG_STATS_ABANDON", 0x210030, 1, 0x0, 1, 0x0, [⟨63, 0, .rws⟩], [0x0], false⟩,
  ⟨"MIG_STATS_CUT", 0x210038, 1, 0x0, 1, 0x0, [⟨15, 0, .rws⟩], [0x0], false⟩,
  ⟨"MIG_LOCKS", 0x210040, 1, 0x0, 1, 0x0, [⟨63, 32, .rws⟩, ⟨8, 0, .ro⟩], [0x0], false⟩,
  ⟨"MIG_JOB_ROOM_j", 0x210100, 32, 0x8, 1, 0x0, [⟨63, 32, .ro⟩, ⟨31, 0, .ro⟩], [0x0], false⟩,
  ⟨"MIG_SLOW_COUNT_n", 0x211000, 512, 0x8, 1, 0x0, [⟨63, 0, .rws⟩], [0x0], false⟩]

/-- The CHRN block (R559). -/
def regsCHRN : List RegRow := [
  ⟨"CHRN_CAPS", 0x300000, 1, 0x0, 1, 0x0, [⟨31, 24, .ro⟩, ⟨23, 16, .ro⟩, ⟨15, 8, .ro⟩, ⟨7, 0, .ro⟩], [0x40101008], false⟩,
  ⟨"CHRN_POST_CTL", 0x300008, 1, 0x0, 1, 0x0, [⟨32, 32, .rwl⟩, ⟨31, 16, .rwl⟩, ⟨5, 0, .rwl⟩], [0x101f40010], true⟩,
  ⟨"CHRN_CKPT_CTL", 0x300010, 1, 0x0, 1, 0x0, [⟨7, 0, .rwl⟩], [0x4], true⟩,
  ⟨"CHRN_STRAY", 0x300018, 1, 0x0, 1, 0x0, [⟨63, 0, .rws⟩], [0x0], false⟩,
  ⟨"CHRN_POST_DROP", 0x300020, 1, 0x0, 1, 0x0, [⟨63, 0, .rws⟩], [0x0], false⟩,
  ⟨"CHRN_CKPT_FAIL", 0x300028, 1, 0x0, 1, 0x0, [⟨63, 0, .rws⟩], [0x0], false⟩,
  ⟨"CHRN_SAT_COUNT_e", 0x300100, 16, 0x8, 1, 0x0, [⟨63, 32, .rws⟩, ⟨31, 0, .rws⟩], [0x0], false⟩,
  ⟨"CHRN_FIT_WAIT_e", 0x300180, 16, 0x8, 1, 0x0, [⟨63, 0, .rws⟩], [0x0], false⟩,
  ⟨"CHRN_ENG_e", 0x300200, 16, 0x8, 1, 0x0, [⟨63, 48, .ro⟩, ⟨47, 40, .ro⟩, ⟨8, 8, .ro⟩, ⟨4, 0, .ro⟩], [0x0], false⟩]

/-- The ROWE block (R559). -/
def regsROWE : List RegRow := [
  ⟨"ROWE_CAPS", 0x310000, 1, 0x0, 1, 0x0, [⟨31, 16, .ro⟩, ⟨15, 12, .ro⟩, ⟨11, 8, .ro⟩, ⟨7, 0, .ro⟩], [0x100a608], false⟩,
  ⟨"ROWE_PRIV_w", 0x310040, 8, 0x8, 1, 0x0, [⟨63, 0, .rwl⟩], [0x0], true⟩,
  ⟨"ROWE_ENG_e", 0x310100, 8, 0x8, 1, 0x0, [⟨63, 48, .ro⟩, ⟨47, 40, .ro⟩, ⟨8, 8, .ro⟩, ⟨4, 0, .ro⟩], [0x0], false⟩,
  ⟨"ROWE_DEFAULT_e", 0x310140, 8, 0x8, 1, 0x0, [⟨63, 0, .rws⟩], [0x0], false⟩,
  ⟨"ROWE_LOOKUPS_e", 0x310180, 8, 0x8, 1, 0x0, [⟨63, 0, .rws⟩], [0x0], false⟩,
  ⟨"ROWE_UPDATES_e", 0x3101c0, 8, 0x8, 1, 0x0, [⟨63, 0, .rws⟩], [0x0], false⟩,
  ⟨"ROWE_SAT_COUNT_e", 0x310200, 8, 0x8, 1, 0x0, [⟨63, 32, .rws⟩, ⟨31, 0, .rws⟩], [0x0], false⟩,
  ⟨"ROWE_VT_STATE_h", 0x311000, 256, 0x20, 1, 0x0, [⟨63, 63, .ro⟩, ⟨62, 62, .ro⟩, ⟨61, 61, .ro⟩, ⟨40, 32, .ro⟩, ⟨31, 0, .ro⟩], [0x0], false⟩,
  ⟨"ROWE_VT_CUR_h", 0x311008, 256, 0x20, 1, 0x0, [⟨51, 0, .ro⟩], [0x0], false⟩,
  ⟨"ROWE_VT_NEXT_h", 0x311010, 256, 0x20, 1, 0x0, [⟨51, 0, .ro⟩], [0x0], false⟩,
  ⟨"ROWE_VT_BOUND_h", 0x311018, 256, 0x20, 1, 0x0, [⟨63, 32, .ro⟩, ⟨31, 0, .ro⟩], [0x0], false⟩]

/-- The STRN block (R559). -/
def regsSTRN : List RegRow := [
  ⟨"STRN_CAPS", 0x320000, 1, 0x0, 1, 0x0, [⟨31, 24, .ro⟩, ⟨23, 16, .ro⟩, ⟨15, 8, .ro⟩, ⟨7, 0, .ro⟩], [0x40082004], false⟩,
  ⟨"STRN_CTL", 0x320008, 1, 0x0, 1, 0x0, [⟨10, 0, .rwl⟩], [0x100], true⟩,
  ⟨"STRN_RETAINED", 0x320010, 1, 0x0, 1, 0x0, [⟨31, 0, .ro⟩], [0x0], false⟩,
  ⟨"STRN_DEL_NOP", 0x320018, 1, 0x0, 1, 0x0, [⟨63, 0, .rws⟩], [0x0], false⟩,
  ⟨"STRN_ENG_e", 0x320100, 4, 0x8, 1, 0x0, [⟨47, 40, .ro⟩, ⟨21, 16, .ro⟩, ⟨8, 8, .ro⟩, ⟨4, 0, .ro⟩], [0x0], false⟩,
  ⟨"STRN_COMPARES_e", 0x320140, 4, 0x8, 1, 0x0, [⟨63, 0, .rws⟩], [0x0], false⟩,
  ⟨"STRN_RERANK_e", 0x320180, 4, 0x8, 1, 0x0, [⟨63, 0, .rws⟩], [0x0], false⟩,
  ⟨"STRN_TOMB_SKIP_e", 0x3201c0, 4, 0x8, 1, 0x0, [⟨63, 0, .rws⟩], [0x0], false⟩,
  ⟨"STRN_COLL_STATE_h", 0x321000, 64, 0x10, 1, 0x0, [⟨63, 63, .ro⟩, ⟨62, 62, .ro⟩, ⟨40, 32, .ro⟩, ⟨31, 0, .ro⟩], [0x0], false⟩,
  ⟨"STRN_COLL_REC_h", 0x321008, 64, 0x10, 1, 0x0, [⟨51, 0, .ro⟩], [0x0], false⟩]

/-- The PAIL block (R559). -/
def regsPAIL : List RegRow := [
  ⟨"PAIL_CONFLICT_p_m", 0x330000, 28, 0x40, 8, 0x8, [⟨63, 0, .rws⟩], [0x0], false⟩]

/-- The FAB block (R559). -/
def regsFAB : List RegRow := [
  ⟨"FAB_CAPS", 0x400000, 1, 0x0, 1, 0x0, [⟨31, 16, .ro⟩, ⟨15, 8, .ro⟩, ⟨7, 0, .ro⟩], [0x800081a], false⟩,
  ⟨"FAB_NODE", 0x400008, 1, 0x0, 1, 0x0, [⟨13, 13, .ro⟩, ⟨12, 12, .ro⟩, ⟨11, 0, .ro⟩], [0x0], false⟩,
  ⟨"FAB_CRED_INIT", 0x400010, 1, 0x0, 1, 0x0, [⟨63, 48, .rwl⟩, ⟨47, 32, .rwl⟩, ⟨31, 16, .rwl⟩, ⟨15, 0, .rwl⟩], [0x40080004000400], true⟩,
  ⟨"FAB_REQ_TIMEOUT", 0x400018, 1, 0x0, 1, 0x0, [⟨31, 0, .rwl⟩], [0xfa0], true⟩,
  ⟨"FAB_LINK_CTL", 0x400020, 1, 0x0, 1, 0x0, [⟨15, 8, .rwl⟩, ⟨7, 0, .rwl⟩], [0x80a], true⟩,
  ⟨"FAB_TIMEOUT_COUNT", 0x400028, 1, 0x0, 1, 0x0, [⟨63, 32, .rws⟩, ⟨31, 0, .rws⟩], [0x0], false⟩,
  ⟨"FAB_PORT_CTL_n", 0x400100, 26, 0x8, 1, 0x0, [⟨2, 1, .rwl⟩, ⟨0, 0, .rwl⟩], [0x1, 0x1, 0x1, 0x1, 0x1, 0x1, 0x1, 0x1, 0x1, 0x1, 0x1, 0x1, 0x1, 0x1, 0x1, 0x1, 0x1, 0x1, 0x1, 0x1, 0x1, 0x1, 0x1, 0x1, 0x0, 0x0], true⟩,
  ⟨"FAB_PORT_STATUS_n", 0x400200, 26, 0x8, 1, 0x0, [⟨31, 24, .ro⟩, ⟨23, 16, .ro⟩, ⟨15, 4, .ro⟩, ⟨3, 3, .ro⟩, ⟨2, 0, .ro⟩], [0x0, 0x0, 0x0, 0x0, 0x0, 0x0, 0x0, 0x0, 0x0, 0x0, 0x0, 0x0, 0x0, 0x0, 0x0, 0x0, 0x0, 0x0, 0x0, 0x0, 0x0, 0x0, 0x0, 0x0, 0x7, 0x7], false⟩,
  ⟨"FAB_PORT_ERR_n", 0x400300, 26, 0x8, 1, 0x0, [⟨63, 32, .rws⟩, ⟨31, 0, .rws⟩], [0x0], false⟩,
  ⟨"FAB_PORT_FEC_n", 0x400400, 26, 0x8, 1, 0x0, [⟨63, 0, .rws⟩], [0x0], false⟩,
  ⟨"FAB_PORT_DISCARD_n", 0x400500, 26, 0x8, 1, 0x0, [⟨63, 0, .rws⟩], [0x0], false⟩]

/-- The SWX block (R559). -/
def regsSWX : List RegRow := [
  ⟨"SWX_CAPS", 0x410000, 1, 0x0, 1, 0x0, [⟨50, 32, .ro⟩, ⟨31, 24, .ro⟩, ⟨23, 16, .ro⟩, ⟨15, 8, .ro⟩, ⟨7, 0, .ro⟩], [0x4000004081a02], false⟩,
  ⟨"SWX_HASH", 0x410008, 1, 0x0, 1, 0x0, [⟨31, 0, .rwl⟩], [0x0], true⟩,
  ⟨"SWX_BUF", 0x410010, 1, 0x0, 1, 0x0, [⟨63, 32, .ro⟩, ⟨12, 0, .rwl⟩], [0x4000000000800], true⟩,
  ⟨"SWX_STATUS", 0x410018, 1, 0x0, 1, 0x0, [⟨0, 0, .rw1c⟩], [0x0], false⟩,
  ⟨"SWX_NO_ROUTE", 0x410020, 1, 0x0, 1, 0x0, [⟨63, 0, .rws⟩], [0x0], false⟩,
  ⟨"SWX_SKIM_CTL", 0x410028, 1, 0x0, 1, 0x0, [⟨9, 9, .rwl⟩, ⟨8, 8, .rwl⟩, ⟨4, 0, .rwl⟩], [0x310], true⟩,
  ⟨"SWX_SKIM_COUNT", 0x410030, 1, 0x0, 1, 0x0, [⟨63, 32, .rws⟩, ⟨31, 0, .rws⟩], [0x0], false⟩,
  ⟨"SWX_MCAST", 0x410038, 1, 0x0, 1, 0x0, [⟨42, 0, .ro⟩], [0x2e05c000000], false⟩,
  ⟨"SWX_MCAST_DROP", 0x410040, 1, 0x0, 1, 0x0, [⟨63, 0, .rws⟩], [0x0], false⟩,
  ⟨"SWX_AVG", 0x410048, 1, 0x0, 1, 0x0, [⟨3, 0, .rwl⟩], [0x9], true⟩,
  ⟨"SWX_PROF_v_c", 0x410100, 4, 0x20, 3, 0x8, [⟨57, 56, .rwl⟩, ⟨48, 40, .rwl⟩, ⟨39, 20, .rwl⟩, ⟨19, 0, .rwl⟩], [0x100100200000800, 0x100400080000200, 0x101000020000080, 0x100100200000800, 0x100400080000200, 0x101000020000080, 0x100100200000800, 0x100400080000200, 0x201000020000080, 0x20000080, 0x20000080, 0x20000080], true⟩,
  ⟨"SWX_PORT_CM_q", 0x410200, 34, 0x8, 1, 0x0, [⟨63, 32, .rws⟩, ⟨31, 0, .rws⟩], [0x0], false⟩,
  ⟨"SWX_ROUTE_d", 0x418000, 4096, 0x8, 1, 0x0, [⟨25, 0, .rw⟩], [0x0], true⟩]

/-- The SHP block (R559). -/
def regsSHP : List RegRow := [
  ⟨"SHP_CAPS", 0x420000, 1, 0x0, 1, 0x0, [⟨39, 32, .ro⟩, ⟨31, 24, .ro⟩, ⟨23, 16, .ro⟩, ⟨15, 0, .ro⟩], [0x804100400], false⟩,
  ⟨"SHP_ARB", 0x420008, 1, 0x0, 1, 0x0, [⟨42, 32, .rw⟩, ⟨15, 8, .rw⟩, ⟨7, 0, .rw⟩], [0x30000001209], true⟩,
  ⟨"SHP_STATUS", 0x420010, 1, 0x0, 1, 0x0, [⟨0, 0, .rw1c⟩], [0x0], false⟩,
  ⟨"SHP_SAMP_CTL", 0x420018, 1, 0x0, 1, 0x0, [⟨63, 32, .rw⟩, ⟨15, 0, .rw⟩], [0x400], true⟩,
  ⟨"SHP_RECOLOUR", 0x420020, 1, 0x0, 1, 0x0, [⟨63, 32, .rws⟩, ⟨31, 0, .rws⟩], [0x0], false⟩,
  ⟨"SHP_GATE_LATE", 0x420028, 1, 0x0, 1, 0x0, [⟨63, 0, .rws⟩], [0x0], false⟩,
  ⟨"SHP_TAG_BASE", 0x420030, 1, 0x0, 1, 0x0, [⟨42, 0, .ro⟩], [0x2e05c080000], false⟩,
  ⟨"SHP_PORT_LEN_q", 0x420100, 26, 0x8, 1, 0x0, [⟨8, 8, .rw⟩, ⟨7, 0, .rw⟩], [0x0], true⟩,
  ⟨"SHP_TENANT_n", 0x421000, 514, 0x8, 1, 0x0, [⟨7, 0, .rw⟩], [0x10], true⟩,
  ⟨"SHP_SHP_CFG_q_k", 0x424000, 26, 0x200, 16, 0x20, [⟨61, 61, .rw⟩, ⟨60, 60, .rw⟩, ⟨59, 56, .rw⟩, ⟨55, 32, .rw⟩, ⟨10, 0, .rw⟩], [0xf00120000000400], true⟩,
  ⟨"SHP_SHP_MATCH_q_k", 0x424008, 26, 0x200, 16, 0x20, [⟨31, 16, .rw⟩, ⟨15, 15, .rw⟩, ⟨5, 3, .rw⟩, ⟨2, 0, .rw⟩], [0x803f], true⟩,
  ⟨"SHP_SHP_TOK_q_k", 0x424010, 26, 0x200, 16, 0x20, [⟨39, 0, .ro⟩], [0x0], false⟩,
  ⟨"SHP_GATE_q_g_w", 0x428000, 26, 0x100, 32, 0x8, [⟨27, 27, .rw⟩, ⟨26, 16, .rw⟩, ⟨9, 0, .rw⟩], [0x4000000], true⟩,
  ⟨"SHP_METER_CFG_m", 0x42a000, 1024, 0x10, 1, 0x0, [⟨29, 29, .rw⟩, ⟨28, 28, .rw⟩, ⟨20, 16, .rw⟩, ⟨15, 0, .rw⟩], [0x0], true⟩,
  ⟨"SHP_METER_RATE_m", 0x42a008, 1024, 0x10, 1, 0x0, [⟨55, 32, .rw⟩, ⟨10, 0, .rw⟩], [0x120000000000], true⟩,
  ⟨"SHP_SAMP_DEPTH_q_v", 0x42e000, 34, 0x40, 4, 0x10, [⟨63, 32, .ro⟩, ⟨31, 0, .ro⟩], [0x0], false⟩,
  ⟨"SHP_SAMP_DELAY_q_v", 0x42e008, 34, 0x40, 4, 0x10, [⟨63, 32, .ro⟩, ⟨31, 0, .ro⟩], [0x0], false⟩]

/-- The COH block (R559). -/
def regsCOH : List RegRow := [
  ⟨"COH_CAPS", 0x500000, 1, 0x0, 1, 0x0, [⟨39, 32, .ro⟩, ⟨31, 24, .ro⟩, ⟨23, 16, .ro⟩, ⟨15, 8, .ro⟩, ⟨7, 0, .ro⟩], [0x1110404006], false⟩,
  ⟨"COH_CTL", 0x500008, 1, 0x0, 1, 0x0, [⟨63, 32, .rwl⟩, ⟨11, 0, .rwl⟩], [0x64000000c8], true⟩,
  ⟨"COH_PRED", 0x500010, 1, 0x0, 1, 0x0, [⟨63, 32, .rwl⟩, ⟨1, 0, .rwl⟩], [0x4000000002], true⟩,
  ⟨"COH_STATUS", 0x500018, 1, 0x0, 1, 0x0, [⟨1, 1, .ro⟩, ⟨0, 0, .rw1c⟩], [0x0], false⟩,
  ⟨"COH_LOST_AGENTS", 0x500020, 1, 0x0, 1, 0x0, [⟨63, 0, .ro⟩], [0x0], false⟩,
  ⟨"COH_SNOOPS", 0x500028, 1, 0x0, 1, 0x0, [⟨63, 0, .rws⟩], [0x0], false⟩,
  ⟨"COH_EVICTIONS", 0x500030, 1, 0x0, 1, 0x0, [⟨63, 0, .rws⟩], [0x0], false⟩,
  ⟨"COH_LOST_LINES", 0x500038, 1, 0x0, 1, 0x0, [⟨63, 0, .rws⟩], [0x0], false⟩,
  ⟨"COH_LOST_BASE", 0x500040, 1, 0x0, 1, 0x0, [⟨42, 0, .ro⟩], [0x2e05c100000], false⟩,
  ⟨"COH_AGENT_LD_i", 0x500100, 16, 0x8, 1, 0x0, [⟨5, 5, .rwl⟩, ⟨4, 4, .rwl⟩, ⟨3, 0, .rwl⟩], [0x20, 0x21, 0x22, 0x23, 0x24, 0x25, 0x26, 0x27, 0x28, 0x29, 0x2a, 0x2b, 0x2c, 0x2d, 0x2e, 0x2f], true⟩,
  ⟨"COH_WIN_BASE_n", 0x501000, 64, 0x20, 1, 0x0, [⟨63, 63, .rwl⟩, ⟨56, 48, .rwl⟩, ⟨25, 0, .rwl⟩], [0x0], true⟩,
  ⟨"COH_WIN_END_n", 0x501008, 64, 0x20, 1, 0x0, [⟨25, 0, .rwl⟩], [0x0], true⟩,
  ⟨"COH_WIN_VA_n", 0x501010, 64, 0x20, 1, 0x0, [⟨51, 16, .rwl⟩], [0x0], true⟩,
  ⟨"COH_WIN_AGENTS_n", 0x501018, 64, 0x20, 1, 0x0, [⟨63, 0, .rwl⟩], [0x0], true⟩,
  ⟨"COH_LOST_n", 0x502000, 512, 0x8, 1, 0x0, [⟨63, 32, .rws⟩, ⟨8, 0, .ro⟩], [0x0], false⟩]

/-- The SEGT block (R559). -/
def regsSEGT : List RegRow := [
  ⟨"SEGT_CAPS", 0x510000, 1, 0x0, 1, 0x0, [⟨15, 0, .ro⟩], [0x1000], false⟩,
  ⟨"SEGT_SEL", 0x510008, 1, 0x0, 1, 0x0, [⟨11, 0, .rw⟩], [0x0], false⟩,
  ⟨"SEGT_WORD0", 0x510010, 1, 0x0, 1, 0x0, [⟨63, 0, .rw⟩], [0x0], false⟩,
  ⟨"SEGT_WORD1", 0x510018, 1, 0x0, 1, 0x0, [⟨63, 0, .rw⟩], [0x0], false⟩,
  ⟨"SEGT_WORD2", 0x510020, 1, 0x0, 1, 0x0, [⟨63, 0, .rw⟩], [0x0], false⟩,
  ⟨"SEGT_OP", 0x510028, 1, 0x0, 1, 0x0, [⟨15, 8, .ro⟩, ⟨1, 0, .rw⟩], [0x0], false⟩]

/-- The WIN block (R559). -/
def regsWIN : List RegRow := [
  ⟨"WIN_CAPS", 0x520000, 1, 0x0, 1, 0x0, [⟨15, 0, .ro⟩], [0x1000], false⟩,
  ⟨"WIN_SEL", 0x520008, 1, 0x0, 1, 0x0, [⟨11, 0, .rw⟩], [0x0], false⟩,
  ⟨"WIN_WORD0", 0x520010, 1, 0x0, 1, 0x0, [⟨63, 0, .rw⟩], [0x0], false⟩,
  ⟨"WIN_WORD1", 0x520018, 1, 0x0, 1, 0x0, [⟨63, 0, .rw⟩], [0x0], false⟩,
  ⟨"WIN_WORD2", 0x520020, 1, 0x0, 1, 0x0, [⟨63, 0, .rw⟩], [0x0], false⟩,
  ⟨"WIN_OP", 0x520028, 1, 0x0, 1, 0x0, [⟨15, 8, .ro⟩, ⟨1, 0, .rw⟩], [0x0], false⟩,
  ⟨"WIN_REFUSED", 0x520030, 1, 0x0, 1, 0x0, [⟨63, 0, .rws⟩], [0x0], false⟩]

/-- The FLT block (R559). -/
def regsFLT : List RegRow := [
  ⟨"FLT_CAPS", 0x530000, 1, 0x0, 1, 0x0, [⟨23, 16, .ro⟩, ⟨15, 0, .ro⟩], [0x80400], false⟩,
  ⟨"FLT_CTL", 0x530008, 1, 0x0, 1, 0x0, [⟨10, 0, .rwl⟩], [0x40], true⟩,
  ⟨"FLT_STATUS", 0x530010, 1, 0x0, 1, 0x0, [⟨63, 32, .ro⟩, ⟨10, 0, .ro⟩], [0x0], false⟩,
  ⟨"FLT_POP", 0x530018, 1, 0x0, 1, 0x0, [⟨31, 0, .rw⟩], [0x0], false⟩,
  ⟨"FLT_OVF_CLR", 0x530020, 1, 0x0, 1, 0x0, [⟨8, 0, .rw⟩], [0x0], false⟩,
  ⟨"FLT_TOTAL", 0x530028, 1, 0x0, 1, 0x0, [⟨63, 0, .rws⟩], [0x0], false⟩,
  ⟨"FLT_POP_DATA_w", 0x530100, 10, 0x8, 1, 0x0, [⟨63, 0, .ro⟩], [0x0], false⟩,
  ⟨"FLT_OVF_COUNT_n", 0x531000, 512, 0x8, 1, 0x0, [⟨63, 0, .ro⟩], [0x0], false⟩,
  ⟨"FLT_OVF_FIRST_n", 0x532000, 512, 0x8, 1, 0x0, [⟨51, 0, .ro⟩], [0x0], false⟩,
  ⟨"FLT_OVF_LAST_n", 0x533000, 512, 0x8, 1, 0x0, [⟨51, 0, .ro⟩], [0x0], false⟩,
  ⟨"FLT_PENDING_n", 0x534000, 512, 0x8, 1, 0x0, [⟨10, 0, .ro⟩], [0x0], false⟩]

/-- The EXT block (R559). -/
def regsEXT : List RegRow := [
  ⟨"EXT_CAPS", 0x600000, 1, 0x0, 1, 0x0, [⟨47, 32, .ro⟩, ⟨31, 15, .ro⟩, ⟨14, 0, .ro⟩], [0x1f480004000], false⟩,
  ⟨"EXT_CTL", 0x600008, 1, 0x0, 1, 0x0, [⟨47, 32, .rwl⟩, ⟨31, 0, .rwl⟩], [0x3e8001e8480], true⟩,
  ⟨"EXT_COMP_CTL", 0x600010, 1, 0x0, 1, 0x0, [⟨31, 16, .rwl⟩, ⟨15, 0, .rwl⟩], [0x3e80064], true⟩,
  ⟨"EXT_EXT_BASE", 0x600018, 1, 0x0, 1, 0x0, [⟨42, 0, .ro⟩], [0x2e05c800000], false⟩,
  ⟨"EXT_COMP_BASE", 0x600020, 1, 0x0, 1, 0x0, [⟨42, 0, .ro⟩], [0x2e05c400000], false⟩,
  ⟨"EXT_INBOX", 0x600028, 1, 0x0, 1, 0x0, [⟨42, 0, .ro⟩], [0x2e05c900000], false⟩,
  ⟨"EXT_LEASE_FAIL", 0x600030, 1, 0x0, 1, 0x0, [⟨63, 0, .rws⟩], [0x0], false⟩,
  ⟨"EXT_FORWARDS", 0x600038, 1, 0x0, 1, 0x0, [⟨63, 32, .rws⟩, ⟨31, 0, .rws⟩], [0x0], false⟩,
  ⟨"EXT_MISROUTED", 0x600040, 1, 0x0, 1, 0x0, [⟨63, 0, .rws⟩], [0x0], false⟩,
  ⟨"EXT_NO_OWNER", 0x600048, 1, 0x0, 1, 0x0, [⟨63, 0, .rws⟩], [0x0], false⟩,
  ⟨"EXT_DRAIN_LONGEST", 0x600050, 1, 0x0, 1, 0x0, [⟨14, 0, .rws⟩], [0x0], false⟩,
  ⟨"EXT_HO", 0x600058, 1, 0x0, 1, 0x0, [⟨63, 48, .rws⟩, ⟨47, 24, .rws⟩, ⟨23, 0, .rws⟩], [0x0], false⟩,
  ⟨"EXT_EPOCH_n", 0x601000, 512, 0x8, 1, 0x0, [⟨28, 28, .ro⟩, ⟨27, 16, .ro⟩, ⟨15, 0, .ro⟩], [0x0], false⟩]

/-- The HOST block (R559). -/
def regsHOST : List RegRow := [
  ⟨"HOST_CAPS", 0x700000, 1, 0x0, 1, 0x0, [⟨31, 16, .ro⟩, ⟨15, 8, .ro⟩, ⟨7, 0, .ro⟩], [0x8001010], false⟩,
  ⟨"HOST_LINK", 0x700008, 1, 0x0, 1, 0x0, [⟨11, 11, .ro⟩, ⟨10, 10, .ro⟩, ⟨9, 4, .ro⟩, ⟨3, 0, .ro⟩], [0x0], false⟩,
  ⟨"HOST_NOTICE_DROP", 0x700010, 1, 0x0, 1, 0x0, [⟨63, 0, .rws⟩], [0x0], false⟩,
  ⟨"HOST_SYSRING", 0x700018, 1, 0x0, 1, 0x0, [⟨42, 0, .ro⟩], [0x2e05ca00000], false⟩,
  ⟨"HOST_SYSRING_HEAD", 0x700020, 1, 0x0, 1, 0x0, [⟨31, 0, .ro⟩], [0x0], false⟩,
  ⟨"HOST_SYSRING_TAIL", 0x700028, 1, 0x0, 1, 0x0, [⟨31, 0, .rw⟩], [0x0], false⟩,
  ⟨"HOST_LD_CFG_i", 0x700100, 16, 0x40, 1, 0x0, [⟨63, 50, .ro⟩, ⟨11, 11, .rw⟩, ⟨10, 2, .rw⟩, ⟨1, 0, .ro⟩], [0x0], true⟩,
  ⟨"HOST_LD_MAP_i", 0x700108, 16, 0x40, 1, 0x0, [⟨51, 0, .rw⟩], [0x0], true⟩,
  ⟨"HOST_LD_STATIC_i", 0x700110, 16, 0x40, 1, 0x0, [⟨51, 0, .rw⟩], [0x0], true⟩,
  ⟨"HOST_LD_DC_i", 0x700118, 16, 0x40, 1, 0x0, [⟨62, 36, .rw⟩, ⟨35, 0, .rw⟩], [0x0], true⟩,
  ⟨"HOST_RING_BASE_i", 0x700120, 16, 0x40, 1, 0x0, [⟨63, 12, .rw⟩], [0x0], false⟩,
  ⟨"HOST_RING_CTL_i", 0x700128, 16, 0x40, 1, 0x0, [⟨63, 63, .rw⟩, ⟨47, 32, .rw⟩, ⟨31, 16, .rw⟩, ⟨11, 5, .rw⟩, ⟨4, 0, .rw⟩], [0xa00010026], false⟩,
  ⟨"HOST_RING_IDX_i", 0x700130, 16, 0x40, 1, 0x0, [⟨63, 32, .rw⟩, ⟨31, 0, .ro⟩], [0x0], false⟩,
  ⟨"HOST_RING_STAT_i", 0x700138, 16, 0x40, 1, 0x0, [⟨63, 63, .rw1c⟩, ⟨62, 0, .rws⟩], [0x0], false⟩,
  ⟨"HOST_MEMERR_i", 0x700800, 16, 0x10, 1, 0x0, [⟨63, 56, .ro⟩, ⟨55, 0, .ro⟩], [0x0], false⟩,
  ⟨"HOST_MEMERR_ADDR_i", 0x700808, 16, 0x10, 1, 0x0, [⟨63, 0, .ro⟩], [0x0], false⟩,
  ⟨"HOST_TENANT_n", 0x701000, 512, 0x8, 1, 0x0, [⟨63, 16, .ro⟩, ⟨1, 0, .ro⟩], [0x0], false⟩]

/-- The HERD block (R559). -/
def regsHERD : List RegRow := [
  ⟨"HERD_CAPS", 0x800000, 1, 0x0, 1, 0x0, [⟨23, 16, .ro⟩, ⟨15, 0, .ro⟩], [0x20400], false⟩,
  ⟨"HERD_CTL", 0x800008, 1, 0x0, 1, 0x0, [⟨32, 32, .rwl⟩, ⟨31, 16, .rwl⟩, ⟨15, 8, .rwl⟩, ⟨7, 0, .rwl⟩], [0x127104010], true⟩,
  ⟨"HERD_CULL", 0x800010, 1, 0x0, 1, 0x0, [⟨23, 16, .rwl⟩, ⟨15, 0, .rwl⟩], [0x10400], true⟩,
  ⟨"HERD_INBOX", 0x800018, 1, 0x0, 1, 0x0, [⟨42, 0, .ro⟩], [0x2e05ce00000], false⟩,
  ⟨"HERD_META", 0x800020, 1, 0x0, 1, 0x0, [⟨42, 0, .ro⟩], [0x2e080000000], false⟩,
  ⟨"HERD_ABORT_LATE", 0x800028, 1, 0x0, 1, 0x0, [⟨63, 0, .rws⟩], [0x0], false⟩,
  ⟨"HERD_SCORE_SEL", 0x800030, 1, 0x0, 1, 0x0, [⟨14, 10, .rw⟩, ⟨9, 0, .rw⟩], [0x0], false⟩,
  ⟨"HERD_SCORE", 0x800038, 1, 0x0, 1, 0x0, [⟨28, 28, .ro⟩, ⟨27, 16, .ro⟩, ⟨15, 0, .ro⟩], [0x0], false⟩,
  ⟨"HERD_ID_j", 0x800100, 32, 0x40, 1, 0x0, [⟨43, 32, .ro⟩, ⟨31, 0, .ro⟩], [0x0], false⟩,
  ⟨"HERD_MEMB_j", 0x800108, 32, 0x40, 1, 0x0, [⟨42, 32, .ro⟩, ⟨26, 16, .ro⟩, ⟨2, 0, .ro⟩], [0x0], false⟩,
  ⟨"HERD_EPOCH_j", 0x800110, 32, 0x40, 1, 0x0, [⟨63, 32, .ro⟩, ⟨31, 0, .ro⟩], [0x0], false⟩,
  ⟨"HERD_STOP_j", 0x800118, 32, 0x40, 1, 0x0, [⟨63, 56, .ro⟩, ⟨47, 0, .ro⟩], [0x0], false⟩,
  ⟨"HERD_SHADOW_j", 0x800120, 32, 0x40, 1, 0x0, [⟨63, 32, .ro⟩, ⟨13, 13, .ro⟩, ⟨12, 12, .ro⟩, ⟨11, 0, .ro⟩], [0x0], false⟩,
  ⟨"HERD_COUNT_j", 0x800128, 32, 0x40, 1, 0x0, [⟨63, 48, .ro⟩, ⟨47, 24, .rws⟩, ⟨23, 0, .rws⟩], [0x0], false⟩]

/-- The YOKE block (R559). -/
def regsYOKE : List RegRow := [
  ⟨"YOKE_STATUS", 0x900000, 1, 0x0, 1, 0x0, [⟨59, 48, .ro⟩, ⟨15, 8, .ro⟩, ⟨2, 2, .ro⟩, ⟨1, 0, .ro⟩], [0x0], false⟩,
  ⟨"YOKE_PEER", 0x900008, 1, 0x0, 1, 0x0, [⟨63, 0, .ro⟩], [0x0], false⟩,
  ⟨"YOKE_INBOX", 0x900010, 1, 0x0, 1, 0x0, [⟨42, 0, .ro⟩], [0x2e05cf00000], false⟩]

/-- The DBG block (R559). -/
def regsDBG : List RegRow := [
  ⟨"DBG_STATUS", 0xf00000, 1, 0x0, 1, 0x0, [⟨63, 32, .rws⟩, ⟨15, 8, .ro⟩, ⟨1, 0, .ro⟩], [0x0], false⟩]

/-- The rows of the block whose window holds the address (R548). -/
def regBlock (a : Nat) : List RegRow :=
  match a / 0x10000 with
  | 0x0 => regsGEN
  | 0x1 => regsCELL
  | 0x2 => regsSEC
  | 0x3 => regsCLK
  | 0x4 => regsDAMP
  | 0x10 => regsTICK
  | 0x11 => regsSEQ
  | 0x20 => regsTILE
  | 0x21 => regsMIG
  | 0x30 => regsCHRN
  | 0x31 => regsROWE
  | 0x32 => regsSTRN
  | 0x33 => regsPAIL
  | 0x40 => regsFAB
  | 0x41 => regsSWX
  | 0x42 => regsSHP
  | 0x50 => regsCOH
  | 0x51 => regsSEGT
  | 0x52 => regsWIN
  | 0x53 => regsFLT
  | 0x60 => regsEXT
  | 0x70 => regsHOST
  | 0x80 => regsHERD
  | 0x90 => regsYOKE
  | 0xf0 => regsDBG
  | _ => []

namespace F
def GEN_ID_STEPPING : Fld := ⟨0x0, 31, 28⟩
def GEN_ID_PART : Fld := ⟨0x0, 27, 12⟩
def GEN_ID_MFR : Fld := ⟨0x0, 11, 1⟩
def GEN_ID_ONE : Fld := ⟨0x0, 0, 0⟩
def GEN_BEHAVIOUR_LEVEL_RUN : Fld := ⟨0x8, 47, 32⟩
def GEN_BEHAVIOUR_LEVEL_LOWEST : Fld := ⟨0x8, 31, 16⟩
def GEN_BEHAVIOUR_LEVEL_HIGHEST : Fld := ⟨0x8, 15, 0⟩
def GEN_CAPS_TENANTS : Fld := ⟨0x10, 57, 48⟩
def GEN_CAPS_JOBS : Fld := ⟨0x10, 47, 40⟩
def GEN_CAPS_PORTS : Fld := ⟨0x10, 39, 32⟩
def GEN_CAPS_CHURN : Fld := ⟨0x10, 31, 24⟩
def GEN_CAPS_ROW : Fld := ⟨0x10, 23, 16⟩
def GEN_CAPS_STRAINER : Fld := ⟨0x10, 15, 8⟩
def GEN_CAPS_LDS : Fld := ⟨0x10, 7, 0⟩
def GEN_MEM_USABLE_GIB : Fld := ⟨0x18, 47, 32⟩
def GEN_MEM_RESERVED_GIB : Fld := ⟨0x18, 31, 16⟩
def GEN_MEM_FAR : Fld := ⟨0x18, 15, 8⟩
def GEN_MEM_NEAR : Fld := ⟨0x18, 7, 0⟩
def GEN_BLOCKS_PRESENT : Fld := ⟨0x20, 24, 0⟩
def GEN_STATUS_RECOVERY : Fld := ⟨0x28, 4, 4⟩
def GEN_STATUS_DEBUG : Fld := ⟨0x28, 3, 3⟩
def GEN_STATUS_YOKED : Fld := ⟨0x28, 2, 2⟩
def GEN_STATUS_LOCKED : Fld := ⟨0x28, 1, 1⟩
def GEN_STATUS_RUN : Fld := ⟨0x28, 0, 0⟩
def GEN_SCRATCH_DATA (n : Nat) : Fld := ⟨0x100 + 0x8 * n, 63, 0⟩
def CELL_START_RUN_LEVEL : Fld := ⟨0x10000, 31, 16⟩
def CELL_START_REASON : Fld := ⟨0x10000, 15, 8⟩
def CELL_START_STAGE : Fld := ⟨0x10000, 3, 0⟩
def CELL_CFG_SEQ : Fld := ⟨0x10008, 63, 32⟩
def CELL_CFG_SKIPPED : Fld := ⟨0x10008, 31, 16⟩
def CELL_CFG_STORE_BUSY : Fld := ⟨0x10008, 4, 4⟩
def CELL_CFG_B_VALID : Fld := ⟨0x10008, 3, 3⟩
def CELL_CFG_A_VALID : Fld := ⟨0x10008, 2, 2⟩
def CELL_CFG_CURRENT : Fld := ⟨0x10008, 1, 1⟩
def CELL_CFG_NONE : Fld := ⟨0x10008, 0, 0⟩
def CELL_IMAGE_SVN : Fld := ⟨0x10010, 63, 32⟩
def CELL_IMAGE_KEY_ID : Fld := ⟨0x10010, 31, 24⟩
def CELL_IMAGE_LEVEL_MAX : Fld := ⟨0x10010, 15, 0⟩
def CELL_MONO_VALUE (n : Nat) : Fld := ⟨0x10100 + 0x8 * n, 31, 0⟩
def SEC_LOCK_LOCK : Fld := ⟨0x20000, 0, 0⟩
def SEC_SERIAL_SERIAL : Fld := ⟨0x20008, 63, 0⟩
def SEC_RNG_FAILS : Fld := ⟨0x20010, 63, 32⟩
def SEC_RNG_OK : Fld := ⟨0x20010, 0, 0⟩
def SEC_DEBUG_LEVEL : Fld := ⟨0x20018, 1, 0⟩
def SEC_DEBUG_NONCE_NONCE (w : Nat) : Fld := ⟨0x20020 + 0x8 * w, 63, 0⟩
def SEC_KEY_GEN_GEN (n : Nat) : Fld := ⟨0x21000 + 0x8 * n, 31, 0⟩
def CLK_CAPS_RES_MHZ : Fld := ⟨0x30000, 15, 8⟩
def CLK_CAPS_DOMAINS : Fld := ⟨0x30000, 7, 0⟩
def CLK_LOCK_LOCKED : Fld := ⟨0x30008, 17, 0⟩
def CLK_RESET_CAUSE_TRIP : Fld := ⟨0x30010, 7, 7⟩
def CLK_RESET_CAUSE_OV : Fld := ⟨0x30010, 6, 6⟩
def CLK_RESET_CAUSE_UV : Fld := ⟨0x30010, 5, 5⟩
def CLK_RESET_CAUSE_WATCHDOG : Fld := ⟨0x30010, 4, 4⟩
def CLK_RESET_CAUSE_WARM_REG : Fld := ⟨0x30010, 3, 3⟩
def CLK_RESET_CAUSE_WARM_PIN : Fld := ⟨0x30010, 2, 2⟩
def CLK_RESET_CAUSE_COLD : Fld := ⟨0x30010, 1, 1⟩
def CLK_RESET_CAUSE_AUX_POR : Fld := ⟨0x30010, 0, 0⟩
def CLK_RESET_WARM : Fld := ⟨0x30018, 0, 0⟩
def CLK_TBS_TRIM_TRIM : Fld := ⟨0x30020, 31, 0⟩
def YOKE_STATUS_PAIR_ID : Fld := ⟨0x900000, 59, 48⟩
def YOKE_STATUS_REASON : Fld := ⟨0x900000, 15, 8⟩
def YOKE_STATUS_UPPER : Fld := ⟨0x900000, 2, 2⟩
def YOKE_STATUS_STATE : Fld := ⟨0x900000, 1, 0⟩
def YOKE_PEER_SERIAL : Fld := ⟨0x900008, 63, 0⟩
def YOKE_INBOX_BASE : Fld := ⟨0x900010, 42, 0⟩
def DBG_STATUS_FAILS : Fld := ⟨0xf00000, 63, 32⟩
def DBG_STATUS_LAST : Fld := ⟨0xf00000, 15, 8⟩
def DBG_STATUS_LEVEL : Fld := ⟨0xf00000, 1, 0⟩
def DAMP_CAPS_SENSORS : Fld := ⟨0x40000, 31, 24⟩
def DAMP_CAPS_PHASES_LOG2 : Fld := ⟨0x40000, 23, 16⟩
def DAMP_CAPS_DUTY_LEVELS : Fld := ⟨0x40000, 15, 8⟩
def DAMP_CAPS_REASONS : Fld := ⟨0x40000, 7, 0⟩
def DAMP_CAP_MARGIN : Fld := ⟨0x40008, 63, 56⟩
def DAMP_CAP_FAST : Fld := ⟨0x40008, 47, 32⟩
def DAMP_CAP_WINDOW : Fld := ⟨0x40008, 23, 16⟩
def DAMP_CAP_CAP : Fld := ⟨0x40008, 15, 0⟩
def DAMP_CTL_ALERT_HOLD : Fld := ⟨0x40010, 63, 48⟩
def DAMP_CTL_STRETCH_EN : Fld := ⟨0x40010, 32, 32⟩
def DAMP_CTL_THERM_STEP : Fld := ⟨0x40010, 19, 16⟩
def DAMP_CTL_RELAX : Fld := ⟨0x40010, 15, 0⟩
def DAMP_ENERGY_ENERGY : Fld := ⟨0x40018, 63, 0⟩
def DAMP_RAIL_ENERGY_ENERGY (r : Nat) : Fld := ⟨0x40020 + 0x8 * r, 63, 0⟩
def DAMP_POWER_MEAN : Fld := ⟨0x40040, 63, 32⟩
def DAMP_POWER_FAST : Fld := ⟨0x40040, 31, 0⟩
def DAMP_STATE_S_THERM : Fld := ⟨0x40048, 30, 24⟩
def DAMP_STATE_S_CAP : Fld := ⟨0x40048, 22, 16⟩
def DAMP_STATE_WANT : Fld := ⟨0x40048, 14, 8⟩
def DAMP_STATE_FORCED : Fld := ⟨0x40048, 7, 7⟩
def DAMP_STATE_EMERG : Fld := ⟨0x40048, 6, 4⟩
def DAMP_STATE_BE : Fld := ⟨0x40048, 2, 0⟩
def DAMP_REASON_NOW : Fld := ⟨0x40050, 9, 0⟩
def DAMP_REASON_SEEN_SEEN : Fld := ⟨0x40058, 9, 0⟩
def DAMP_TRIP_TRIPPED : Fld := ⟨0x40060, 63, 63⟩
def DAMP_TRIP_SENSOR : Fld := ⟨0x40060, 53, 48⟩
def DAMP_TRIP_TICK : Fld := ⟨0x40060, 47, 0⟩
def DAMP_PHASE_SEL_INDEX : Fld := ⟨0x40068, 9, 0⟩
def DAMP_PHASE_VALID : Fld := ⟨0x40070, 63, 63⟩
def DAMP_PHASE_JOB : Fld := ⟨0x40070, 57, 53⟩
def DAMP_PHASE_CLASS : Fld := ⟨0x40070, 52, 50⟩
def DAMP_PHASE_PHASE : Fld := ⟨0x40070, 47, 32⟩
def DAMP_PHASE_ENERGY : Fld := ⟨0x40070, 31, 0⟩
def DAMP_DUR_US (b : Nat) : Fld := ⟨0x40100 + 0x8 * b, 63, 0⟩
def DAMP_TEMP_FAIL (i : Nat) : Fld := ⟨0x40200 + 0x8 * i, 16, 16⟩
def DAMP_TEMP_TEMP (i : Nat) : Fld := ⟨0x40200 + 0x8 * i, 15, 0⟩
def DAMP_THERM_TRIP (c : Nat) : Fld := ⟨0x40400 + 0x8 * c, 23, 16⟩
def DAMP_THERM_THROTTLE (c : Nat) : Fld := ⟨0x40400 + 0x8 * c, 15, 8⟩
def DAMP_THERM_WARN (c : Nat) : Fld := ⟨0x40400 + 0x8 * c, 7, 0⟩
def TICK_PERIOD_BASE : Fld := ⟨0x100000, 18, 0⟩
def TICK_GUARD_GUARD : Fld := ⟨0x100008, 11, 0⟩
def TICK_NOW_TICK : Fld := ⟨0x100010, 47, 0⟩
def TICK_TIME_TIME : Fld := ⟨0x100018, 63, 0⟩
def TICK_STRETCH_PEND_AT : Fld := ⟨0x100020, 63, 16⟩
def TICK_STRETCH_PEND_VALID : Fld := ⟨0x100020, 15, 15⟩
def TICK_STRETCH_PEND : Fld := ⟨0x100020, 14, 8⟩
def TICK_STRETCH_CUR : Fld := ⟨0x100020, 6, 0⟩
def TICK_TREE_DOMAIN : Fld := ⟨0x100028, 63, 48⟩
def TICK_TREE_ROOT : Fld := ⟨0x100028, 43, 32⟩
def TICK_TREE_DEPTH : Fld := ⟨0x100028, 11, 8⟩
def TICK_TREE_PARENT : Fld := ⟨0x100028, 4, 0⟩
def TICK_CHILDREN_MASK : Fld := ⟨0x100030, 25, 0⟩
def TICK_STATUS_FOREIGN : Fld := ⟨0x100038, 63, 32⟩
def TICK_STATUS_CFG_ERR : Fld := ⟨0x100038, 5, 5⟩
def TICK_STATUS_LOST : Fld := ⟨0x100038, 4, 4⟩
def TICK_STATUS_ALIGN_LOST : Fld := ⟨0x100038, 3, 3⟩
def TICK_STATUS_ALIGN_WARN : Fld := ⟨0x100038, 2, 2⟩
def TICK_STATUS_HOLDOVER : Fld := ⟨0x100038, 1, 1⟩
def TICK_STATUS_ALIGNED : Fld := ⟨0x100038, 0, 0⟩
def TICK_OFFSET_OFFSET : Fld := ⟨0x100040, 31, 0⟩
def TICK_PORT_DELAY_DELAY (n : Nat) : Fld := ⟨0x100100 + 0x8 * n, 31, 0⟩
def TICK_PORT_ASYM_ASYM (n : Nat) : Fld := ⟨0x100200 + 0x8 * n, 15, 0⟩
def SEQ_JOB_STATE_PHASE (j : Nat) : Fld := ⟨0x110000 + 0x8 * j, 63, 48⟩
def SEQ_JOB_STATE_TENANT (j : Nat) : Fld := ⟨0x110000 + 0x8 * j, 40, 32⟩
def SEQ_JOB_STATE_STATE (j : Nat) : Fld := ⟨0x110000 + 0x8 * j, 2, 0⟩
def SEQ_JOB_START_START (j : Nat) : Fld := ⟨0x110100 + 0x8 * j, 47, 0⟩
def SEQ_JOB_STEP_JOB_TICK (j : Nat) : Fld := ⟨0x110200 + 0x8 * j, 63, 32⟩
def SEQ_JOB_STEP_STEP (j : Nat) : Fld := ⟨0x110200 + 0x8 * j, 31, 0⟩
def SEQ_OVERRUN_COUNT_COUNT : Fld := ⟨0x110300, 63, 0⟩
def TILE_CAPS_TILES : Fld := ⟨0x200000, 57, 32⟩
def TILE_CAPS_ENTRY_BYTES : Fld := ⟨0x200000, 15, 8⟩
def TILE_CAPS_TILE_LOG2 : Fld := ⟨0x200000, 7, 0⟩
def TILE_MAP_BASE_BASE : Fld := ⟨0x200008, 42, 0⟩
def TILE_FREE_SLOTS_FAR : Fld := ⟨0x200010, 63, 32⟩
def TILE_FREE_SLOTS_NEAR : Fld := ⟨0x200010, 31, 0⟩
def TILE_USED_OPEN : Fld := ⟨0x200018, 57, 32⟩
def TILE_USED_ALLOCATED : Fld := ⟨0x200018, 25, 0⟩
def TILE_CRC_COUNT_RETIRED : Fld := ⟨0x200020, 63, 32⟩
def TILE_CRC_COUNT_CURED : Fld := ⟨0x200020, 31, 0⟩
def TILE_NO_SLOT_COUNT_COUNT : Fld := ⟨0x200028, 63, 0⟩
def TILE_SCRUB_CTL_EN : Fld := ⟨0x200030, 8, 8⟩
def TILE_SCRUB_CTL_PERIOD : Fld := ⟨0x200030, 7, 0⟩
def TILE_SCRUB_STATUS_PASSES : Fld := ⟨0x200038, 63, 32⟩
def TILE_SCRUB_STATUS_NEXT : Fld := ⟨0x200038, 25, 0⟩
def TILE_BAD_SLOTS_FAR : Fld := ⟨0x200040, 63, 32⟩
def TILE_BAD_SLOTS_NEAR : Fld := ⟨0x200040, 31, 0⟩
def MIG_CAPS_CUT_MAX : Fld := ⟨0x210000, 31, 16⟩
def MIG_CAPS_COPIES : Fld := ⟨0x210000, 15, 8⟩
def MIG_CAPS_SUB_LOG2 : Fld := ⟨0x210000, 7, 0⟩
def MIG_CTL_DEMAND_EN : Fld := ⟨0x210008, 16, 16⟩
def MIG_CTL_MAX_PASSES : Fld := ⟨0x210008, 11, 8⟩
def MIG_CTL_CUT_DIRTY : Fld := ⟨0x210008, 7, 0⟩
def MIG_DEMAND_DECAY : Fld := ⟨0x210010, 63, 32⟩
def MIG_DEMAND_THRESH : Fld := ⟨0x210010, 7, 0⟩
def MIG_PIN_COUNT : Fld := ⟨0x210018, 63, 32⟩
def MIG_PIN_MAX : Fld := ⟨0x210018, 31, 0⟩
def MIG_ROOM_HELD : Fld := ⟨0x210020, 63, 32⟩
def MIG_ROOM_UNSCHED : Fld := ⟨0x210020, 31, 0⟩
def MIG_STATS_DONE_COUNT : Fld := ⟨0x210028, 63, 0⟩
def MIG_STATS_ABANDON_COUNT : Fld := ⟨0x210030, 63, 0⟩
def MIG_STATS_CUT_CUT_LONGEST : Fld := ⟨0x210038, 15, 0⟩
def MIG_LOCKS_REFUSED : Fld := ⟨0x210040, 63, 32⟩
def MIG_LOCKS_IN_USE : Fld := ⟨0x210040, 8, 0⟩
def MIG_JOB_ROOM_ROOM (j : Nat) : Fld := ⟨0x210100 + 0x8 * j, 63, 32⟩
def MIG_JOB_ROOM_CHARGED (j : Nat) : Fld := ⟨0x210100 + 0x8 * j, 31, 0⟩
def MIG_SLOW_COUNT_COUNT (n : Nat) : Fld := ⟨0x211000 + 0x8 * n, 63, 0⟩
def CHRN_CAPS_PAGES : Fld := ⟨0x300000, 31, 24⟩
def CHRN_CAPS_PAGE_LOG2 : Fld := ⟨0x300000, 23, 16⟩
def CHRN_CAPS_ENGINES : Fld := ⟨0x300000, 15, 8⟩
def CHRN_CAPS_LANES_LOG2 : Fld := ⟨0x300000, 7, 0⟩
def CHRN_POST_CTL_EN : Fld := ⟨0x300008, 32, 32⟩
def CHRN_POST_CTL_CUTOFF : Fld := ⟨0x300008, 31, 16⟩
def CHRN_POST_CTL_PAGES : Fld := ⟨0x300008, 5, 0⟩
def CHRN_CKPT_CTL_TIMEOUT : Fld := ⟨0x300010, 7, 0⟩
def CHRN_STRAY_COUNT : Fld := ⟨0x300018, 63, 0⟩
def CHRN_POST_DROP_COUNT : Fld := ⟨0x300020, 63, 0⟩
def CHRN_CKPT_FAIL_COUNT : Fld := ⟨0x300028, 63, 0⟩
def CHRN_SAT_COUNT_CLAMPED (e : Nat) : Fld := ⟨0x300100 + 0x8 * e, 63, 32⟩
def CHRN_SAT_COUNT_SATURATED (e : Nat) : Fld := ⟨0x300100 + 0x8 * e, 31, 0⟩
def CHRN_FIT_WAIT_COUNT (e : Nat) : Fld := ⟨0x300180 + 0x8 * e, 63, 0⟩
def CHRN_ENG_RID (e : Nat) : Fld := ⟨0x300200 + 0x8 * e, 63, 48⟩
def CHRN_ENG_KIND (e : Nat) : Fld := ⟨0x300200 + 0x8 * e, 47, 40⟩
def CHRN_ENG_BUSY (e : Nat) : Fld := ⟨0x300200 + 0x8 * e, 8, 8⟩
def CHRN_ENG_JOB (e : Nat) : Fld := ⟨0x300200 + 0x8 * e, 4, 0⟩
def PAIL_CONFLICT_COUNT (p : Nat) (m : Nat) : Fld := ⟨0x330000 + 0x40 * p + 0x8 * m, 63, 0⟩
def ROWE_CAPS_HANDLES : Fld := ⟨0x310000, 31, 16⟩
def ROWE_CAPS_RLEN_MAX : Fld := ⟨0x310000, 15, 12⟩
def ROWE_CAPS_RLEN_MIN : Fld := ⟨0x310000, 11, 8⟩
def ROWE_CAPS_ENGINES : Fld := ⟨0x310000, 7, 0⟩
def ROWE_PRIV_MASK (w : Nat) : Fld := ⟨0x310040 + 0x8 * w, 63, 0⟩
def ROWE_ENG_VT (e : Nat) : Fld := ⟨0x310100 + 0x8 * e, 63, 48⟩
def ROWE_ENG_KIND (e : Nat) : Fld := ⟨0x310100 + 0x8 * e, 47, 40⟩
def ROWE_ENG_BUSY (e : Nat) : Fld := ⟨0x310100 + 0x8 * e, 8, 8⟩
def ROWE_ENG_JOB (e : Nat) : Fld := ⟨0x310100 + 0x8 * e, 4, 0⟩
def ROWE_DEFAULT_COUNT (e : Nat) : Fld := ⟨0x310140 + 0x8 * e, 63, 0⟩
def ROWE_LOOKUPS_COUNT (e : Nat) : Fld := ⟨0x310180 + 0x8 * e, 63, 0⟩
def ROWE_UPDATES_COUNT (e : Nat) : Fld := ⟨0x3101c0 + 0x8 * e, 63, 0⟩
def ROWE_SAT_COUNT_CLAMPED (e : Nat) : Fld := ⟨0x310200 + 0x8 * e, 63, 32⟩
def ROWE_SAT_COUNT_SATURATED (e : Nat) : Fld := ⟨0x310200 + 0x8 * e, 31, 0⟩
def ROWE_VT_STATE_OPEN (h : Nat) : Fld := ⟨0x311000 + 0x20 * h, 63, 63⟩
def ROWE_VT_STATE_PEND (h : Nat) : Fld := ⟨0x311000 + 0x20 * h, 62, 62⟩
def ROWE_VT_STATE_DRAINING (h : Nat) : Fld := ⟨0x311000 + 0x20 * h, 61, 61⟩
def ROWE_VT_STATE_TENANT (h : Nat) : Fld := ⟨0x311000 + 0x20 * h, 40, 32⟩
def ROWE_VT_STATE_VERSION (h : Nat) : Fld := ⟨0x311000 + 0x20 * h, 31, 0⟩
def ROWE_VT_CUR_BASE (h : Nat) : Fld := ⟨0x311008 + 0x20 * h, 51, 0⟩
def ROWE_VT_NEXT_BASE (h : Nat) : Fld := ⟨0x311010 + 0x20 * h, 51, 0⟩
def ROWE_VT_BOUND_OLD (h : Nat) : Fld := ⟨0x311018 + 0x20 * h, 63, 32⟩
def ROWE_VT_BOUND_CUR (h : Nat) : Fld := ⟨0x311018 + 0x20 * h, 31, 0⟩
def STRN_CAPS_HANDLES : Fld := ⟨0x320000, 31, 24⟩
def STRN_CAPS_BATCH : Fld := ⟨0x320000, 23, 16⟩
def STRN_CAPS_COMPARATORS : Fld := ⟨0x320000, 15, 8⟩
def STRN_CAPS_ENGINES : Fld := ⟨0x320000, 7, 0⟩
def STRN_CTL_DEAD_WARN : Fld := ⟨0x320008, 10, 0⟩
def STRN_RETAINED_SLOTS : Fld := ⟨0x320010, 31, 0⟩
def STRN_DEL_NOP_COUNT : Fld := ⟨0x320018, 63, 0⟩
def STRN_ENG_KIND (e : Nat) : Fld := ⟨0x320100 + 0x8 * e, 47, 40⟩
def STRN_ENG_HANDLE (e : Nat) : Fld := ⟨0x320100 + 0x8 * e, 21, 16⟩
def STRN_ENG_BUSY (e : Nat) : Fld := ⟨0x320100 + 0x8 * e, 8, 8⟩
def STRN_ENG_JOB (e : Nat) : Fld := ⟨0x320100 + 0x8 * e, 4, 0⟩
def STRN_COMPARES_COUNT (e : Nat) : Fld := ⟨0x320140 + 0x8 * e, 63, 0⟩
def STRN_RERANK_COUNT (e : Nat) : Fld := ⟨0x320180 + 0x8 * e, 63, 0⟩
def STRN_TOMB_SKIP_COUNT (e : Nat) : Fld := ⟨0x3201c0 + 0x8 * e, 63, 0⟩
def STRN_COLL_STATE_OPEN (h : Nat) : Fld := ⟨0x321000 + 0x10 * h, 63, 63⟩
def STRN_COLL_STATE_PEND (h : Nat) : Fld := ⟨0x321000 + 0x10 * h, 62, 62⟩
def STRN_COLL_STATE_TENANT (h : Nat) : Fld := ⟨0x321000 + 0x10 * h, 40, 32⟩
def STRN_COLL_STATE_BOUND (h : Nat) : Fld := ⟨0x321000 + 0x10 * h, 31, 0⟩
def STRN_COLL_REC_VA (h : Nat) : Fld := ⟨0x321008 + 0x10 * h, 51, 0⟩
def FAB_CAPS_REPLAY : Fld := ⟨0x400000, 31, 16⟩
def FAB_CAPS_LANES : Fld := ⟨0x400000, 15, 8⟩
def FAB_CAPS_PORTS : Fld := ⟨0x400000, 7, 0⟩
def FAB_NODE_UPPER : Fld := ⟨0x400008, 13, 13⟩
def FAB_NODE_YOKED : Fld := ⟨0x400008, 12, 12⟩
def FAB_NODE_HUB_ID : Fld := ⟨0x400008, 11, 0⟩
def FAB_CRED_INIT_VN3 : Fld := ⟨0x400010, 63, 48⟩
def FAB_CRED_INIT_VN2 : Fld := ⟨0x400010, 47, 32⟩
def FAB_CRED_INIT_VN1 : Fld := ⟨0x400010, 31, 16⟩
def FAB_CRED_INIT_VN0 : Fld := ⟨0x400010, 15, 0⟩
def FAB_REQ_TIMEOUT_US : Fld := ⟨0x400018, 31, 0⟩
def FAB_LINK_CTL_NAK_LIMIT : Fld := ⟨0x400020, 15, 8⟩
def FAB_LINK_CTL_HOLD : Fld := ⟨0x400020, 7, 0⟩
def FAB_TIMEOUT_COUNT_LATE : Fld := ⟨0x400028, 63, 32⟩
def FAB_TIMEOUT_COUNT_TIMEOUTS : Fld := ⟨0x400028, 31, 0⟩
def FAB_PORT_CTL_PEER (n : Nat) : Fld := ⟨0x400100 + 0x8 * n, 2, 1⟩
def FAB_PORT_CTL_EN (n : Nat) : Fld := ⟨0x400100 + 0x8 * n, 0, 0⟩
def FAB_PORT_STATUS_LANES_OK (n : Nat) : Fld := ⟨0x400200 + 0x8 * n, 31, 24⟩
def FAB_PORT_STATUS_PEER_PORT (n : Nat) : Fld := ⟨0x400200 + 0x8 * n, 23, 16⟩
def FAB_PORT_STATUS_PEER_NODE (n : Nat) : Fld := ⟨0x400200 + 0x8 * n, 15, 4⟩
def FAB_PORT_STATUS_PEER_AGENT (n : Nat) : Fld := ⟨0x400200 + 0x8 * n, 3, 3⟩
def FAB_PORT_STATUS_STATE (n : Nat) : Fld := ⟨0x400200 + 0x8 * n, 2, 0⟩
def FAB_PORT_ERR_CRC_ERR (n : Nat) : Fld := ⟨0x400300 + 0x8 * n, 63, 32⟩
def FAB_PORT_ERR_REPLAYS (n : Nat) : Fld := ⟨0x400300 + 0x8 * n, 31, 0⟩
def FAB_PORT_FEC_CORRECTED (n : Nat) : Fld := ⟨0x400400 + 0x8 * n, 63, 0⟩
def FAB_PORT_DISCARD_COUNT (n : Nat) : Fld := ⟨0x400500 + 0x8 * n, 63, 0⟩
def SWX_CAPS_ENTRIES : Fld := ⟨0x410000, 50, 32⟩
def SWX_CAPS_PLANES : Fld := ⟨0x410000, 31, 24⟩
def SWX_CAPS_INT_PORTS : Fld := ⟨0x410000, 23, 16⟩
def SWX_CAPS_EXT_PORTS : Fld := ⟨0x410000, 15, 8⟩
def SWX_CAPS_CELL_CYCLES : Fld := ⟨0x410000, 7, 0⟩
def SWX_HASH_SALT : Fld := ⟨0x410008, 31, 0⟩
def SWX_BUF_FREE : Fld := ⟨0x410010, 63, 32⟩
def SWX_BUF_INT_RES : Fld := ⟨0x410010, 12, 0⟩
def SWX_STATUS_CFG_ERR : Fld := ⟨0x410018, 0, 0⟩
def SWX_NO_ROUTE_COUNT : Fld := ⟨0x410020, 63, 0⟩
def SWX_SKIM_CTL_ATOMIC_EN : Fld := ⟨0x410028, 9, 9⟩
def SWX_SKIM_CTL_READ_EN : Fld := ⟨0x410028, 8, 8⟩
def SWX_SKIM_CTL_MAX_RIDERS : Fld := ⟨0x410028, 4, 0⟩
def SWX_SKIM_COUNT_ATOMICS : Fld := ⟨0x410030, 63, 32⟩
def SWX_SKIM_COUNT_READS : Fld := ⟨0x410030, 31, 0⟩
def SWX_MCAST_BASE : Fld := ⟨0x410038, 42, 0⟩
def SWX_MCAST_DROP_COUNT : Fld := ⟨0x410040, 63, 0⟩
def SWX_AVG_W : Fld := ⟨0x410048, 3, 0⟩
def SWX_PROF_ACTION (v : Nat) (c : Nat) : Fld := ⟨0x410100 + 0x20 * v + 0x8 * c, 57, 56⟩
def SWX_PROF_MAX_P (v : Nat) (c : Nat) : Fld := ⟨0x410100 + 0x20 * v + 0x8 * c, 48, 40⟩
def SWX_PROF_MAX_TH (v : Nat) (c : Nat) : Fld := ⟨0x410100 + 0x20 * v + 0x8 * c, 39, 20⟩
def SWX_PROF_MIN_TH (v : Nat) (c : Nat) : Fld := ⟨0x410100 + 0x20 * v + 0x8 * c, 19, 0⟩
def SWX_PORT_CM_MARKED (q : Nat) : Fld := ⟨0x410200 + 0x8 * q, 63, 32⟩
def SWX_PORT_CM_DROPPED (q : Nat) : Fld := ⟨0x410200 + 0x8 * q, 31, 0⟩
def SWX_ROUTE_PORTS (d : Nat) : Fld := ⟨0x418000 + 0x8 * d, 25, 0⟩
def SHP_CAPS_GATES : Fld := ⟨0x420000, 39, 32⟩
def SHP_CAPS_WINDOWS : Fld := ⟨0x420000, 31, 24⟩
def SHP_CAPS_SHAPERS : Fld := ⟨0x420000, 23, 16⟩
def SHP_CAPS_METERS : Fld := ⟨0x420000, 15, 0⟩
def SHP_ARB_BE_CRED : Fld := ⟨0x420008, 42, 32⟩
def SHP_ARB_Q2 : Fld := ⟨0x420008, 15, 8⟩
def SHP_ARB_Q1 : Fld := ⟨0x420008, 7, 0⟩
def SHP_STATUS_CFG_ERR : Fld := ⟨0x420010, 0, 0⟩
def SHP_SAMP_CTL_WARN : Fld := ⟨0x420018, 63, 32⟩
def SHP_SAMP_CTL_PERIOD : Fld := ⟨0x420018, 15, 0⟩
def SHP_RECOLOUR_UNMETERED : Fld := ⟨0x420020, 63, 32⟩
def SHP_RECOLOUR_METERED : Fld := ⟨0x420020, 31, 0⟩
def SHP_GATE_LATE_COUNT : Fld := ⟨0x420028, 63, 0⟩
def SHP_TAG_BASE_BASE : Fld := ⟨0x420030, 42, 0⟩
def SHP_PORT_LEN_MODE (q : Nat) : Fld := ⟨0x420100 + 0x8 * q, 8, 8⟩
def SHP_PORT_LEN_OVH (q : Nat) : Fld := ⟨0x420100 + 0x8 * q, 7, 0⟩
def SHP_TENANT_WEIGHT (n : Nat) : Fld := ⟨0x421000 + 0x8 * n, 7, 0⟩
def SHP_SHP_CFG_EN (q : Nat) (k : Nat) : Fld := ⟨0x424000 + 0x200 * q + 0x20 * k, 61, 61⟩
def SHP_SHP_CFG_RST (q : Nat) (k : Nat) : Fld := ⟨0x424000 + 0x200 * q + 0x20 * k, 60, 60⟩
def SHP_SHP_CFG_GATE (q : Nat) (k : Nat) : Fld := ⟨0x424000 + 0x200 * q + 0x20 * k, 59, 56⟩
def SHP_SHP_CFG_BURST (q : Nat) (k : Nat) : Fld := ⟨0x424000 + 0x200 * q + 0x20 * k, 55, 32⟩
def SHP_SHP_CFG_RATE (q : Nat) (k : Nat) : Fld := ⟨0x424000 + 0x200 * q + 0x20 * k, 10, 0⟩
def SHP_SHP_MATCH_TAG (q : Nat) (k : Nat) : Fld := ⟨0x424008 + 0x200 * q + 0x20 * k, 31, 16⟩
def SHP_SHP_MATCH_ANY_TAG (q : Nat) (k : Nat) : Fld := ⟨0x424008 + 0x200 * q + 0x20 * k, 15, 15⟩
def SHP_SHP_MATCH_COLOURS (q : Nat) (k : Nat) : Fld := ⟨0x424008 + 0x200 * q + 0x20 * k, 5, 3⟩
def SHP_SHP_MATCH_VNS (q : Nat) (k : Nat) : Fld := ⟨0x424008 + 0x200 * q + 0x20 * k, 2, 0⟩
def SHP_SHP_TOK_TOKENS (q : Nat) (k : Nat) : Fld := ⟨0x424010 + 0x200 * q + 0x20 * k, 39, 0⟩
def SHP_GATE_EN (q : Nat) (g : Nat) (w : Nat) : Fld := ⟨0x428000 + 0x100 * q + 0x20 * g + 0x8 * w, 27, 27⟩
def SHP_GATE_END (q : Nat) (g : Nat) (w : Nat) : Fld := ⟨0x428000 + 0x100 * q + 0x20 * g + 0x8 * w, 26, 16⟩
def SHP_GATE_START (q : Nat) (g : Nat) (w : Nat) : Fld := ⟨0x428000 + 0x100 * q + 0x20 * g + 0x8 * w, 9, 0⟩
def SHP_METER_CFG_EN (m : Nat) : Fld := ⟨0x42a000 + 0x10 * m, 29, 29⟩
def SHP_METER_CFG_RST (m : Nat) : Fld := ⟨0x42a000 + 0x10 * m, 28, 28⟩
def SHP_METER_CFG_PORT (m : Nat) : Fld := ⟨0x42a000 + 0x10 * m, 20, 16⟩
def SHP_METER_CFG_TAG (m : Nat) : Fld := ⟨0x42a000 + 0x10 * m, 15, 0⟩
def SHP_METER_RATE_BURST (m : Nat) : Fld := ⟨0x42a008 + 0x10 * m, 55, 32⟩
def SHP_METER_RATE_RATE (m : Nat) : Fld := ⟨0x42a008 + 0x10 * m, 10, 0⟩
def SHP_SAMP_DEPTH_MAX (q : Nat) (v : Nat) : Fld := ⟨0x42e000 + 0x40 * q + 0x10 * v, 63, 32⟩
def SHP_SAMP_DEPTH_LAST (q : Nat) (v : Nat) : Fld := ⟨0x42e000 + 0x40 * q + 0x10 * v, 31, 0⟩
def SHP_SAMP_DELAY_MAX (q : Nat) (v : Nat) : Fld := ⟨0x42e008 + 0x40 * q + 0x10 * v, 63, 32⟩
def SHP_SAMP_DELAY_MEAN (q : Nat) (v : Nat) : Fld := ⟨0x42e008 + 0x40 * q + 0x10 * v, 31, 0⟩
def COH_CAPS_SETS_LOG2 : Fld := ⟨0x500000, 39, 32⟩
def COH_CAPS_WAYS : Fld := ⟨0x500000, 31, 24⟩
def COH_CAPS_AGENTS : Fld := ⟨0x500000, 23, 16⟩
def COH_CAPS_WINDOWS : Fld := ⟨0x500000, 15, 8⟩
def COH_CAPS_LINE_LOG2 : Fld := ⟨0x500000, 7, 0⟩
def COH_CTL_SNP_WARN : Fld := ⟨0x500008, 63, 32⟩
def COH_CTL_HOLD : Fld := ⟨0x500008, 11, 0⟩
def COH_PRED_DECAY : Fld := ⟨0x500010, 63, 32⟩
def COH_PRED_THRESH : Fld := ⟨0x500010, 1, 0⟩
def COH_STATUS_CLEANUP : Fld := ⟨0x500018, 1, 1⟩
def COH_STATUS_CFG_ERR : Fld := ⟨0x500018, 0, 0⟩
def COH_LOST_AGENTS_MASK : Fld := ⟨0x500020, 63, 0⟩
def COH_SNOOPS_COUNT : Fld := ⟨0x500028, 63, 0⟩
def COH_EVICTIONS_COUNT : Fld := ⟨0x500030, 63, 0⟩
def COH_LOST_LINES_COUNT : Fld := ⟨0x500038, 63, 0⟩
def COH_LOST_BASE_BASE : Fld := ⟨0x500040, 42, 0⟩
def COH_AGENT_LD_VALID (i : Nat) : Fld := ⟨0x500100 + 0x8 * i, 5, 5⟩
def COH_AGENT_LD_LINK (i : Nat) : Fld := ⟨0x500100 + 0x8 * i, 4, 4⟩
def COH_AGENT_LD_LD (i : Nat) : Fld := ⟨0x500100 + 0x8 * i, 3, 0⟩
def COH_WIN_BASE_EN (n : Nat) : Fld := ⟨0x501000 + 0x20 * n, 63, 63⟩
def COH_WIN_BASE_TENANT (n : Nat) : Fld := ⟨0x501000 + 0x20 * n, 56, 48⟩
def COH_WIN_BASE_BASE (n : Nat) : Fld := ⟨0x501000 + 0x20 * n, 25, 0⟩
def COH_WIN_END_END (n : Nat) : Fld := ⟨0x501008 + 0x20 * n, 25, 0⟩
def COH_WIN_VA_VA (n : Nat) : Fld := ⟨0x501010 + 0x20 * n, 51, 16⟩
def COH_WIN_AGENTS_MASK (n : Nat) : Fld := ⟨0x501018 + 0x20 * n, 63, 0⟩
def COH_LOST_OVERFLOW (n : Nat) : Fld := ⟨0x502000 + 0x8 * n, 63, 32⟩
def COH_LOST_COUNT (n : Nat) : Fld := ⟨0x502000 + 0x8 * n, 8, 0⟩
def SEGT_CAPS_ENTRIES : Fld := ⟨0x510000, 15, 0⟩
def WIN_CAPS_ENTRIES : Fld := ⟨0x520000, 15, 0⟩
def SEGT_SEL_INDEX : Fld := ⟨0x510008, 11, 0⟩
def WIN_SEL_INDEX : Fld := ⟨0x520008, 11, 0⟩
def SEGT_WORD0_WORD : Fld := ⟨0x510010, 63, 0⟩
def SEGT_WORD1_WORD : Fld := ⟨0x510018, 63, 0⟩
def SEGT_WORD2_WORD : Fld := ⟨0x510020, 63, 0⟩
def WIN_WORD0_WORD : Fld := ⟨0x520010, 63, 0⟩
def WIN_WORD1_WORD : Fld := ⟨0x520018, 63, 0⟩
def WIN_WORD2_WORD : Fld := ⟨0x520020, 63, 0⟩
def SEGT_OP_RESULT : Fld := ⟨0x510028, 15, 8⟩
def SEGT_OP_OP : Fld := ⟨0x510028, 1, 0⟩
def WIN_OP_RESULT : Fld := ⟨0x520028, 15, 8⟩
def WIN_OP_OP : Fld := ⟨0x520028, 1, 0⟩
def WIN_REFUSED_COUNT : Fld := ⟨0x520030, 63, 0⟩
def FLT_CAPS_REQS : Fld := ⟨0x530000, 23, 16⟩
def FLT_CAPS_ENTRIES : Fld := ⟨0x530000, 15, 0⟩
def FLT_CTL_TENANT_MAX : Fld := ⟨0x530008, 10, 0⟩
def FLT_STATUS_HEAD_SEQ : Fld := ⟨0x530010, 63, 32⟩
def FLT_STATUS_PENDING : Fld := ⟨0x530010, 10, 0⟩
def FLT_POP_SEQ : Fld := ⟨0x530018, 31, 0⟩
def FLT_OVF_CLR_TENANT : Fld := ⟨0x530020, 8, 0⟩
def FLT_TOTAL_COUNT : Fld := ⟨0x530028, 63, 0⟩
def FLT_POP_DATA_WORD (w : Nat) : Fld := ⟨0x530100 + 0x8 * w, 63, 0⟩
def FLT_OVF_COUNT_COUNT (n : Nat) : Fld := ⟨0x531000 + 0x8 * n, 63, 0⟩
def FLT_OVF_FIRST_VA (n : Nat) : Fld := ⟨0x532000 + 0x8 * n, 51, 0⟩
def FLT_OVF_LAST_VA (n : Nat) : Fld := ⟨0x533000 + 0x8 * n, 51, 0⟩
def FLT_PENDING_COUNT (n : Nat) : Fld := ⟨0x534000 + 0x8 * n, 10, 0⟩
def EXT_CAPS_HO_BOUND : Fld := ⟨0x600000, 47, 32⟩
def EXT_CAPS_COMP : Fld := ⟨0x600000, 31, 15⟩
def EXT_CAPS_EXTENTS : Fld := ⟨0x600000, 14, 0⟩
def EXT_CTL_OFFER : Fld := ⟨0x600008, 47, 32⟩
def EXT_CTL_PERIOD : Fld := ⟨0x600008, 31, 0⟩
def EXT_COMP_CTL_LEAD : Fld := ⟨0x600010, 31, 16⟩
def EXT_COMP_CTL_QUERY : Fld := ⟨0x600010, 15, 0⟩
def EXT_EXT_BASE_BASE : Fld := ⟨0x600018, 42, 0⟩
def EXT_COMP_BASE_BASE : Fld := ⟨0x600020, 42, 0⟩
def EXT_INBOX_BASE : Fld := ⟨0x600028, 42, 0⟩
def EXT_LEASE_FAIL_COUNT : Fld := ⟨0x600030, 63, 0⟩
def EXT_FORWARDS_REFUSED : Fld := ⟨0x600038, 63, 32⟩
def EXT_FORWARDS_FORWARDED : Fld := ⟨0x600038, 31, 0⟩
def EXT_MISROUTED_COUNT : Fld := ⟨0x600040, 63, 0⟩
def EXT_NO_OWNER_COUNT : Fld := ⟨0x600048, 63, 0⟩
def EXT_DRAIN_LONGEST_CYCLES : Fld := ⟨0x600050, 14, 0⟩
def EXT_HO_LATE : Fld := ⟨0x600058, 63, 48⟩
def EXT_HO_REVERTED : Fld := ⟨0x600058, 47, 24⟩
def EXT_HO_COMMITTED : Fld := ⟨0x600058, 23, 0⟩
def EXT_EPOCH_VALID (n : Nat) : Fld := ⟨0x601000 + 0x8 * n, 28, 28⟩
def EXT_EPOCH_REC_HUB (n : Nat) : Fld := ⟨0x601000 + 0x8 * n, 27, 16⟩
def EXT_EPOCH_EPOCH (n : Nat) : Fld := ⟨0x601000 + 0x8 * n, 15, 0⟩
def HOST_CAPS_VECTORS : Fld := ⟨0x700000, 31, 16⟩
def HOST_CAPS_LDS : Fld := ⟨0x700000, 15, 8⟩
def HOST_CAPS_DC_BLOCK_LOG2 : Fld := ⟨0x700000, 7, 0⟩
def HOST_LINK_DEGRADED : Fld := ⟨0x700008, 11, 11⟩
def HOST_LINK_UP : Fld := ⟨0x700008, 10, 10⟩
def HOST_LINK_WIDTH : Fld := ⟨0x700008, 9, 4⟩
def HOST_LINK_RATE : Fld := ⟨0x700008, 3, 0⟩
def HOST_NOTICE_DROP_COUNT : Fld := ⟨0x700010, 63, 0⟩
def HOST_SYSRING_BASE : Fld := ⟨0x700018, 42, 0⟩
def HOST_SYSRING_HEAD_HEAD : Fld := ⟨0x700020, 31, 0⟩
def HOST_SYSRING_TAIL_TAIL : Fld := ⟨0x700028, 31, 0⟩
def HOST_LD_CFG_READY_TICK (i : Nat) : Fld := ⟨0x700100 + 0x40 * i, 63, 50⟩
def HOST_LD_CFG_BOUND (i : Nat) : Fld := ⟨0x700100 + 0x40 * i, 11, 11⟩
def HOST_LD_CFG_TENANT (i : Nat) : Fld := ⟨0x700100 + 0x40 * i, 10, 2⟩
def HOST_LD_CFG_STATE (i : Nat) : Fld := ⟨0x700100 + 0x40 * i, 1, 0⟩
def HOST_LD_MAP_VABASE (i : Nat) : Fld := ⟨0x700108 + 0x40 * i, 51, 0⟩
def HOST_LD_STATIC_STATIC (i : Nat) : Fld := ⟨0x700110 + 0x40 * i, 51, 0⟩
def HOST_LD_DC_DC_LEN (i : Nat) : Fld := ⟨0x700118 + 0x40 * i, 62, 36⟩
def HOST_LD_DC_DC_BASE (i : Nat) : Fld := ⟨0x700118 + 0x40 * i, 35, 0⟩
def HOST_RING_BASE_BASE (i : Nat) : Fld := ⟨0x700120 + 0x40 * i, 63, 12⟩
def HOST_RING_CTL_EN (i : Nat) : Fld := ⟨0x700128 + 0x40 * i, 63, 63⟩
def HOST_RING_CTL_COAL_US (i : Nat) : Fld := ⟨0x700128 + 0x40 * i, 47, 32⟩
def HOST_RING_CTL_COAL (i : Nat) : Fld := ⟨0x700128 + 0x40 * i, 31, 16⟩
def HOST_RING_CTL_VEC (i : Nat) : Fld := ⟨0x700128 + 0x40 * i, 11, 5⟩
def HOST_RING_CTL_SIZE_LOG2 (i : Nat) : Fld := ⟨0x700128 + 0x40 * i, 4, 0⟩
def HOST_RING_IDX_TAIL (i : Nat) : Fld := ⟨0x700130 + 0x40 * i, 63, 32⟩
def HOST_RING_IDX_HEAD (i : Nat) : Fld := ⟨0x700130 + 0x40 * i, 31, 0⟩
def HOST_RING_STAT_BAD_TAIL (i : Nat) : Fld := ⟨0x700138 + 0x40 * i, 63, 63⟩
def HOST_RING_STAT_DROPPED (i : Nat) : Fld := ⟨0x700138 + 0x40 * i, 62, 0⟩
def HOST_MEMERR_LAST_STATUS (i : Nat) : Fld := ⟨0x700800 + 0x10 * i, 63, 56⟩
def HOST_MEMERR_COUNT (i : Nat) : Fld := ⟨0x700800 + 0x10 * i, 55, 0⟩
def HOST_MEMERR_ADDR_DPA (i : Nat) : Fld := ⟨0x700808 + 0x10 * i, 63, 0⟩
def HOST_TENANT_READY_TICK (n : Nat) : Fld := ⟨0x701000 + 0x8 * n, 63, 16⟩
def HOST_TENANT_STATE (n : Nat) : Fld := ⟨0x701000 + 0x8 * n, 1, 0⟩
def HERD_CAPS_EPOCHS : Fld := ⟨0x800000, 23, 16⟩
def HERD_CAPS_MEMBERS : Fld := ⟨0x800000, 15, 0⟩
def HERD_CTL_AUTO : Fld := ⟨0x800008, 32, 32⟩
def HERD_CTL_SHADOW_TICKS : Fld := ⟨0x800008, 31, 16⟩
def HERD_CTL_BEAT : Fld := ⟨0x800008, 15, 8⟩
def HERD_CTL_LEAD : Fld := ⟨0x800008, 7, 0⟩
def HERD_CULL_DECAY : Fld := ⟨0x800010, 23, 16⟩
def HERD_CULL_THRESH : Fld := ⟨0x800010, 15, 0⟩
def HERD_INBOX_BASE : Fld := ⟨0x800018, 42, 0⟩
def HERD_META_BASE : Fld := ⟨0x800020, 42, 0⟩
def HERD_ABORT_LATE_COUNT : Fld := ⟨0x800028, 63, 0⟩
def HERD_SCORE_SEL_JOB : Fld := ⟨0x800030, 14, 10⟩
def HERD_SCORE_SEL_INDEX : Fld := ⟨0x800030, 9, 0⟩
def HERD_SCORE_SUSPECT : Fld := ⟨0x800038, 28, 28⟩
def HERD_SCORE_HUB : Fld := ⟨0x800038, 27, 16⟩
def HERD_SCORE_SCORE : Fld := ⟨0x800038, 15, 0⟩
def HERD_ID_LEADER (j : Nat) : Fld := ⟨0x800100 + 0x40 * j, 43, 32⟩
def HERD_ID_JOB (j : Nat) : Fld := ⟨0x800100 + 0x40 * j, 31, 0⟩
def HERD_MEMB_MEMBERS (j : Nat) : Fld := ⟨0x800108 + 0x40 * j, 42, 32⟩
def HERD_MEMB_MIN (j : Nat) : Fld := ⟨0x800108 + 0x40 * j, 26, 16⟩
def HERD_MEMB_STATE (j : Nat) : Fld := ⟨0x800108 + 0x40 * j, 2, 0⟩
def HERD_EPOCH_IN_PROGRESS (j : Nat) : Fld := ⟨0x800110 + 0x40 * j, 63, 32⟩
def HERD_EPOCH_COMMITTED (j : Nat) : Fld := ⟨0x800110 + 0x40 * j, 31, 0⟩
def HERD_STOP_REASON (j : Nat) : Fld := ⟨0x800118 + 0x40 * j, 63, 56⟩
def HERD_STOP_TICK (j : Nat) : Fld := ⟨0x800118 + 0x40 * j, 47, 0⟩
def HERD_SHADOW_MATCHED (j : Nat) : Fld := ⟨0x800120 + 0x40 * j, 63, 32⟩
def HERD_SHADOW_PASSED (j : Nat) : Fld := ⟨0x800120 + 0x40 * j, 13, 13⟩
def HERD_SHADOW_ACTIVE (j : Nat) : Fld := ⟨0x800120 + 0x40 * j, 12, 12⟩
def HERD_SHADOW_WORK (j : Nat) : Fld := ⟨0x800120 + 0x40 * j, 11, 0⟩
def HERD_COUNT_HELD (j : Nat) : Fld := ⟨0x800128 + 0x40 * j, 63, 48⟩
def HERD_COUNT_CULLS (j : Nat) : Fld := ⟨0x800128 + 0x40 * j, 47, 24⟩
def HERD_COUNT_RESTARTS (j : Nat) : Fld := ⟨0x800128 + 0x40 * j, 23, 0⟩
end F

end Sys2Proof.Machine
end

