-- ==== Sys2Proof/Machine/Ops.lean ====
section
/-! DEFINITION. Machine/Ops.lean: the named operations over the state: sparse tables, registers, the store's bytes, answers sent,
free values, and the two ways a command acts on the hub. A block takes no exception: an error is a status (R13). -/

namespace Sys2Proof.Machine

open Sys2Proof

/-! ### Sparse tables -/

/-- What a table holds at a key; `d` gives what an unlisted key holds. -/
def smGet {α : Type} (d : Nat → α) : SMap α → Nat → α
  | [], k => d k
  | (k', v) :: m, k => if k' = k then v else smGet d m k

/-- A table with one key set; the canonical form is kept: keys rise, no entry equals its default. -/
def smSet {α : Type} [DecidableEq α] (d : Nat → α) : SMap α → Nat → α → SMap α
  | [], k, v => if v = d k then [] else [(k, v)]
  | (k', v') :: m, k, v =>
    if k < k' then (if v = d k then (k', v') :: m else (k, v) :: (k', v') :: m)
    else if k = k' then (if v = d k then m else (k, v) :: m)
    else (k', v') :: smSet d m k v

/-- The canonical form of a table: keys strictly rising, no entry equal to its default. -/
abbrev smWf {α : Type} [DecidableEq α] (d : Nat → α) (m : SMap α) : Prop :=
  m.Pairwise (fun a b => a.1 < b.1) ∧ ∀ e ∈ m, e.2 ≠ d e.1

/-- The canonical form of the store's memory: addresses strictly rising, no zero byte listed (R69; log 4, DESIGN CHOICE). -/
abbrev Memory.wf (m : List Host.Cell) : Prop := smWf (fun _ => (0 : Byte)) m

/-- A table with every key of a list set. -/
def smSetAll {α : Type} [DecidableEq α] (d : Nat → α) (m : SMap α) (l : List (Nat × α)) : SMap α :=
  l.foldl (fun m e => smSet d m e.1 e.2) m

/-! ### Small arithmetic -/

/-- Field [hi:lo] of a number. -/
def bits (x hi lo : Nat) : Nat := x / 2 ^ lo % 2 ^ (hi + 1 - lo)
/-- One bit of a number. -/
def bitOf (x n : Nat) : Bool := x.testBit n
/-- `x` with field [hi:lo] replaced. -/
def setBits (x hi lo v : Nat) : Nat :=
  x - bits x hi lo * 2 ^ lo + v % 2 ^ (hi + 1 - lo) * 2 ^ lo
/-- Saturating increase of a counter of `w` bits. -/
def satAdd (w x n : Nat) : Nat := min (x + n) (2 ^ w - 1)
/-- A Bool as a bit. -/
def b2n (b : Bool) : Nat := if b then 1 else 0
/-- Two's complement reading of the low `w` bits. -/
def toSigned (w x : Nat) : Int :=
  let y := x % 2 ^ w
  if y < 2 ^ (w - 1) then (y : Int) else (y : Int) - (2 ^ w : Nat)
/-- The low `w` bits of an integer in two's complement. -/
def ofSigned (w : Nat) (x : Int) : Nat := (x % ((2 ^ w : Nat) : Int)).toNat
/-- Integer division truncated towards zero. -/
def tdivI (a b : Int) : Int := Int.tdiv a b

/-- Little-endian value of bytes (R9). -/
def leNat : List Byte → Nat
  | [] => 0
  | b :: bs => b.toNat + 256 * leNat bs
/-- The low `n` bytes of a number, little-endian. -/
def natLe : Nat → Nat → List Byte
  | 0, _ => []
  | n + 1, v => BitVec.ofNat 8 v :: natLe n (v / 256)
/-- Bytes [off, off + n) of a list; bytes beyond it are 0. -/
def slice (l : List Byte) (off n : Nat) : List Byte :=
  let t := (l.drop off).take n
  t ++ List.replicate (n - t.length) 0
/-- The little-endian number in bytes [off, off + n). -/
def getLE (l : List Byte) (off n : Nat) : Nat := leNat (slice l off n)
/-- A list with its bytes [off, …) replaced; the list keeps its length. -/
def patch (l : List Byte) (off : Nat) (d : List Byte) : List Byte :=
  l.take off ++ (d ++ l.drop (off + d.length)).take (l.length - off)
/-- Every byte of a list is zero. -/
def allZero (l : List Byte) : Bool := l.all (fun b => b == 0)

/-! ### CRC-64 and CRC-32C (R66, R193) -/

/-- One shift of the CRC-64 register. -/
def crc64Bit (c : Nat) : Nat :=
  if c / 2 ^ 63 % 2 = 1 then Nat.xor (c * 2 % 2 ^ 64) 0x42F0E1EBA9EA3693 else c * 2 % 2 ^ 64
/-- One byte of R66. -/
def crc64Byte (c : Nat) (b : Byte) : Nat :=
  let c := Nat.xor c (b.toNat * 2 ^ 56)
  crc64Bit (crc64Bit (crc64Bit (crc64Bit (crc64Bit (crc64Bit (crc64Bit (crc64Bit c)))))))
/-- CRC-64 of ECMA-182 (R66). -/
def crc64 (d : List Byte) : Nat := d.foldl crc64Byte 0
/-- One shift of the reflected CRC-32C register: polynomial 0x1EDC_6F41, reflected 0x82F6_3B78. -/
def crc32Bit (c : Nat) : Nat := if c % 2 = 1 then Nat.xor (c / 2) 0x82F63B78 else c / 2
/-- One byte of R193. -/
def crc32Byte (c : Nat) (b : Byte) : Nat :=
  let c := Nat.xor c b.toNat
  crc32Bit (crc32Bit (crc32Bit (crc32Bit (crc32Bit (crc32Bit (crc32Bit (crc32Bit c)))))))
/-- CRC-32C (R193). -/
def crc32c (d : List Byte) : Nat := Nat.xor (d.foldl crc32Byte 0xFFFFFFFF) 0xFFFFFFFF

/-! ### Registers (R9, R10, R548) -/

/-- The indices of an address in a register row. -/
def RegRow.index (r : RegRow) (a : Nat) : Option (Nat × Nat) :=
  if a < r.base then none else
  let off := a - r.base
  let i := if r.s1 = 0 then 0 else if r.n2 ≤ 1 then off / r.s1 else off / r.s1
  let rem := if r.s1 = 0 then off else off % r.s1
  if r.n2 ≤ 1 then (if rem = 0 ∧ i < r.n1 then some (i, 0) else none)
  else if rem % r.s2 = 0 ∧ rem / r.s2 < r.n2 ∧ i < r.n1 then some (i, rem / r.s2) else none
/-- The register at an address, with its indices. -/
def regFind (a : Nat) : Option (RegRow × Nat × Nat) :=
  (regBlock a).findSome? (fun r => (r.index a).map (fun i => (r, i.1, i.2)))
/-- A register's reset value (R554). -/
def regReset (a : Nat) : BitVec 64 :=
  match regFind a with
  | none => 0
  | some (r, i, j) =>
    match r.resets with
    | [] => 0
    | [v] => BitVec.ofNat 64 v
    | l => BitVec.ofNat 64 (l.getD (i * r.n2 + j) 0)

/-- The stored value of the register at an address. -/
def State.reg (s : State) (a : Nat) : BitVec 64 := smGet regReset s.regs a
/-- A register set whole. -/
def State.setReg (s : State) (a : Nat) (v : BitVec 64) : State :=
  { s with regs := smSet regReset s.regs a v }
/-- A field of a register's value. -/
def fv (v : Nat) (f : Fld) : Nat := bits v f.hi f.lo
/-- A field of a register. -/
def State.fld (s : State) (f : Fld) : Nat := bits (s.reg f.addr).toNat f.hi f.lo
/-- A field of a register as a condition. -/
def State.flag (s : State) (f : Fld) : Bool := s.fld f != 0
/-- A field set. -/
def State.put (s : State) (f : Fld) (v : Nat) : State :=
  s.setReg f.addr (BitVec.ofNat 64 (setBits (s.reg f.addr).toNat f.hi f.lo v))
/-- A counter field increased, saturating (R551). -/
def State.bump (s : State) (f : Fld) (n : Nat := 1) : State :=
  s.put f (satAdd (f.hi + 1 - f.lo) (s.fld f) n)

/-! ### Memory (R62, R64) -/

/-- A byte of memory: an unlisted address reads as 0 (log 4, DESIGN CHOICE). -/
def Memory.read (m : List Host.Cell) (a : Nat) : Byte := smGet (fun _ => (0 : Byte)) m a
/-- A byte of memory written. -/
def Memory.write (m : List Host.Cell) (a : Nat) (b : Byte) : List Host.Cell := smSet (fun _ => (0 : Byte)) m a b
/-- Consecutive bytes read. -/
def Memory.readN (m : List Host.Cell) (a n : Nat) : List Byte := (List.range n).map (fun i => Memory.read m (a + i))
/-- Consecutive bytes written. -/
def Memory.writeN (m : List Host.Cell) (a : Nat) : List Byte → List Host.Cell
  | [] => m
  | b :: bs => Memory.writeN (Memory.write m a b) (a + 1) bs
/-- Key of a byte of a slot: location (R69) and offset. -/
def slotKey (loc off : Nat) : Nat := loc * 65536 + off
/-- Bytes of a slot. -/
def State.slotRead (s : State) (loc off n : Nat) : List Byte := Memory.readN s.mem (slotKey loc off) n
/-- Bytes of a slot written. -/
def State.slotWrite (s : State) (loc off : Nat) (d : List Byte) : State :=
  { s with mem := Memory.writeN s.mem (slotKey loc off) d }
/-- A slot zeroised: every listed byte of it is removed (R514). -/
def State.slotZero (s : State) (loc : Nat) : State :=
  { s with mem := s.mem.filter (fun e => e.1 / 65536 != loc) }
/-- Bytes of the reserved area, by hub-local address (R64). -/
def State.resvRead (s : State) (a n : Nat) : List Byte := Memory.readN s.resv a n
/-- Bytes of the reserved area written. -/
def State.resvWrite (s : State) (a : Nat) (d : List Byte) : State := { s with resv := Memory.writeN s.resv a d }

/-! ### Answers and free values -/

/-- The hub sends something. -/
def State.emit (s : State) (e : Emit) : State := { s with out := e :: s.out }
/-- The number of the next free value, and the state that has drawn it. -/
def State.draw (s : State) : Nat × State := (s.free, { s with free := s.free + 1 })
/-- The timebase is brought to an instant that has not passed yet (log 2, DESIGN CHOICE). -/
def State.upTo (s : State) (t : Nat) : State := { s with time := max s.time t }
/-- An event is placed by its own timestamp (R20, R21): it acts at that value of the timebase, which then goes on from where it
stood. -/
def State.atTime (s : State) (t : Nat) (f : State → State) : State := let u := f { s with time := t }; { u with time := max s.time u.time }
/-- The state as a look-up with an earlier timestamp sees it (R314, R393). -/
def State.asAt (s : State) (t : Nat) : State := { s with time := t }
/-- Microseconds and milliseconds in TBS cycles (R17). -/
def us (n : Nat) : Nat := n * 500
def ms (n : Nat) : Nat := n * 500000

/-! ### How a command acts (R534, R535) -/

/-- The hub has main power and a start is in progress or done (log 7, DEDUCED). -/
def State.on (s : State) : Bool := s.sup.stage != .off
/-- A command of the hub proper: it acts while main power is on, and reaches neither the supervisor nor the queue. -/
def hubOnly (f : State → State) (s : State) : Out State :=
  .next (if s.on then { f s with sup := s.sup, pending := s.pending } else s)
/-- A command that also reaches the supervisor while main power is on. -/
def supOn (f : State → State) (s : State) : Out State :=
  .next (if s.on then { f s with pending := s.pending } else s)
/-- The part of a command's work that the hub proper does: the supervisor stays as it is. -/
def hubWork (f : State → State) (s : State) : State := { f s with sup := s.sup }
/-- A command of the power stage, the sideband or the test access port, which main power does not gate. -/
def supAny (f : State → State) (s : State) : Out State := .next { f s with pending := s.pending }

end Sys2Proof.Machine
end

