-- ==== Sys2Proof/Machine/Arith.lean ====
section
/-! DEFINITION. Machine/Arith.lean: integer arithmetic with shared scales: formats, alignment, conversion, products, the dither and
the reciprocal square root (spec/02 R65, spec/04 R126 to R146). Every function is the one the spec writes, over exact integers. -/

namespace Sys2Proof.Machine

open Sys2Proof

/-! ### Formats (Tables 02-2, 04-1, 05-2) -/

/-- Element width in bits; 0 for a code that holds no elements. -/
def fmtWidth (f : Nat) : Nat := if f = 1 then 4 else if f = 2 then 8 else if f = 3 then 16 else if f = 4 then 32 else 0
/-- Block length B. -/
def fmtBlock (f : Nat) : Nat := if f = 3 then 16 else 32
/-- Blocks of a tile. -/
def fmtBlocks (f : Nat) : Nat := if f = 1 then 3840 else if f = 2 ∨ f = 3 then 1984 else if f = 4 then 508 else 0
/-- Elements of a tile. -/
def fmtElems (f : Nat) : Nat := fmtBlocks f * fmtBlock f
/-- Bytes per block. -/
def fmtBytes (f : Nat) : Nat := fmtBlock f * fmtWidth f / 8
/-- Offset of the scale plane. -/
def fmtScale (f : Nat) : Nat := fmtBlocks f * fmtBytes f
/-- Pages a frame takes (Table 05-2). -/
def fmtPages (f : Nat) : Nat := if f = 1 then 15 else if f = 2 then 8 else if f = 3 then 4 else if f = 4 then 2 else 0
/-- Largest magnitude written. -/
def maxv (n : Nat) : Int := 2 ^ (n - 1) - 1

/-! ### Rounding (R132, R142, R144) -/

/-- rne_shift of R132. -/
def rneShift (v : Int) (k : Nat) : Int :=
  if 48 ≤ k then 0
  else
    let q := v / (2 ^ k : Int)
    let r := v % (2 ^ k : Int)
    let h := (2 ^ (k - 1) : Int)
    if h < r ∨ (r = h ∧ q % 2 = 1) then q + 1 else q
/-- sr_shift of R144. -/
def srShift (v : Int) (k z : Nat) : Int :=
  if 48 ≤ k then rneShift v k
  else
    let q := v / (2 ^ k : Int)
    let r := v % (2 ^ k : Int)
    if ((z / 2 ^ (64 - k) : Nat) : Int) < r then q + 1 else q
/-- A rounding mode with its dither: nearest, or stochastic. -/
inductive Rnd where
  | near
  | sto (z : Nat)
deriving DecidableEq, Repr
def rndShift (v : Int) (k : Nat) (m : Rnd) : Int := match m with
  | .near => rneShift v k
  | .sto z => srShift v k z
/-- mix of R142. -/
def mix64 (z : Nat) : Nat :=
  let z := Nat.xor z (z / 2 ^ 33)
  let z := z * 0xA4F13C2D9B57E06B % 2 ^ 64
  let z := Nat.xor z (z / 2 ^ 29)
  let z := z * 0x5D8E6A93C1F72B4D % 2 ^ 64
  Nat.xor z (z / 2 ^ 32)
/-- dither64 of R142. -/
def dither64 (seed step stream vtile elem : Nat) : Nat :=
  let z := mix64 (Nat.xor (seed % 2 ^ 64) (step * 0x7F4A7C15E3B9D681 % 2 ^ 64))
  mix64 (Nat.xor z ((stream % 256 * 2 ^ 53) ||| (vtile % 2 ^ 36 * 2 ^ 17) ||| (elem % 2 ^ 17)))

/-! ### Alignment and conversion (R133, R137, R138) -/

def lim31 : Int := 2147483647
/-- align of R133. -/
def align (x s t : Int) : Int × Bool :=
  if s = -128 ∨ x = 0 then (0, false)
  else
    let d := s - t
    if d < 0 then (rneShift x (-d).toNat, false)
    else if 31 < d ∨ lim31 / (2 ^ d.toNat : Int) < x.natAbs then (x.sign * lim31, true)
    else (x * 2 ^ d.toNat, false)
/-- convert of R137. -/
def convert (S t u : Int) (n : Nat) (m : Rnd) : Int × Bool :=
  if S = 0 then (0, false)
  else
    let mv := maxv n
    let d := u - t
    let q := if 0 < d then rndShift S d.toNat m
      else if (n : Int) ≤ -d ∨ mv / (2 ^ (-d).toNat : Int) < S.natAbs then S.sign * (mv + 1)
      else S * 2 ^ (-d).toNat
    if mv < q then (mv, true) else if q < -mv then (-mv, true) else (q, false)
/-- bitlen of a positive number. -/
def bitlen (m : Nat) : Nat := if m = 0 then 0 else Nat.log2 m + 1
/-- auto_scale of R138; `sto` says whether the mode is stochastic. -/
def autoScale (S : List Int) (t : Int) (n : Nat) (sto : Bool) : Int :=
  let m := S.foldl (fun m x => max m x.natAbs) 0
  if m = 0 then -128
  else
    let k : Int := (bitlen m : Int) - (n - 1 : Nat)
    let k := if 0 < k ∧ !sto ∧ maxv n < rneShift m k.toNat then k + 1 else k
    let k := if 0 < k ∧ sto ∧ maxv n * 2 ^ k.toNat < (m : Int) then k + 1 else k
    max (-127) (min 127 (t + k))
/-- mulr of R140. -/
def mulr (a c : Int) (k : Nat) (m : Rnd) : Int := if k = 0 then a * c else rndShift (a * c) k m
/-- term of R170. -/
def term (x s c sc t : Int) : Int × Bool :=
  if x = 0 ∨ c = 0 then (0, false)
  else
    let k := t - (s + sc)
    if 48 ≤ k then (0, false)
    else if 0 < k then
      let p := mulr x c k.toNat .near
      if lim31 < p.natAbs then (p.sign * lim31, true) else (p, false)
    else
      let p := x * c
      let d := (-k).toNat
      if 31 < d ∨ lim31 / (2 ^ d : Int) < p.natAbs then (p.sign * lim31, true)
      else (p * 2 ^ d, false)

/-! ### The reciprocal square root (R145, R146) -/

/-- The integer of R145's entry i. -/
def rsqrtEntry (i : Nat) : Nat :=
  let mval := (1025 + 2 * (i % 512)) * 2 ^ (i / 512)
  let y0 := Nat.sqrt (2 ^ 42 / mval)
  if (2 * y0 + 1) * (2 * y0 + 1) * mval < 2 ^ 44 then y0 + 1 else y0
/-- rsqrt of R146: the result and its scale. -/
def rsqrt (v sv : Int) : Nat × Int :=
  let v := if v ≤ 0 then 1 else v.toNat
  let b := bitlen v
  let e := sv + b - 1
  let h : Nat := if e % 2 = 1 then 1 else 0
  let q := (e - h) / 2
  let j := v * 512 / 2 ^ (b - 1) - 512
  (rsqrtEntry (512 * h + j), -16 - q)

/-! ### Elements in a tile or a cell (R128 to R131) -/

/-- Element i of block bytes that start at `off` of `d`. -/
def elemAt (f : Nat) (d : Array Byte) (off i : Nat) : Int :=
  let by' := fun (k : Nat) => (d.getD k 0).toNat
  if f = 1 then toSigned 4 (by' (off + i / 2) / (if i % 2 = 0 then 1 else 16))
  else if f = 2 then toSigned 8 (by' (off + i))
  else if f = 3 then toSigned 16 (by' (off + 2 * i) + 256 * by' (off + 2 * i + 1))
  else toSigned 32 (by' (off + 4 * i) + 256 * by' (off + 4 * i + 1) + 65536 * by' (off + 4 * i + 2) + 16777216 * by' (off + 4 * i + 3))
/-- rd of R170: element e of a tile, with its block's scale; a zero block reads (0, −128). -/
def rdElem (f : Nat) (tile : Array Byte) (e : Nat) : Int × Int :=
  let b := e / fmtBlock f
  let s := toSigned 8 (tile.getD (fmtScale f + b) 0).toNat
  if s = -128 then (0, -128) else (elemAt f tile (b * fmtBytes f) (e % fmtBlock f), s)
/-- The bytes of one block of written elements (R131). -/
def blockBytes (f : Nat) (q : List Int) : List Byte :=
  if f = 1 then (List.range 16).map (fun i => BitVec.ofNat 8 (ofSigned 4 (q.getD (2 * i) 0) + 16 * ofSigned 4 (q.getD (2 * i + 1) 0)))
  else q.flatMap (fun x => natLe (fmtWidth f / 8) (ofSigned (fmtWidth f) x))

/-- A block converted: elements, scale, and which elements saturated (R130, R137, R138). -/
structure Blk where
  q : List Int
  u : Int
  sat : List Bool
deriving DecidableEq, Repr
/-- A block's accumulators at scale t converted to format f, in AUTO mode or at the fixed scale u; `z` gives element i's dither. -/
def convBlock (f : Nat) (acc : List Int) (t : Int) (auto : Bool) (u : Int) (sto : Bool) (z : Nat → Nat) : Blk :=
  let n := fmtWidth f
  let u := if auto then autoScale acc t n sto else u
  let r := (List.range acc.length).map (fun i => convert (acc.getD i 0) t u n (if sto then .sto (z i) else .near))
  let q := r.map Prod.fst
  if q.all (· == 0) then { q := q, u := -128, sat := r.map Prod.snd } else { q := q, u := u, sat := r.map Prod.snd }
/-- A whole tile from its blocks: element plane, scale plane, zero reserved bytes (R65). -/
def tileBytes (f : Nat) (bs : List Blk) : List Byte :=
  slice ((bs.flatMap (fun b => blockBytes f b.q)) ++ bs.map (fun b => BitVec.ofNat 8 (ofSigned 8 b.u))) 0 65536
/-- The accumulators of a stored tile as contributions at target scale t (R133, R160): values and clamps. -/
def tileAligned (f : Nat) (tile : List Byte) (t : Int) : List (Int × Bool) :=
  let a := tile.toArray
  (List.range (fmtElems f)).map (fun e => let x := rdElem f a e; align x.1 x.2 t)

end Sys2Proof.Machine
end

