-- ==== Sys2Proof/Machine/Flags.lean ====
section
/-! DEFINITION. Machine/Flags.lean: completion statuses and flag bytes (R13, R14), and the levels of a cell's header that act as
flags. -/

namespace Sys2Proof.Machine

open Sys2Proof

namespace St
def ok : Nat := 0x00
def unmapped : Nat := 0x01
def rights : Nat := 0x02
def key : Nat := 0x03
def window : Nat := 0x04
def checksum : Nat := 0x05
def tileOpen : Nat := 0x06
def epoch : Nat := 0x07
def lease : Nat := 0x08
def busy : Nat := 0x09
def quiescing : Nat := 0x0A
def maint : Nat := 0x0B
def overrun : Nat := 0x0C
def aborted : Nat := 0x0D
def badDesc : Nat := 0x0E
def noOwner : Nat := 0x0F
def power : Nat := 0x10
def auth : Nat := 0x11
def link : Nat := 0x12
end St

/-- The flag byte: SATURATED, DEFAULT_ROW, SLOW_PATH (R14). -/
def flagByte (saturated defaultRow slow : Bool) : Nat := b2n saturated + 2 * b2n defaultRow + 4 * b2n slow
/-- The flag byte a completion carries: 0 unless its status is OK (R14). -/
def flagsOf (status : Nat) (saturated defaultRow slow : Bool) : Nat :=
  if status = St.ok then flagByte saturated defaultRow slow else 0

/-- The payload of a vendor command's completion: STATUS, FLAGS, 6 reserved bytes, then the data (R425). -/
def vendorPayload (status flags : Nat) (data : List Byte) : List Byte :=
  natLe 1 status ++ natLe 1 flags ++ natLe 6 0 ++ data

/-- Key of a mailbox in the host state's tables: 0 to 15 LDs, 16 the FM-owned LD, 17 the sideband. -/
def mbxKey : Mbx → Nat
  | .ld i => i
  | .fm => 16
  | .sideband => 17
  | .gone => 18

/-- CXL return codes by number (log 41, PRESUMED). -/
def cxlRcCode : CxlRc → Nat
  | .success => 0
  | .backgroundStarted => 1
  | .invalidInput => 2
  | .unsupported => 3
  | .busy => 6
  | .mediaDisabled => 7
  | .other n => n
/-- A command of the sideband's mailbox has ended: its state is done, its output stands in the buffer (R542, R543). -/
def State.sbDone (s : State) (mb : Mbx) (rc : Nat) (d : List Byte) : State :=
  if mb = .sideband then { s with host := { s.host with sb := { s.host.sb with state := 2, rc := rc, outp := d.take 4096 } } } else s
/-- A vendor command completes (R425). -/
def State.reply (s : State) (mb : Mbx) (status : Nat) (data : List Byte := []) (flags : Nat := 0) : State :=
  if mb = .gone then s else
  let fl := if status = St.ok then flags else 0
  let d := if status = St.ok then data else []
  (s.sbDone mb 0 (vendorPayload status fl d)).emit (.reply mb status fl d)
/-- A background command completes and its mailbox is free again (R423, R426). -/
def State.replyBg (s : State) (mb : Mbx) (status : Nat) (data : List Byte := []) (flags : Nat := 0) : State :=
  let s := s.reply mb status data flags
  { s with host := { s.host with busy := s.host.busy.filter (· != mbxKey mb) } }
/-- A CXL command completes (R424). -/
def State.cxl (s : State) (mb : Mbx) (rc : CxlRc) (data : List Byte := []) : State := if mb = .gone then s else (s.sbDone mb (cxlRcCode rc) data).emit (.cxl mb rc data)
/-- A background command holds its mailbox until it completes (R426). -/
def State.hold (s : State) (mb : Mbx) : State :=
  { s with host := { s.host with busy := mbxKey mb :: s.host.busy } }

end Sys2Proof.Machine
end

