-- ==== Sys2Proof/Machine/Notice.lean ====
section
/-! DEFINITION. Machine/Notice.lean: the route of a cell the hub sends, and raising a notice: its record, its rings, its NOTICE
cells (R220 to R222, R428 to R435, R495). -/

namespace Sys2Proof.Machine

open Sys2Proof

/-! ### Identity and job access -/

def State.hubId (s : State) : Nat := s.sup.hubId
def jobGet (s : State) (j : Nat) : Job := smGet (fun _ => {}) s.seq.jobs j
def jobSet (s : State) (j : Nat) (x : Job) : State :=
  { s with seq := { s.seq with jobs := smSet (fun _ => {}) s.seq.jobs j x } }
/-- The job slots 0 to 31. -/
def jobSlots : List Nat := List.range 32
def portGet (s : State) (n : Nat) : Port :=
  smGet (fun n => if n < 24 then {} else { state := .disabled }) s.fab.ports n
def portSet (s : State) (n : Nat) (p : Port) : State :=
  { s with fab := { s.fab with ports := smSet (fun n => if n < 24 then {} else { state := .disabled }) s.fab.ports n p } }
def portUp (s : State) (n : Nat) : Bool := n < 26 && (portGet s n).state == .up
/-- The port's peer is an agent, or a hub, while it is up or recovers (R187). -/
def agentPort (s : State) (n : Nat) : Bool := match (portGet s n).peer with
  | some g => !g.hub
  | none => false
def hubPort (s : State) (n : Nat) : Bool := match (portGet s n).peer with
  | some g => g.hub
  | none => false
def tenantGet (s : State) (n : Nat) : FnRec := smGet (fun _ => {}) s.host.tenants n
def tenantSet (s : State) (n : Nat) (x : FnRec) : State :=
  { s with host := { s.host with tenants := smSet (fun _ => {}) s.host.tenants n x } }
def ldGet (s : State) (n : Nat) : FnRec := smGet (fun _ => {}) s.host.lds n
def ldSet (s : State) (n : Nat) (x : FnRec) : State :=
  { s with host := { s.host with lds := smSet (fun _ => {}) s.host.lds n x } }
/-- The tenant an LD is bound to (R414). -/
def ldTenant (s : State) (i : Nat) : Nat := s.fld (F.HOST_LD_CFG_TENANT i)
def ldBound (s : State) (i : Nat) : Bool := s.flag (F.HOST_LD_CFG_BOUND i)
def ldOf (s : State) (ten : Nat) : List Nat :=
  (List.range 16).filter (fun i => (ldGet s i).state == .on && ldBound s i && ldTenant s i == ten)

/-! ### Cells (R191, R221) -/

/-- The virtual network of a cell type (Table 06-5). -/
def vnOf (ty : Nat) : Option Nat :=
  if ty = 0x01 ∨ ty = 0x02 ∨ ty = 0x03 then some 0
  else if ty = 0x11 ∨ ty = 0x12 ∨ ty = 0x13 ∨ ty = 0x14 then some 1
  else if ty = 0x20 ∨ ty = 0x21 ∨ ty = 0x22 then some 2
  else if ty = 0x30 ∨ ty = 0x31 ∨ ty = 0x32 ∨ ty = 0x33 then some 3
  else if ty = 0x40 ∨ ty = 0x41 ∨ ty = 0x42 ∨ ty = 0x43 ∨ ty = 0x48 ∨ ty = 0x49 then some 0
  else if ty = 0x4A ∨ ty = 0x4C ∨ ty = 0x4D then some 1
  else none
/-- An empty cell of a type, from this hub (log 45, DESIGN CHOICE). -/
def cell0 (s : State) (ty : Nat) : Cell :=
  { ty := ty, vn := (vnOf ty).getD 0, colour := 1, ce := false, fwd := false, last := false, dst := 0, src := s.hubId, dstEp := 0xFF, srcEp := if s.sup.upper then 0xFE else 0xFF, addr := 0, tag := 0, txn := 0, epoch := 0, opx := 0, len := 0, ack := 0, cvn := 0, ccnt := 0, payload := [] }
/-- The flow hash key of Table 07-3 and the flow hash (R221). -/
def hashKey (salt : Nat) (c : Cell) : List Byte :=
  natLe 2 c.src ++ natLe 1 c.srcEp ++ natLe 2 (if c.ty = 0x21 then c.txn else c.dst) ++ natLe 1 (if c.ty = 0x21 then 0 else c.dstEp)
  ++ natLe 2 c.tag ++ natLe 4 salt
def flowHash (s : State) (c : Cell) : Nat := crc32c (hashKey (s.fld F.SWX_HASH_SALT) c)
/-- R222: the candidate a hash picks. -/
def pickPort (h : Nat) (cands : List Nat) : Option Nat := cands[(h / 65536 * cands.length) / 65536]?
/-- The candidate ports of a destination hub: named by the route entry and UP (R220). -/
def routePorts (s : State) (d : Nat) : List Nat :=
  (List.range 26).filter (fun n => bitOf (s.fld (F.SWX_ROUTE_PORTS d)) n && portUp s n)
/-- The yoke ports that are UP. -/
def yokePorts (s : State) : List Nat := [24, 25].filter (portUp s)
/-- An endpoint of this half that is an agent port number (Table 06-6). -/
def localEp (s : State) (ep : Nat) : Option Nat :=
  if ep ≤ 0x17 then (if s.sup.upper then none else some ep)
  else if ep ≤ 0x2F then (if s.sup.yoked && s.sup.upper then some (ep - 0x18) else none) else none
/-- Where a cell that is not a multicast goes: an external port, `inr none` for this hub itself, or nowhere (R219, R220). -/
inductive Route where
  | ext (port : Nat)
  | here
  | lost
deriving DecidableEq, Repr
def routeOf (s : State) (c : Cell) : Route :=
  let h := flowHash s c
  let across := fun (_ : Unit) => match pickPort h (yokePorts s) with | some p => Route.ext p | none => Route.lost
  if c.dst ≠ s.hubId then (match pickPort h (routePorts s c.dst) with | some p => .ext p | none => .lost)
  else if c.dstEp = 0xFF then (if s.sup.yoked ∧ s.sup.upper ∧ c.tag = 0xFFFF then across () else .here)
  else if c.dstEp = 0xFE then (if !s.sup.yoked then .lost else if s.sup.upper then .here else across ())
  else if c.dstEp ≤ 0x2F then
    (match localEp s c.dstEp with
     | some n => if portUp s n && agentPort s n then .ext n else .lost
     | none => if s.sup.yoked then across () else .lost)
  else .lost
/-- SWX cycles at a TBS instant: 1.6 GHz against 500 MHz. -/
def swxNow (s : State) : Nat := s.time * 16 / 5
/-- A cell as it enters the switch core now, on the plane of its flow (R222). -/
def qcell (s : State) (inp out slot : Nat) (c : Cell) (id : Nat) : QCell :=
  { id := id, c := c, inp := inp, out := out, plane := flowHash s c % 4, slot := slot, arrived := swxNow s, time := s.time }
/-- A cell put into its VOQ as it is (R215). -/
def voqPut (s : State) (q : QCell) : State := { s with fab := { s.fab with voq := s.fab.voq ++ [q] } }
def newCellId (s : State) : Nat × State := (s.fab.nextId, { s with fab := { s.fab with nextId := s.fab.nextId + 1 } })

/-! ### Colour profiles (R231, R232) -/

/-- D(q, v): cells queued for a port and virtual network (R231). -/
def depth (s : State) (q v : Nat) : Nat :=
  ((s.fab.voq ++ s.fab.egress).filter (fun x => x.out == q && x.c.vn == v)).length
/-- The probability p of R232, 0 to 256. -/
def profileP (s : State) (q : Nat) (c : Cell) : Nat :=
  let a := smGet (fun _ => 0) s.fab.avg (4 * q + c.vn)
  let lo := s.fld (F.SWX_PROF_MIN_TH c.vn c.colour) * 256
  let hi := s.fld (F.SWX_PROF_MAX_TH c.vn c.colour) * 256
  if a < lo then 0 else if a < hi then s.fld (F.SWX_PROF_MAX_P c.vn c.colour) * (a - lo) / (hi - lo) else 256
/-- Whether the profile's ACTION applies to a cell enqueued for a port, by a draw of the free-running generator (R232; log 97). -/
def profileHit (s : State) (q : Nat) (c : Cell) : Bool × State :=
  let (n, s') := s.draw
  (decide (Config.draw8 n % 256 < profileP s q c), s')
/-- A cell enqueued for a port whose profile at most marks it (R233). -/
def voqMark (s : State) (q : QCell) : State :=
  let (hit, s) := profileHit s q.out q.c
  if hit ∧ s.fld (F.SWX_PROF_ACTION q.c.vn q.c.colour) = 1 then voqPut (s.bump (F.SWX_PORT_CM_MARKED q.out)) { q with c := { q.c with ce := true } }
  else voqPut s q

/-! ### Notices (R428 to R435) -/

/-- Where a notice goes besides the system ring (R429). -/
inductive NDest where
  | sys
  | tenant (n : Nat)
  | ld (i : Nat)
  | ep (hub ep : Nat)
deriving DecidableEq, Repr

/-- One record (Table 15-6). -/
def noticeRec (code flags job seq hub ten tick time : Nat) (args : List Nat) : List Byte :=
  natLe 2 code ++ natLe 1 flags ++ natLe 1 job ++ natLe 4 seq ++ natLe 2 hub ++ natLe 2 ten ++ natLe 4 0 ++ natLe 8 tick ++ natLe 8 time
  ++ natLe 8 (args.getD 0 0) ++ natLe 8 (args.getD 1 0) ++ natLe 8 (args.getD 2 0) ++ natLe 8 (args.getD 3 0)

def destGet (s : State) (k : Nat) : Dest := smGet (fun _ => {}) s.host.dests k
def destSet (s : State) (k : Nat) (d : Dest) : State :=
  { s with host := { s.host with dests := smSet (fun _ => {}) s.host.dests k d } }
def sigGet (s : State) (i : Nat) : RingSig := smGet (fun _ => {}) s.host.sigs i
def sigSet (s : State) (i : Nat) (x : RingSig) : State :=
  { s with host := { s.host with sigs := smSet (fun _ => {}) s.host.sigs i x } }

/-- The notice's head values, carried from the raising event. -/
structure NHead where
  code : Nat
  ten : Nat
  job : Option Nat
  args : List Nat
  tick : Nat
  time : Nat
deriving DecidableEq, Repr

def NHead.bytes (h : NHead) (hub seq flags : Nat) : List Byte :=
  noticeRec h.code (flags + (if h.job.isSome then 4 else 0)) (h.job.getD 0) seq hub h.ten h.tick h.time h.args

/-- A record into the system ring (R435): dropped when the ring is full. SB_ALERT_N is low while it holds unread records (R545). -/
def sysRingPut (s : State) (h : NHead) : State :=
  let d := destGet s 0
  let seq := (d.seq + 1) % 2 ^ 32
  let head := s.fld F.HOST_SYSRING_HEAD_HEAD
  let tail := s.fld F.HOST_SYSRING_TAIL_TAIL
  if (head + 2 ^ 32 - tail) % 2 ^ 32 ≥ 65536 then destSet s 0 { seq := seq, lost := true }
  else
    let rec' := h.bytes s.hubId seq (head / 65536 % 2 + 2 * b2n d.lost)
    let s := s.resvWrite (0x2E05CA00000 + 64 * (head % 65536)) rec'
    let s := if head = tail then s.emit (.pin "SB_ALERT_N" false) else s
    destSet (s.put F.HOST_SYSRING_HEAD_HEAD ((head + 1) % 2 ^ 32)) 0 { seq := seq, lost := false }

/-- Unread records of an LD's ring. -/
def ringCount (s : State) (i : Nat) : Nat :=
  (s.fld (F.HOST_RING_IDX_HEAD i) + 2 ^ 32 - s.fld (F.HOST_RING_IDX_TAIL i)) % 2 ^ 32
/-- The ring's MSI-X signal: sent only while records remain unread (R434). -/
def ringSignal (s : State) (i : Nat) : State :=
  if ringCount s i = 0 then s
  else sigSet (s.emit (.msix i (s.fld (F.HOST_RING_CTL_VEC i)))) i {}
/-- A record into LD i's ring (R432 to R434). -/
def ldRingPut (s : State) (i : Nat) (h : NHead) : State :=
  let d := destGet s (1 + i)
  let seq := (d.seq + 1) % 2 ^ 32
  let lg := s.fld (F.HOST_RING_CTL_SIZE_LOG2 i)
  let head := s.fld (F.HOST_RING_IDX_HEAD i)
  if !s.flag (F.HOST_RING_CTL_EN i) || ringCount s i ≥ 2 ^ lg then
    (destSet s (1 + i) { seq := seq, lost := true }).bump (F.HOST_RING_STAT_DROPPED i)
  else
    let was := ringCount s i
    let s := s.emit (.hostWrite i (s.fld (F.HOST_RING_BASE_BASE i) * 4096 + 64 * (head % 2 ^ lg))
      (h.bytes s.hubId seq (head / 2 ^ lg % 2 + 2 * b2n d.lost)))
    let s := destSet (s.put (F.HOST_RING_IDX_HEAD i) ((head + 1) % 2 ^ 32)) (1 + i) { seq := seq, lost := false }
    let g := sigGet s i
    let s := sigSet s i { unsignalled := g.unsignalled + 1, since := some (g.since.getD s.time) }
    if was = 0 ∨ g.unsignalled + 1 ≥ s.fld (F.HOST_RING_CTL_COAL i) then ringSignal s i else s
/-- A NOTICE cell to a fabric endpoint, or its drop, counted in HOST_NOTICE_DROP (R430). -/
def epPut (s : State) (hub ep : Nat) (h : NHead) : State :=
  let k := 0x10000 + hub * 256 + ep
  let d := destGet s k
  let seq := (d.seq + 1) % 2 ^ 32
  let c := { cell0 s 0x32 with dst := hub, dstEp := ep, tag := 0xFFFF, payload := h.bytes s.hubId seq (2 * b2n d.lost) }
  match routeOf s c with
  | .ext p =>
    let (id, s) := newCellId s
    voqMark (destSet s k { seq := seq, lost := false }) (qcell s 33 p 512 c id)
  | .here =>
    let (id, s) := newCellId s
    voqMark (destSet s k { seq := seq, lost := false }) (qcell s 33 33 512 c id)
  | .lost => (destSet s k { seq := seq, lost := true }).bump F.HOST_NOTICE_DROP_COUNT

/-- Delivery of a notice to its destinations and to the system ring (R429) (log 23, DESIGN CHOICE). -/
def deliverNotice (s : State) (h : NHead) (dst : NDest) : State :=
  let s := sysRingPut s h
  match dst with
  | .sys => s
  | .ld i => ldRingPut s i h
  | .ep hub ep => epPut s hub ep h
  | .tenant n =>
    let s := (ldOf s n).foldl (fun s i => ldRingPut s i h) s
    (s.host.subs.filter (fun x => x.1 == n)).foldl (fun s x => epPut s x.2.1 x.2.2 h) s

/-- The hub raises a notice (R15, R428): before RUN it is held for the system ring (R495). -/
def State.notice (s : State) (code : Nat) (args : List Nat := []) (ten : Nat := 0xFFFF) (job : Option Nat := none)
    (dst : NDest := .sys) : State :=
  if s.sup.stage = .run then
    deliverNotice s { code := code, ten := ten, job := job, args := args, tick := s.tk.num, time := s.time } dst
  else { s with host := { s.host with heldNotices := s.host.heldNotices ++ [{ code := code, tenant := ten, job := job, args := args, time := s.time, tick := s.tk.num }] } }
/-- A notice raised once per index per tick. -/
def State.onceTick (s : State) (code idx : Nat) (args : List Nat) : State :=
  if s.fab.raised.contains (code, idx) then s
  else ({ s with fab := { s.fab with raised := (code, idx) :: s.fab.raised } }).notice code args

end Sys2Proof.Machine
end

