-- ==== Sys2Proof/Machine/Switch.lean ====
section
/-! DEFINITION. Machine/Switch.lean: the switch core (spec/07) and the arbiters, shapers and gates it consults (spec/08): a cell
enters a VOQ, is matched, and leaves by its egress queue; credits and the link layer's numbering at an external port. -/

namespace Sys2Proof.Machine

open Sys2Proof

/-! ### Credits of an external port (R200) -/

def nth4 (l : List Nat) (v : Nat) : Nat := l.getD v 0
def add4 (l : List Nat) (v n : Nat) : List Nat := (List.range 4).map (fun i => if i = v then (nth4 l i + n) % 65536 else nth4 l i)
/-- New cells the port may still send on a virtual network. -/
def credit (p : Port) (v : Nat) : Nat := nth4 p.granted v - (nth4 p.sent v + 65536 - nth4 p.returned v) % 65536
/-- The buffer of a cell received on a port is freed: one credit goes back (R200). -/
def giveBack (s : State) (inp vn : Nat) : State :=
  if inp < 26 then let p := portGet s inp; portSet s inp { p with freed := add4 p.freed vn 1 } else s
/-- The entry of a cell is freed once no copy of it is queued (R216, R218) (log 20, DESIGN CHOICE). -/
def freeEntry (s : State) (q : QCell) : State :=
  if (s.fab.voq ++ s.fab.egress).any (fun x => x.id == q.id) then s else giveBack s q.inp q.c.vn

/-! ### Arbiter slots, shares and weights (R239 to R246) -/

/-- The share of a slot at an arbiter instance in force (R244). -/
def shareOf (s : State) (inst slot : Nat) : Nat := smGet (fun _ => 0) s.fab.shares (inst * 1024 + slot)
/-- The tenant weight in force (R240). -/
def weightOf (s : State) (slot : Nat) : Nat := smGet (fun _ => 16) s.fab.weights slot
/-- The reservation class and instance of an arbiter instance (Table 08-1). -/
def arbClass (inst : Nat) : Option (Nat × Nat) :=
  if inst < 26 then some (0x10, inst) else if inst < 34 then none
  else if inst < 36 then some (0x11, inst - 34) else if inst < 44 then some (0x12, inst - 36)
  else if inst < 60 then some (0x13, inst - 44) else if inst = 60 then some (0x04, 0) else none
/-- The arbiter slot a cell takes before translation, and the notice of an unlisted tag (R239). -/
def slotOf (s : State) (c : Cell) : Nat × State :=
  if c.tag = 0xFFFF then (512, s)
  else
    let e := smGet (fun _ => 0) s.fab.tags c.tag
    if bitOf e 15 then (bits e 9 0, s) else (513, s.onceTick 0x0423 c.tag [c.tag])

/-- A request at an arbitration point. -/
structure Rq where
  top : Nat
  slot : Nat
  inp : Nat
  cost : Nat
  q : QCell
deriving DecidableEq, Repr

/-- The ring brought up to the claimants that have requests queued (R247). -/
def drrSync (quantum : Nat → Nat) (d : Drr) (present : List Nat) : Drr :=
  let before := (d.ring.take d.cur).filter present.contains
  let after := (d.ring.drop d.cur).filter present.contains
  let new := present.filter (fun c => !d.ring.contains c)
  let gone := d.ring.filter (fun c => !present.contains c)
  let defs := gone.foldl (fun m c => smSet (fun _ => 0) m c (min (smGet (fun _ => 0) m c) (quantum c : Int))) d.defs
  let cur := (before ++ new).length
  { d with ring := before ++ new ++ after, cur := if after.isEmpty then 0 else cur, defs := defs }
/-- The next request of a claimant, round robin over its inputs. -/
def drrNext (d : Drr) (c : Nat) (reqs : List Rq) (ofC : Rq → Nat) : Option Rq :=
  let mine := reqs.filter (fun r => ofC r == c)
  let l := smGet (fun _ => 0) d.last c
  match mine.find? (fun r => l < r.inp) with
  | some r => some r
  | none => mine.head?
/-- drr_pick of R246. -/
def drrPick (quantum : Nat → Nat) (lmax : Nat) (reqs : List Rq) (ofC : Rq → Nat) : Nat → Drr → Option Rq × Drr
  | 0, d => (none, d)
  | fuel + 1, d =>
    match d.ring[d.cur]? with
    | none => (none, d)
    | some c =>
      match drrNext d c reqs ofC with
      | some r =>
        if (r.cost : Int) ≤ smGet (fun _ => 0) d.defs c then (some r, { d with last := smSet (fun _ => 0) d.last c r.inp })
        else
          let cur := (d.cur + 1) % d.ring.length
          let c2 := d.ring.getD cur 0
          drrPick quantum lmax reqs ofC fuel { d with cur := cur, defs := smSet (fun _ => 0) d.defs c2 (min (smGet (fun _ => 0) d.defs c2 + quantum c2) ((quantum c2 + lmax : Nat) : Int)) }
      | none =>
        let cur := (d.cur + 1) % d.ring.length
        let c2 := d.ring.getD cur 0
        drrPick quantum lmax reqs ofC fuel { d with cur := cur, defs := smSet (fun _ => 0) d.defs c2 (min (smGet (fun _ => 0) d.defs c2 + quantum c2) ((quantum c2 + lmax : Nat) : Int)) }
/-- Visits drr_pick may make. -/
def drrFuel (quantum : Nat → Nat) (lmax : Nat) (ring : List Nat) : Nat :=
  let qmin := (ring.map quantum).foldl min 1000000
  ring.length * (lmax / max qmin 1 + 2)
/-- pick of R246 over the eligible requests of one instance; `queued` are all its requests. -/
def arbPick (s : State) (inst lmax : Nat) (queued reqs : List Rq) : Option Rq × Arb :=
  let a := smGet (fun _ => {}) s.fab.arbs inst
  let green := (List.range 512).foldl (fun t n => t + shareOf s inst n) 0
  let q1 := s.fld F.SHP_ARB_Q1
  let q2 := s.fld F.SHP_ARB_Q2
  let qt := fun c => (if c = 1024 then 1024 - green else shareOf s inst c) * q1
  let qp := fun c => weightOf s c * q2
  let top := drrSync qt a.top ((queued.map Rq.top).eraseDups)
  let pool := drrSync qp a.pool (((queued.filter (fun r => r.top == 1024)).map Rq.slot).eraseDups)
  let (offer, pool) := drrPick qp lmax (reqs.filter (fun r => r.top == 1024)) Rq.slot (drrFuel qp lmax pool.ring) pool
  let treqs := reqs.filter (fun r => r.top ≠ 1024) ++ offer.toList
  let (r, top) := drrPick qt lmax treqs Rq.top (drrFuel qt lmax top.ring) top
  (r, { top := top, pool := pool })
def arbSet (s : State) (inst : Nat) (a : Arb) : State :=
  { s with fab := { s.fab with arbs := smSet (fun _ => {}) s.fab.arbs inst a } }
/-- charge of R246. -/
def arbCharge (s : State) (inst : Nat) (r : Rq) : State :=
  let a := smGet (fun _ => {}) s.fab.arbs inst
  let dec := fun (d : Drr) (c : Nat) => { d with defs := smSet (fun _ => 0) d.defs c (smGet (fun _ => 0) d.defs c - r.cost) }
  arbSet s inst { top := dec a.top r.top, pool := if r.top = 1024 then dec a.pool r.slot else a.pool }

/-- Charged length of a cell at an external port (R243). -/
def chargedLen (s : State) (q : Nat) (c : Cell) : Nat :=
  let b := if s.fld (F.SHP_PORT_LEN_MODE q) = 0 then 288
    else if c.ty = 0x02 then c.len + 1 else if c.ty = 0x01 ∨ c.ty = 0x12 then 0 else 256
  b + s.fld (F.SHP_PORT_LEN_OVH q)

/-! ### Token buckets and gates (R242, R251 to R255) -/

/-- Tokens of a bucket now: RATE × 250 in each SWX cycle, capped at BURST × 1,024 (log 89, DEDUCED). -/
def tokens (s : State) (b : Bucket) (rate burst : Nat) : Nat :=
  min (burst * 1024) (b.tokens + rate * 250 * (swxNow s - b.time))
def shaperTok (s : State) (q k : Nat) : Nat :=
  tokens s (smGet (fun _ => {}) s.fab.shapers (q * 16 + k)) (s.fld (F.SHP_SHP_CFG_RATE q k)) (s.fld (F.SHP_SHP_CFG_BURST q k))
def shaperSet (s : State) (q k t : Nat) : State :=
  { s with fab := { s.fab with shapers := smSet (fun _ => {}) s.fab.shapers (q * 16 + k) { tokens := t, time := swxNow s } } }
/-- Token reset (R253). -/
def shaperReset (s : State) (q k : Nat) : State :=
  shaperSet s q k (if s.flag (F.SHP_SHP_CFG_RST q k) then 0 else s.fld (F.SHP_SHP_CFG_BURST q k) * 1024)
def meterTok (s : State) (m : Nat) : Nat :=
  tokens s (smGet (fun _ => {}) s.fab.meters m) (s.fld (F.SHP_METER_RATE_RATE m)) (s.fld (F.SHP_METER_RATE_BURST m))
def meterSet (s : State) (m t : Nat) : State :=
  { s with fab := { s.fab with meters := smSet (fun _ => {}) s.fab.meters m { tokens := t, time := swxNow s } } }
def meterReset (s : State) (m : Nat) : State :=
  meterSet s m (if s.flag (F.SHP_METER_CFG_RST m) then 0 else s.fld (F.SHP_METER_RATE_BURST m) * 1024)
/-- The shaper a cell takes at its output port (R251). -/
def shaperOf (s : State) (q : Nat) (c : Cell) : Option Nat :=
  if c.vn > 2 then none else
  (List.range 16).find? (fun k => s.flag (F.SHP_SHP_CFG_EN q k) && bitOf (s.fld (F.SHP_SHP_MATCH_VNS q k)) c.vn
    && bitOf (s.fld (F.SHP_SHP_MATCH_COLOURS q k)) c.colour
    && (s.flag (F.SHP_SHP_MATCH_ANY_TAG q k) || s.fld (F.SHP_SHP_MATCH_TAG q k) == c.tag))
/-- The tick length at the stretch level in force (R34), and a unit's offset in it (R42). -/
def tickLen (s : State) : Nat := s.tk.base + s.tk.base * s.tk.cur / 64
def unitAt (s : State) (u : Nat) : Nat := tickLen s * u / 1024
/-- The close, in ps, of a window of gate g that a transmission beginning at `td` ps fits (R254, R255). -/
def gateFit (s : State) (q g td : Nat) : Option Nat :=
  (List.range 4).findSome? (fun w =>
    let r := smGet (fun _ => 0x4000000) s.fab.gates (q * 32 + g * 4 + w)
    let t0 := s.tk.start * 2000
    let op := t0 + unitAt s (bits r 9 0) * 2000
    let cl := t0 + unitAt s (bits r 26 16) * 2000
    if bitOf r 27 ∧ op ≤ td ∧ td + 750 ≤ cl then some cl else none)

/-! ### Entering a VOQ (R230 to R233) -/

/-- The trailer of a checkpoint tile leaves the sender: the wait for its acknowledgement begins (R177). -/
def trailerLeft (s : State) (c : Cell) : State :=
  if c.ty ≠ 0x22 ∨ !c.last ∨ c.src ≠ s.hubId then s
  else
    let mine := fun (x : Step) => x.cls == 1 && x.kind == 4 && getLE x.body 28 2 == getLE c.payload 2 2 && getLE x.body 12 2 % 4096 == c.dst
    let mark := fun (a : Ack) => if a.idx = getLE c.payload 4 4 ∧ a.left.isNone then { a with left := some s.tk.num } else a
    { s with seq := { s.seq with steps := s.seq.steps.map (fun x => if mine x then { x with acks := x.acks.map mark } else x) } }

/-- A cell is enqueued for a port under its colour profile (R232, R233) (log 97, DESIGN CHOICE). -/
def enqueueCopy (free : Bool) (s : State) (q : QCell) : State :=
  let act := s.fld (F.SWX_PROF_ACTION q.c.vn q.c.colour)
  if act ≠ 2 then voqMark s q
  else
    let (hit, s) := profileHit s q.out q.c
    if !hit then voqPut s q
    else
      let s := trailerLeft ((s.bump (F.SWX_PORT_CM_DROPPED q.out)).onceTick 0x0412 q.out [q.out]) q.c
      if free then giveBack s q.inp q.c.vn else s
/-- A cell that is not a multicast copy: its drop frees its buffer. -/
def enqueue (s : State) (inp out slot : Nat) (c : Cell) (id : Nat) : State := enqueueCopy true s (qcell s inp out slot c id)

/-! ### The shared cell buffer (R216, R217) -/

/-- The cells that hold an entry: port they came by, and header. The churn engines' held cells keep theirs (log 20, DESIGN CHOICE). -/
def inUse (s : State) : List (Nat × Cell) :=
  ((s.fab.voq ++ s.fab.egress).foldl (fun (l : List QCell) x => if l.any (fun y => y.id == x.id) then l else x :: l) []).map (fun x => (x.inp, x.c))
  ++ s.chrn.held.map (fun h => (h.inp, h.cell))
/-- The responses of the store gateways take entries of the shared pool (R217). -/
def poolCell (unit : Nat) (c : Cell) : Bool := (unit == 31 || unit == 32) && c.vn == 1
/-- Entries of the shared pool. -/
def poolSize (s : State) : Nat :=
  262144 - 26 * (s.fld F.FAB_CRED_INIT_VN0 + s.fld F.FAB_CRED_INIT_VN1 + s.fld F.FAB_CRED_INIT_VN2 + s.fld F.FAB_CRED_INIT_VN3) - 8 * s.fld F.SWX_BUF_INT_RES
/-- An internal port finds an entry for a cell: in its own reservation, else in the shared pool; the smallest reservation is 256. -/
def hasEntry (s : State) (unit : Nat) (c : Cell) : Bool :=
  let l := inUse s
  let own := fun (u : Nat) => (l.filter (fun e => e.1 == u && !poolCell e.1 e.2)).length
  let res := s.fld F.SWX_BUF_INT_RES
  decide (l.length < 256) || (!poolCell unit c && decide (own unit < res))
  || decide ((l.filter (fun e => poolCell e.1 e.2)).length + (List.range 8).foldl (fun n k => n + (own (26 + k) - res)) 0 < poolSize s)

/-- The response type of a VN0 request (R220, Table 10-2). -/
def rspType (ty : Nat) : Option Nat :=
  if ty = 0x01 then some 0x11 else if ty = 0x02 then some 0x12 else if ty = 0x03 then some 0x13
  else if 0x40 ≤ ty ∧ ty ≤ 0x43 then some 0x4D else none
/-- The header of every response the hub sends (R565). -/
def rspCell (s : State) (req : Cell) (ty status flags : Nat) (data : List Byte) : Cell :=
  { cell0 s ty with dst := req.src, dstEp := req.srcEp, txn := req.txn, tag := req.tag, colour := req.colour, addr := req.addr, opx := status, len := (if status = St.ok then flags else 0), payload := data }
/-- An unroutable cell: discarded and counted (R220). -/
def lostCell (s : State) (inp : Nat) (c : Cell) : State :=
  giveBack (trailerLeft ((s.bump F.SWX_NO_ROUTE_COUNT).onceTick 0x0410 c.dst [c.dst]) c) inp c.vn
/-- The store gateway of a cell's flow (R222). -/
def gatewayOf (s : State) (c : Cell) : Nat := 31 + flowHash s c / 4 % 2
/-- The churn port of an engine (Table 07-1). -/
def churnPort (inst : Nat) : Nat := if inst < 6 then 26 else if inst < 11 then 27 else 28
/-- The internal port of a cell of this hub's own for this hub (Table 07-2): its posts find their engine on arrival, its answers the
unit that waits for them. -/
def ownPort (s : State) (c : Cell) : Nat :=
  if (1 ≤ c.ty ∧ c.ty ≤ 3) ∨ (0x40 ≤ c.ty ∧ c.ty ≤ 0x4F) then gatewayOf s c
  else if c.ty = 0x20 ∨ c.ty = 0x22 then 26
  else if 0x11 ≤ c.ty ∧ c.ty ≤ 0x13 then ((s.fab.txns.find? (fun t => t.txn == c.txn)).map Txn.unit).getD 33
  else 33
/-! Multicast groups (R228, R229). -/
def groupGet (s : State) (g : Nat) : Nat := smGet (fun _ => 0) s.fab.groups g
/-- A multicast cell is replicated by the group of TXN; the copy applied here is queued for its store gateway. -/
def replicate (s : State) (u : Unsent) : State :=
  let c := u.c
  let e := groupGet s c.txn
  if !bitOf e 47 ∨ bits e 63 48 ≠ c.tag then giveBack ((s.bump F.SWX_MCAST_DROP_COUNT).onceTick 0x0411 c.txn [c.txn]) u.unit c.vn
  else
    let (slot, s) := slotOf s c
    let outs := (List.range 26).filter (fun n => bitOf e n && portUp s n && n != u.unit) ++ (if bitOf e 46 then [gatewayOf s c] else [])
    let s := outs.foldl (fun s n => enqueueCopy false s (qcell s u.unit n slot c u.id)) s
    if s.fab.voq.any (fun x => x.id == u.id) then s else giveBack s u.unit c.vn
/-- A cell that holds an entry takes its way: to the port named, or by the route table; one that cannot be routed is counted. -/
def launch (s : State) (u : Unsent) : State :=
  match u.port with
  | some p => if portUp s p then enqueueCopy true s { qcell s u.unit p 512 u.c u.id with stamp := u.stamp } else s
  | none =>
    if u.c.ty = 0x21 then replicate s u else
    let (slot, s) := slotOf s u.c
    match routeOf s u.c with
    | .ext p => enqueue s u.unit p slot u.c u.id
    | .here => enqueue s u.unit (ownPort s u.c) slot u.c u.id
    | .lost => lostCell s u.unit u.c
/-- A cell enters the switch core; while its internal port finds no entry it waits, and those after it (R217). -/
def send (s : State) (u : Unsent) : State :=
  if 26 ≤ u.unit ∧ (s.fab.unsent.any (fun x => x.unit == u.unit) ∨ !hasEntry s u.unit u.c) then { s with fab := { s.fab with unsent := s.fab.unsent ++ [u] } }
  else launch s u
/-- The waiting cells that find an entry now are sent. -/
def unsentGo (s : State) : State := s.fab.unsent.foldl send { s with fab := { s.fab with unsent := [] } }
/-- A cell is sent by the route table. -/
def sendPlain (s : State) (unit : Nat) (c : Cell) : State := let (id, s) := newCellId s; send s { id := id, unit := unit, c := c }
/-- The E_LINK answer to an unroutable VN0 request (R220, R289). -/
def linkAnswer (s : State) (c : Cell) : Cell :=
  match rspType c.ty with
  | some ty => rspCell s c ty St.link 0 []
  | none => rspCell s c 0x4D St.link 0 []
/-- An unroutable cell, answered with E_LINK if it is a VN0 request (R220). -/
def unroutable (s : State) (inp : Nat) (c : Cell) : State :=
  let s := lostCell s inp c
  if c.vn = 0 then sendPlain s 31 (linkAnswer s c) else s
/-- A cell of this hub enters the switch core from an internal port; one that cannot be routed is answered (R219, R220). -/
def sendFrom (s : State) (unit : Nat) (c : Cell) : State :=
  if c.ty = 0x21 then sendPlain s unit c else match routeOf s c with
  | .lost => let (_, s) := slotOf s c; unroutable s unit c
  | _ => sendPlain s unit c
/-- A copy on a named port, whatever the route table says. -/
def sendPort (s : State) (unit port : Nat) (c : Cell) : State :=
  if portUp s port then let (id, s) := newCellId s; send s { id := id, unit := unit, port := some port, c := c } else s
/-- A TICK cell is forwarded: its ingress stamp goes with it, so that its residence is known as it leaves (R26). -/
def forwardPort (s : State) (port : Nat) (c : Cell) (stamp : Nat) : State :=
  if portUp s port then let (id, s) := newCellId s; send s { id := id, unit := 33, port := some port, c := c, stamp := some stamp } else s
/-- A response to a request is sent from the store gateway of its flow (R222, R565). -/
def respond (s : State) (req : Cell) (ty status flags : Nat) (data : List Byte) : State :=
  sendFrom s (31 + flowHash s req / 4 % 2) (rspCell s req ty status flags data)

/-! ### Arrival on a port: link layer, ingress filter, form, meters (R194 to R205, R242) -/

/-- An ACK of value `a` acknowledges every cell before it (R196). -/
def ackPort (p : Port) (a : Nat) : Port :=
  let n := (a + 4096 - p.txAck) % 4096
  if n ≤ p.replay.length then { p with txAck := a, replay := p.replay.drop n } else p
/-- What the LINK field of an arriving cell says (R192), and its number (R196). A number appears in no field, so a command's cell is
the one the port expects, also after a NAK (R197; log 108, DESIGN CHOICE). -/
def linkIn (p : Port) (c : Cell) : Port :=
  let p := ackPort p c.ack
  { p with rxNext := (p.rxNext + 1) % 4096, nakWait := false, returned := (List.range 4).map (fun i => if i = c.cvn then c.ccnt else nth4 p.returned i) }
/-- Types an agent may send (Table 06-5). -/
def agentMay (c : Cell) : Bool :=
  [0x01, 0x02, 0x03, 0x11, 0x12, 0x13, 0x20, 0x21, 0x31].contains c.ty || (0x40 ≤ c.ty && (vnOf c.ty).isSome)
  || (c.ty == 0x30 && (getLE c.payload 0 1 == 2 || getLE c.payload 0 1 == 3))
/-- An endpoint number that Table 06-2 reserves. -/
def epReserved (ep : Nat) : Bool := 0x30 ≤ ep && ep ≤ 0xFD
/-- Responses, whose OPX is a status of Table 00-6. -/
def isRsp (ty : Nat) : Bool := ty == 0x11 || ty == 0x12 || ty == 0x13 || ty == 0x4C || ty == 0x4D
/-- R194: reserved type, wrong virtual network, or a header field its type uses out of range: among them a reserved source endpoint,
multicast group 0 and a reserved status (log 12, DESIGN CHOICE) (log 90, DEDUCED). -/
def badForm (c : Cell) : Bool :=
  vnOf c.ty != some c.vn || c.colour > 2 || c.dst > 4095 || c.src > 4095 || epReserved c.srcEp || (c.ty == 0x21 && c.txn == 0)
  || (isRsp c.ty && 0x12 < c.opx)
  || (c.vn != 3 && (if c.tag = 0xFFFF then c.addr ≥ 2 ^ 43 else c.addr ≥ 2 ^ 52))
/-- A cell discarded at a port, counted, with its notice once per port per tick. -/
def portDiscard (s : State) (n : Nat) (c : Cell) (code : Nat) : State :=
  giveBack ((s.bump (F.FAB_PORT_DISCARD_COUNT n)).onceTick code n [n]) n c.vn
/-- The ingress meter that applies (R242). -/
def meterOf (s : State) (n : Nat) (tag : Nat) : Option Nat :=
  (List.range 1024).find? (fun m => s.flag (F.SHP_METER_CFG_EN m) && s.fld (F.SHP_METER_CFG_PORT m) == n && s.fld (F.SHP_METER_CFG_TAG m) == tag)
/-- A green cell on an agent port is metered (R242). -/
def meterIn (s : State) (n : Nat) (c : Cell) : Cell × State :=
  if c.colour ≠ 0 then (c, s) else
  match meterOf s n c.tag with
  | some m =>
    let need := 1024 * chargedLen s n c
    let have' := meterTok s m
    if need ≤ have' ∧ 0 < s.fld (F.SHP_METER_RATE_RATE m) then (c, meterSet s m (have' - need))
    else ({ c with colour := 1 }, s.bump F.SHP_RECOLOUR_METERED)
  | none => ({ c with colour := 1 }, (s.bump F.SHP_RECOLOUR_UNMETERED).onceTick 0x0422 n [n])
/-- A cell enters on an external port (0 to 25) or from inside (26 to 33): the cell as the hub takes it, or its discard (R194, R205). -/
def ingress (s : State) (n : Nat) (c : Cell) : Option Cell × State :=
  if n ≥ 26 then (some c, s)
  else if !portUp s n then (none, s)
  else
    let s := portSet s n (linkIn (portGet s n) c)
    if agentPort s n then
      let c := { c with src := s.hubId, srcEp := if s.sup.upper then n + 0x18 else n }
      if !agentMay c ∨ c.tag = 0xFFFF then (none, portDiscard s n c 0x0407)
      else if badForm c then (none, portDiscard s n c 0x0408)
      else let (c, s) := meterIn s n c; (some c, s)
    else if badForm c then (none, portDiscard s n c 0x0408)
    else if c.tag = 0xFFFF ∧ ((portGet s n).peer.map Neg.domain) ≠ some (s.fld F.TICK_TREE_DOMAIN) then
      (none, portDiscard s n c 0x0407)
    else (some c, s)
/-- A row that performs a whole cell: arrival, then the effect, then the buffer's credit goes back. -/
def arrive (f : Cell → State → State) (n : Nat) (c : Cell) (s : State) : State :=
  match ingress s n c with
  | (none, s) => s
  | (some c, s) => giveBack (f c s) n c.vn

/-- A row that performs a cell at its home: arrival, then the effect here, or the cell goes on by the route table (R219). -/
def arriveHere (f : Cell → State → State) (n : Nat) (c : Cell) (s : State) : State :=
  match ingress s n c with
  | (none, s) => s
  | (some c, s) => match routeOf s c with
    | .here => giveBack (f c s) n c.vn
    | _ => sendFrom s n c

/-! ### Matching (R224 to R226, R250, R252) -/

/-- Output positions of a port per plane. -/
def positions (q : Nat) : Nat := if q < 26 then 2 else 4
/-- The VN3 and claimed cells ahead of a new claim at a port, as a departure time in ps (R255). -/
def departAt (s : State) (q : Nat) : Nat :=
  let n := (s.fab.egress.filter (fun x => x.out == q)).length
    + (s.fab.voq.filter (fun x => x.out == q && x.c.vn == 3)).length
  s.time * 2000 + n * 720
/-- A VOQ cell is free for an output of its port (R224, R250, R252). The spec says nowhere how many cells an internal port takes: it
signals room while its egress queue has any (log 20, DESIGN CHOICE). -/
def freeFor (s : State) (x : QCell) : Bool :=
  let q := x.out
  let v := x.c.vn
  let claimed := (s.fab.egress.filter (fun y => y.out == q && y.c.vn == v)).length
  if claimed ≥ 64 then false
  else if q ≥ 26 then true
  else
    let p := portGet s q
    if p.state ≠ .up ∨ credit p v ≤ claimed then false
    else if v < 3 ∧ x.c.colour ≠ 0 ∧ nth4 p.granted v * s.fld F.SHP_ARB_BE_CRED / 1024 ≤ (nth4 p.granted v - credit p v) + claimed then false
    else match shaperOf s q x.c with
      | none => true
      | some k =>
        1024 * chargedLen s q x.c ≤ shaperTok s q k
        && (let g := s.fld (F.SHP_SHP_CFG_GATE q k); g == 15 || (gateFit s q g (departAt s q)).isSome)
/-- A position of a plane: plane, port, number at the port. -/
abbrev Pos := Nat × Nat × Nat
/-- The place of a position in the rising order of its plane's positions, 0 to 83 (R226). -/
def Pos.ix (p : Pos) : Nat := if p.2.1 < 26 then 2 * p.2.1 + p.2.2 else 52 + 4 * (p.2.1 - 26) + p.2.2
/-- The heads of the tenant lists of some VOQs (R215). -/
def heads (l : List QCell) : List QCell :=
  (l.foldl (fun (acc : List (Nat × Nat × Nat) × List QCell) x =>
    let k := (x.inp, x.c.vn, x.c.tag)
    if acc.1.contains k then acc else (k :: acc.1, x :: acc.2)) ([], [])).2.reverse
/-- A request of a queued cell at its output's arbiter (R244), from input position `ix` of its plane. -/
def rqOf (s : State) (x : QCell) (ix : Nat) : Rq :=
  { top := if x.c.colour = 0 ∧ x.out < 26 ∧ 0 < shareOf s x.out x.slot then x.slot else 1024,
    slot := x.slot, inp := 84 * x.plane + ix, cost := if x.out < 26 then chargedLen s x.out x.c else 288, q := x }
/-- A matching in progress: the cell time its cells move in, its free input and output positions, the pairs it has claimed, and the
grants of the iteration: output, input, request. -/
structure Mtch where
  s : State
  slot : Nat
  freeIn : List Pos
  freeOut : List Pos
  paired : List (Pos × Pos)
  grants : List (Pos × Pos × Rq) := []
def allPositions : List Pos :=
  (List.range 4).flatMap (fun pl => (List.range 34).flatMap (fun q => (List.range (positions q)).map (fun o => (pl, q, o))))
/-- The matching for a slot that has made some pairs. -/
def mtchFrom (s : State) (slot : Nat) (l : List (Pos × Pos)) : Mtch :=
  { s := s, slot := slot, freeIn := allPositions.filter (!(l.map Prod.fst).contains ·), freeOut := allPositions.filter (!(l.map Prod.snd).contains ·), paired := l }
/-- The requests at an output position: from each free input position, the heads its port has queued for the output (R224, R225). -/
def requests (m : Mtch) (o : Pos) : List (Pos × Rq) :=
  let mine := m.s.fab.voq.filter (fun x => x.plane == o.1 && x.out == o.2.1)
  if mine.isEmpty then [] else
  let can := (heads mine).filter (freeFor m.s)
  (m.freeIn.filter (fun p => p.1 == o.1)).flatMap (fun p => (can.filter (fun x => x.inp == p.2.1)).map (fun x => (p, rqOf m.s x p.ix)))
/-- pick_out for one output position (R226). -/
def pickOut (m : Mtch) (o : Pos) : Mtch :=
  let s := m.s
  let q := o.2.1
  let reqs := requests m o
  let vn3 := reqs.filter (fun r => r.2.q.c.vn == 3)
  let key := o.1 * 1024 + o.ix
  if !vn3.isEmpty then
    let ptr := smGet (fun _ => 0) s.fab.rrOut key
    match (vn3.find? (fun r => ptr ≤ r.1.ix)).orElse (fun _ => vn3.head?) with
    | none => m
    | some r => { m with s := { s with fab := { s.fab with rrOut := smSet (fun _ => 0) s.fab.rrOut key ((r.1.ix + 1) % 84) } }, grants := m.grants ++ [(o, r)] }
  else if reqs.isEmpty then m
  else
    let queued := (s.fab.voq.filter (fun x => x.out == q && x.c.vn < 3)).map (fun x => rqOf s x 0)
    let (r, a) := arbPick s q (if q < 26 then 543 else 288) queued (reqs.map Prod.snd)
    let s := arbSet s q a
    match r.bind (fun r => (reqs.find? (fun x => x.2 == r))) with
    | none => { m with s := s }
    | some r => { m with s := s, grants := m.grants ++ [(o, r)] }
/-- The claim of a matched cell: it takes its place in the egress queue, where it moves in slot m, and its arbiter and shaper are charged
(R224, R225, R246, R252). -/
def claim (s : State) (m : Nat) (o : Pos) (r : Rq) : State :=
  let x := r.q
  let s := if x.c.vn < 3 then arbCharge s x.out r else s
  let gc := match (if x.out < 26 then shaperOf s x.out x.c else none) with
    | some k => let g := s.fld (F.SHP_SHP_CFG_GATE x.out k); if g = 15 then none else gateFit s x.out g (departAt s x.out)
    | none => none
  let s := match (if x.out < 26 then shaperOf s x.out x.c else none) with
    | some k => shaperSet s x.out k (shaperTok s x.out k - 1024 * chargedLen s x.out x.c)
    | none => s
  { s with fab := { s.fab with voq := s.fab.voq.erase x, egress := s.fab.egress ++ [{ x with mslot := m, pos := o.2.2, gateClose := gc }] } }
/-- The cell a grant claims now: the head of the VOQ it was given for, where that still holds one that is free. -/
def claimed (s : State) (r : Rq) : Option Rq :=
  ((s.fab.voq.find? (fun x => x.plane == r.q.plane && x.inp == r.q.inp && x.out == r.q.out && x.c.vn == r.q.c.vn && x.c.tag == r.q.c.tag)).filter (freeFor s)).map
    (fun x => rqOf s x (r.inp % 84))
/-- pick_in for one input position (R226). -/
def pickIn (it : Nat) (m : Mtch) (p : Pos) : Mtch :=
  let mine := m.grants.filter (fun g => g.2.1 == p)
  let key := p.1 * 1024 + p.ix
  let ptr := smGet (fun _ => 0) m.s.fab.rrIn key
  match (mine.find? (fun g => ptr ≤ g.1.ix)).orElse (fun _ => mine.head?) with
  | none => m
  | some (o, _, r) =>
    let s := m.s
    let s := if it = 1 then { s with fab := { s.fab with rrIn := smSet (fun _ => 0) s.fab.rrIn key ((o.ix + 1) % 84) } } else s
    match claimed s r with
    | none => { m with s := s }
    | some r => { m with s := claim s m.slot o r, freeIn := m.freeIn.erase p, freeOut := m.freeOut.erase o, paired := m.paired ++ [(p, o)] }
/-- One iteration of the matching on all planes (R225, R245). -/
def matchIter (m : Mtch) (it : Nat) : Mtch :=
  let m := (m.freeOut).foldl pickOut { m with grants := [] }
  { (m.freeIn).foldl (pickIn it) m with grants := [] }
/-- The averages at a cell time (R231), and the depth seen by sampling (R256). -/
def averages (s : State) : State :=
  (List.range 136).foldl (fun s k =>
    let d := depth s (k / 4) (k % 4)
    let a := smGet (fun _ => 0) s.fab.avg k
    if d = 0 ∧ a = 0 then s else
    let a' := ((a : Int) + Int.fdiv ((d : Int) * 256 - a) (2 ^ s.fld F.SWX_AVG_W : Nat)).toNat
    let p := smGet (fun _ => {}) s.fab.samps k
    { s with fab := { s.fab with avg := smSet (fun _ => 0) s.fab.avg k a', samps := smSet (fun _ => {}) s.fab.samps k { p with maxDepth := max p.maxDepth d } } }) s
/-- One cell time t: the averages; then, in turn, iteration 3 of the matching for t + 1 and iteration 1 of that for t + 2, and iterations
4 and 2 of them (R225, R231, Table 07-4; log 8, DEDUCED). -/
def matchSlot (s : State) : State :=
  let s := averages (unsentGo s)
  let a := matchIter (mtchFrom s (s.fab.slot + 1) s.fab.paired) 3
  let b := matchIter (mtchFrom a.s (s.fab.slot + 2) []) 1
  let a := matchIter { a with s := b.s } 4
  let b := matchIter { b with s := a.s } 2
  { b.s with fab := { b.s.fab with slot := s.fab.slot + 1, paired := b.paired } }
/-- The cells that have moved into their egress queues (R225). -/
def moved (s : State) : List QCell := s.fab.egress.filter (fun x => x.mslot < s.fab.slot)

/-! ### Leaving a port (R201, R249, R192, R196) -/

/-- The cell that leaves a port next. -/
def egressNext (s : State) (q : Nat) : Option QCell :=
  let mine := (moved s).filter (fun x => x.out == q)
  let v3 := mine.filter (fun x => x.c.vn == 3)
  match (v3.find? (fun x => x.c.ty == 0x30 && getLE x.c.payload 0 1 == 1)).orElse (fun _ => (v3.find? (fun x => x.c.ty == 0x33)).orElse (fun _ => v3.head?)) with
  | some x => some x
  | none => mine.foldl (fun b x => match b with
      | none => some x
      | some y => if x.mslot < y.mslot ∨ (x.mslot = y.mslot ∧ (x.plane < y.plane ∨ (x.plane = y.plane ∧ x.pos < y.pos))) then some x else some y) none
/-- Sampling of a departed cell's delay (R256). -/
def sampDelay (s : State) (x : QCell) : State :=
  let k := 4 * x.out + x.c.vn
  let d := swxNow s - x.arrived
  let p := smGet (fun _ => {}) s.fab.samps k
  { s with fab := { s.fab with samps := smSet (fun _ => {}) s.fab.samps k { p with maxDelay := max p.maxDelay d, sumDelay := p.sumDelay + d, cells := p.cells + 1 } } }
/-- A queued cell leaves its egress queue; its entry is freed with its last copy. -/
def dequeue (s : State) (x : QCell) : State :=
  freeEntry (sampDelay { s with fab := { s.fab with egress := s.fab.egress.erase x } } x) x
/-- An IDLE block: acknowledgement and cumulative credits (Table 06-2). -/
def ctlBlock (body : List Byte) : List Byte := let b := slice body 0 28; b ++ natLe 4 (crc32c b)
def idleBlock (p : Port) : List Byte :=
  ctlBlock (natLe 1 0x1E ++ natLe 2 p.rxNext ++ natLe 1 0 ++ (List.range 4).flatMap (fun v => natLe 2 (nth4 p.freed v)))
/-- Local stamp in 0.125 ns units (R17). -/
def stamp (s : State) (frac : Nat) : Nat := s.time * 16 + frac % 16
/-- What a tick cell takes up as it leaves: a forwarded TICK cell its residence in CORR (R26), a DELAY_REQ its STAMP_A and a
DELAY_RESP its STAMP_C, the send time (R27). -/
def tickOut (s : State) (x : QCell) : List Byte :=
  let pl := slice x.c.payload 0 256
  let sub := getLE pl 0 1
  let now := stamp s s.tk.frac
  if sub = 1 then (match x.stamp with | some a => patch pl 32 (natLe 8 (getLE pl 32 8 + (now - a))) | none => x.c.payload)
  else if sub = 2 then patch pl 40 (natLe 8 now)
  else if sub = 3 then patch pl 56 (natLe 8 now) else x.c.payload
/-- A scheduled cell leaves so late that 750 ps later its gate has closed (R255). -/
def gateLate (s : State) (x : QCell) : Bool := match x.gateClose with | some c => decide (c < s.time * 2000 + 750) | none => false
/-- The next cell leaves an external port, or an IDLE block does (R189, R196, R201, R249, R255). -/
def egressCell (s : State) (q : Nat) : State :=
  if q ≥ 26 ∨ !portUp s q then s else
  let p := portGet s q
  match (if p.replay.length < 2048 then egressNext s q else none) with
  | none => s.emit (.block q (idleBlock p))
  | some x =>
    let s := trailerLeft (dequeue s x) x.c
    let s := if gateLate s x then (s.bump F.SHP_GATE_LATE_COUNT).onceTick 0x0420 q [q] else s
    let p := portGet s q
    let s := if x.c.ty = 0x30 ∧ getLE x.c.payload 0 1 = 2 then { s with tk := { s.tk with delayReq := some (stamp s s.tk.frac) } } else s
    let c := if x.c.ty = 0x30 then { x.c with payload := tickOut s x } else x.c
    let c := { c with ack := p.rxNext, cvn := p.cvn, ccnt := nth4 p.freed p.cvn }
    let p := { p with txNext := (p.txNext + 1) % 4096, cvn := (p.cvn + 1) % 4, replay := p.replay ++ [(c, 0)], sent := add4 p.sent c.vn 1 }
    (portSet s q p).emit (.cell q c)

end Sys2Proof.Machine
end

