-- ==== Sys2Proof/Machine/Tiles.lean ====
section
/-! DEFINITION. Machine/Tiles.lean: the tile store (spec/02) and the barrow's room, slots, copies and locks (spec/03): what a
tile's read, store, shadow, publication and release do, once for every command that needs them. -/

namespace Sys2Proof.Machine

open Sys2Proof

/-! ### Tile map and slots (R62 to R70, R95 to R100) -/

def tileCount : Nat := 48234496
def noLoc : Nat := 0x3FFFFFF
def tileGet (s : State) (t : Nat) : Tile := smGet (fun _ => {}) s.st.tiles t
def tileSet (s : State) (t : Nat) (x : Tile) : State :=
  { s with st := { s.st with tiles := smSet (fun _ => {}) s.st.tiles t x } }
def stSet (s : State) (x : Store) : State := { s with st := x }
/-- A tile of the pair's other half, by its number: this half's engines reach it over the yoke link (R209) (log 26, DESIGN CHOICE). -/
def isPeer (t : Nat) : Bool := decide (tileCount ≤ t)
/-- The entries of the tile map of this half (R69). -/
def ownTiles (s : State) : SMap Tile := s.st.tiles.filter (fun e => !isPeer e.1)
/-- TIER, STACK and SLOT of a location (Table 02-3); bit 26 marks a slot of the other half. -/
def locFar (l : Nat) : Bool := bitOf l 25
def locStack (l : Nat) : Nat := bits l 24 21
def locPeer (l : Nat) : Bool := bitOf l 26
def mkLoc (far : Bool) (stack slot : Nat) : Nat := b2n far * 2 ^ 25 + stack * 2 ^ 21 + slot
def isNear (l : Nat) : Bool := l != noLoc && !locFar l
/-- Tenant slots that are in use, out of service or retained by a query snapshot. -/
def usedLocs (s : State) : List Nat :=
  ((s.st.tiles.flatMap (fun e => [e.2.loc, e.2.alt])).filter (· != noLoc) ++ s.st.bad ++ (s.st.retained.map Retain.loc).filter (· != noLoc)).eraseDups
/-- Those of the half that homes a tile, as locations within that half. -/
def halfLocs (s : State) (peer : Bool) : List Nat := ((usedLocs s).filter (fun l => locPeer l == peer)).map (· % 2 ^ 26)
def stackCount (far : Bool) : Nat := if far then 16 else 8
def stackSlots (far : Bool) : Nat := if far then 1966080 else 2097152
/-- Free tenant slots of a stack, and of a tier (TILE_FREE_SLOTS). -/
def stackFree (used : List Nat) (far : Bool) (k : Nat) : Nat :=
  stackSlots far - (used.filter (fun l => locFar l == far && locStack l == k)).length
def tierFree (s : State) (far : Bool) : Nat :=
  let used := halfLocs s false
  (List.range (stackCount far)).foldl (fun n k => n + stackFree used far k) 0
/-- The lowest free slot of a stack (R100). -/
def lowestSlot (used : List Nat) (far : Bool) (k : Nat) : Option Nat :=
  ((List.range (used.length + 1)).find? (fun n => n < stackSlots far && !used.contains (mkLoc far k n))).map (mkLoc far k)
/-- The slot taken for a tile in a tier: in the preferred stack if it has one free, else in the stack with the most free (R100). -/
def chooseSlot (s : State) (t : Nat) (far : Bool) (pref : Nat) : Option Nat :=
  let used := halfLocs s (isPeer t)
  let best := (List.range (stackCount far)).foldl (fun b k => if stackFree used far b < stackFree used far k then k else b) 0
  ((if pref < stackCount far then lowestSlot used far pref else none).orElse (fun _ => lowestSlot used far best)).map (· + b2n (isPeer t) * 2 ^ 26)
/-- Near-tier room of a job, and HELD (R95). -/
def jobRoom (s : State) (j : Nat) : Nat :=
  let x := jobGet s j
  if x.holds then (x.image.res.filter (fun r => r.cls == 0x20)).foldl (fun n r => n + r.amount) 0 else 0
def roomHeld (s : State) : Nat := jobSlots.foldl (fun n j => n + jobRoom s j) 0
/-- Near slots charged to a job (R96, R97). -/
def jobCharged (s : State) (j : Nat) : Nat :=
  (ownTiles s).foldl (fun n e => n + b2n (isNear e.2.loc && e.2.charges.contains j)
    + b2n (isNear e.2.alt && e.2.shCharge == some j)) 0
/-- U: near slots charged to the unscheduled pool (R95). -/
def roomUnsched (s : State) : Nat :=
  (ownTiles s).foldl (fun n e => n + b2n (isNear e.2.loc && e.2.charges.isEmpty) + b2n (isNear e.2.alt && e.2.shCharge.isNone)) 0
  + (s.st.retained.map Retain.loc).eraseDups.foldl (fun n l => n + b2n (isNear l && !locPeer l && !s.st.tiles.any (fun e => e.2.loc == l))) 0
def nearSlots : Nat := 16777216
/-- A near slot is free for this work: within the job's room, or within the unscheduled limit (R97, R98). -/
def nearRoom (s : State) (job : Option Nat) : Bool := match job with
  | some j => jobCharged s j < jobRoom s j
  | none => roomUnsched s < nearSlots - roomHeld s
/-- MIG_ROOM_SHORT: an unscheduled promotion or first store finds U at its limit; once per episode (Table 03-6). -/
def roomShort (s : State) : State :=
  if nearRoom s none ∨ s.st.roomShort then s else (stSet s { s.st with roomShort := true }).notice 0x0211
/-- The episode ends when U falls below its limit. -/
def roomEnd (s : State) : State := if s.st.roomShort && nearRoom s none then stSet s { s.st with roomShort := false } else s
/-- The tier a FREE tile's first slot is taken in (R75, R98). -/
def placeFar (x : Tile) : Bool := x.hint == 2 || x.hint == 4
/-- A slot for tile t: its own tier first, then the other; none counts a failure (R75, R98). The episode of failures ends when a
shadow is next taken. -/
def takeSlot (s : State) (t : Nat) (far : Bool) (job : Option Nat) (shadow : Bool) : Option Nat × State :=
  let near := fun (_ : Unit) => if isPeer t || nearRoom s job then chooseSlot s t false 255 else none
  let farS := fun (_ : Unit) => chooseSlot s t true 255
  let pick := if far then (farS ()).orElse near else (near ()).orElse farS
  match pick with
  | some l => (some l, if shadow ∧ !isPeer t then stSet s { s.st with noSlot := false } else s)
  | none =>
    if isPeer t then (none, s) else
    let s := s.bump F.TILE_NO_SLOT_COUNT_COUNT
    (none, if s.st.noSlot then s else (stSet s { s.st with noSlot := true }).notice 0x0203)

/-! ### Checksums (R67, R73) -/

def tileCrc (t : Nat) (payload : List Byte) : Nat := crc64 (payload ++ natLe 4 (t % tileCount))
def zeroCrc (t : Nat) : Nat := crc64 (natLe 4 (t % tileCount))
/-- The change of the checksum under a change of bytes at an offset. -/
def crcChange (crc off : Nat) (old new : List Byte) : Nat :=
  Nat.xor crc (crc64 (List.zipWith (fun a b => a ^^^ b) old new ++ List.replicate (65540 - off - new.length) 0))
/-- A slot written whole. -/
def slotFill (s : State) (loc : Nat) (d : List Byte) : State :=
  let base := loc * 65536
  let new := ((List.range 65536).zip d).filterMap (fun e => if e.2 = 0 then none else some (base + e.1, e.2))
  { s with mem := s.mem.filter (fun e => decide (e.1 < base)) ++ new ++ s.mem.filter (fun e => decide (base + 65536 ≤ e.1)) }
def slotBytes (s : State) (loc : Nat) : List Byte := if loc = noLoc then List.replicate 65536 0 else s.slotRead loc 0 65536

/-! ### Copies: their end and the flip (R108 to R116) -/

def copyOf (s : State) (t : Nat) : Option Copy := s.st.copies.find? (fun c => c.tile == t)
def copySet (s : State) (c : Copy) : State :=
  stSet s { s.st with copies := s.st.copies.map (fun x => if x.tile = c.tile then c else x) }
/-- A migration's lock of a tile ends, and those that yielded to it take their tiles up again (R121). -/
def dropMigLock (s : State) (t : Nat) : State :=
  let ids := (s.st.locks.filter (fun l => l.act == .migration && l.held && l.first == t)).map MLock.id
  stSet s { s.st with locks := (s.st.locks.filter (fun l => !ids.contains l.id)).map (fun l => { l with yielded := l.yielded.filter (fun i => !ids.contains i) }) }
def dropCopy (s : State) (t : Nat) : State := dropMigLock (stSet s { s.st with copies := s.st.copies.filter (fun x => x.tile != t) }) t
/-- A move is queued once for each asker. -/
def queueMove (s : State) (m : Move) : State := if s.st.queue.contains m then s else stSet s { s.st with queue := s.st.queue ++ [m] }
/-- A hint acts on unscheduled placement (R105); on a tile in transit, after its copy. -/
def applyHint (s : State) (t : Nat) : State :=
  let x := tileGet s t
  if isPeer t ∨ x.state = .free ∨ x.state = .inTransit ∨ x.loc = noLoc ∨ !x.charges.isEmpty then s
  else if (x.hint = 1 ∨ x.hint = 3) ∧ locFar x.loc then queueMove s { tile := t, promote := true }
  else if (x.hint = 2 ∨ x.hint = 4) ∧ isNear x.loc then queueMove s { tile := t, promote := false }
  else s
/-- The move a copy carried out: it is asked for again. -/
def Copy.move (c : Copy) : Move := { tile := c.tile, promote := c.promote, step := c.step, job := c.job, pref := c.pref, va := c.va }
/-- A copy ends without a flip: the destination is freed, the tile takes the state given (Table 02-4); within a prefetch step it is
started again (R119). -/
def endCopy (s : State) (t : Nat) (st : TState) : State :=
  let x := tileGet s t
  let c := copyOf s t
  let s := dropCopy (tileSet s t { x with state := st, alt := noLoc, shCharge := none }) t
  match c with
  | some c => if c.step.isSome then queueMove s c.move else s
  | none => s
/-- The length of a cut-over that ends now, at most its bound (R114). -/
def cutLength (s : State) (c : Copy) : State := match c.close with
  | some c0 => s.put F.MIG_STATS_CUT_CUT_LONGEST (max (min 1000 (s.time - c0)) (s.fld F.MIG_STATS_CUT_CUT_LONGEST))
  | none => s
/-- The flip of a cut-over: final copy, LOC set to ALT_LOC, source freed (R113); the job that asked for it, if still admitted, charges
the near slot (R96); a hint that waited takes effect (R105, R107). -/
def flipCopy (s : State) (t : Nat) : State :=
  match copyOf s t with
  | none => s
  | some c =>
    let x := tileGet s t
    let s := slotFill s x.alt (slotBytes s x.loc)
    let ch := match c.job with
      | some j => if c.promote ∧ (jobGet s j).holds ∧ !x.charges.contains j then j :: x.charges else x.charges
      | none => x.charges
    let s := tileSet s t { x with state := .sealed, loc := x.alt, alt := noLoc, charges := ch, shCharge := none }
    applyHint (roomEnd (dropCopy ((cutLength s c).bump F.MIG_STATS_DONE_COUNT) t)) t
/-- A copy is abandoned, counted and reported (R112, R114). -/
def abandonCopy (s : State) (t : Nat) : State :=
  let s := match copyOf s t with
    | some c => cutLength s c
    | none => s
  applyHint (((endCopy s t .sealed).bump F.MIG_STATS_ABANDON_COUNT).notice 0x0210 [t] (tileGet s t).tenant) t
/-- A request stamped now finds the tile in its cut-over and waits in its hold queue (R81, R113). -/
def inCutover (s : State) (t : Nat) : Bool := match (copyOf s t).bind Copy.close with | some c => decide (c ≤ s.time) | none => false
/-- Work of an engine meets a tile in cut-over: what it has done so far is undone, and it is done again after the cut-over. -/
def markStuck (s : State) : State := stSet s { s.st with stuck := true }
/-- Work that may meet a tile in cut-over: done, or put off by `later`. -/
def orLater (work later : State → State) (s : State) : State :=
  let u := work (stSet s { s.st with stuck := false })
  if u.st.stuck then later s else u

/-! ### Verification (R88 to R90) -/

/-- A slot is taken out of service (R90). -/
def slotBad (s : State) (loc : Nat) : State :=
  if loc = noLoc ∨ s.st.bad.contains loc then s
  else if locPeer loc then stSet s { s.st with bad := loc :: s.st.bad }
  else
    -- 32 points to this member in every herd (Table 16-1)
    let s : State := { s with herd := { s.herd with herds := s.herd.herds.map (fun e => (e.1, { e.2 with members := e.2.members.map (fun m => if m.hub = s.hubId then { m with score := satAdd 16 m.score 32 } else m) })) } }
    (stSet s { s.st with bad := loc :: s.st.bad }).notice 0x0204 [loc]
/-- Who reads: a requester word (Table 11-7), and for scheduled work its job and phase. -/
structure Reader where
  word : Nat
  job : Option Nat := none
  phase : Nat := 0
deriving DecidableEq, Repr
/-- A verification of a slot's contents failed twice: count, notice, slot out of service (R89, R90). -/
def slotFail (s : State) (t loc : Nat) (r : Reader) : State :=
  let x := tileGet s t
  if isPeer t then slotBad s loc
  else slotBad ((s.bump F.TILE_CRC_COUNT_RETIRED).notice 0x0201 [t, r.word, r.phase] x.tenant r.job (.tenant x.tenant)) loc
/-- A verification of a tile that failed twice: its state too (Table 02-4). -/
def verifyFail (s : State) (t : Nat) (r : Reader) : State :=
  let x := tileGet s t
  let s := match x.state with
    | .sealed => tileSet s t { x with state := .retired }
    | .shadowed => tileSet s t { x with oldLost := true }
    | .inTransit => endCopy s t .retired
    | _ => s
  slotFail s t x.loc r
/-- The read errors named by a command stay until a read of their tile meets them (log 101, DESIGN CHOICE). -/
def withUps (s : State) (ups : List Upset) : State := stSet s { s.st with ups := s.st.ups ++ ups }
/-- The next read of a tile's slot: none without an error, else whether the second read fails too; a cured one is counted. -/
def readError (s : State) (t : Nat) : Option Bool × State :=
  match s.st.ups.find? (fun u => u.tile == t) with
  | none => (none, s)
  | some u =>
    let s := stSet s { s.st with ups := s.st.ups.erase u }
    (some u.twice, if u.twice ∨ isPeer t then s else s.bump F.TILE_CRC_COUNT_CURED)
/-- A slot's contents read and verified against a checksum (R88, R89). -/
def slotVerify (s : State) (t loc crc : Nat) : Bool × State :=
  match readError s t with
  | (some twice, s) => (!twice, s)
  | (none, s) => (decide (tileCrc t (slotBytes s loc) = crc), s)
/-- The tile's contents verified at an engine use. -/
def verify (s : State) (t : Nat) (r : Reader) : Bool × State :=
  let x := tileGet s t
  let (ok, s) := slotVerify s t x.loc x.crc
  (ok, if ok then s else verifyFail s t r)
/-- A byte-path or row read of a tile's slot, under the tier controller's ECC: an uncorrectable error is a failed verification
(R88, R92). -/
def eccRead (s : State) (t : Nat) (r : Reader) : Bool × State :=
  let x := tileGet s t
  if x.state = .free ∨ x.loc = noLoc ∨ x.state = .retired then (true, s)
  else match readError s t with
    | (some true, s) => (false, verifyFail s t r)
    | (_, s) => (true, s)

/-! ### Reads (R87, R564) -/

/-- R317 and R318: a tile that is not FREE answers only to its tenant and key. -/
def keyOk (x : Tile) (ten key : Nat) : Bool := x.state == .free || (x.tenant == ten && x.key == key)
def touch (s : State) (t : Nat) : State :=
  let x := tileGet s t
  if x.state = .free then s else tileSet s t { x with lastUse := s.time }
/-- An engine's whole-tile read: status and payload. `fmt` is the format the descriptor names, none where it names none and a tile of
any FORMAT is read (log 105, DESIGN CHOICE). -/
def engineRead (s : State) (t : Nat) (fmt : Option Nat) (ten key : Nat) (r : Reader) : (Nat × List Byte) × State :=
  let x := tileGet s t
  let zeros := List.replicate 65536 (0 : Byte)
  if !keyOk x ten key then ((St.key, []), s)
  else match x.state with
  | .free => ((St.ok, zeros), s)
  | .retired => ((St.checksum, []), s)
  | .opened => ((St.tileOpen, []), s)
  | _ =>
    if x.state = .shadowed ∧ x.oldOpen then ((St.tileOpen, []), s)
    else if x.state = .shadowed ∧ x.oldLost then ((St.checksum, []), s)
    else if x.state = .shadowed ∧ x.loc = noLoc then ((St.ok, zeros), s)
    else if x.format ≠ 0 ∧ fmt.isSome ∧ fmt ≠ some x.format then ((St.badDesc, []), s)
    else
      let (ok, s) := verify s t r
      if ok then ((St.ok, slotBytes s x.loc), touch s t) else ((St.checksum, []), s)
/-- A byte-path load, or a row engine's row read: status and bytes (Table 02-5). -/
def byteRead (s : State) (t off n : Nat) : Nat × List Byte :=
  let x := tileGet s t
  match x.state with
  | .free => (St.ok, List.replicate n 0)
  | .retired => (St.checksum, [])
  | .shadowed =>
    if x.oldLost then (St.checksum, [])
    else if x.loc = noLoc then (St.ok, List.replicate n 0) else (St.ok, s.slotRead x.loc off n)
  | _ => (St.ok, s.slotRead x.loc off n)

/-! ### Byte-path stores (R73, R78, R98, Table 02-4) -/

/-- A store into a slot with its tile's checksum kept current by the change. -/
def storeAt (s : State) (t off : Nat) (d : List Byte) : State :=
  let x := tileGet s t
  let old := s.slotRead x.loc off d.length
  (tileSet s t { x with crc := crcChange x.crc off old d }).slotWrite x.loc off d
/-- A tile of an open collection's areas changes only through its mutations (R366; log 27, DEDUCED). -/
def collTile (s : State) (t : Nat) : Bool := s.hnd.colls.any (fun e => e.2.isOpen && e.2.areas.any (fun a => a.1 ≤ t && t < a.1 + a.2))
/-- A byte-path store of one request: its status. -/
def byteStore (s : State) (t off : Nat) (d : List Byte) (ten key : Nat) : Nat × State :=
  let x := tileGet s t
  if collTile s t then (St.busy, s) else
  match x.state with
  | .free =>
    match takeSlot (if placeFar x ∨ isPeer t then s else roomShort s) t (placeFar x) none false with
    | (none, s) => (St.busy, s)
    | (some l, s) =>
      let s := (s.slotZero l)
      let s := tileSet s t { x with state := .opened, loc := l, tenant := ten, key := key, format := 0, crc := zeroCrc t, charges := [], lastUse := s.time }
      (St.ok, applyHint (storeAt s t off d) t)
  | .sealed => (St.ok, storeAt (touch (tileSet s t { x with state := .opened }) t) t off d)
  | .opened => (St.ok, storeAt (touch s t) t off d)
  | .inTransit => let s := endCopy s t .opened; (St.ok, storeAt (touch s t) t off d)
  | .shadowed => (St.busy, s)
  | .retired => (St.checksum, s)
/-- The current pass of a copy reads the next k of its sub-blocks: their dirty bits are cleared (R109, R111, R112). -/
def Copy.read (c : Copy) (k : Nat) : Copy := { c with left := c.left.drop k, dirty := c.dirty.filter (fun i => !(c.left.take k).contains i) }
/-- A checked in-place write of a row (R74): the tile stays SEALED. A copy in progress has read some more of its pass by then, and
the sub-blocks touched that the pass does not come to any more are dirty (R111, R116) (log 96, DEDUCED). -/
def rowStore (s : State) (t off : Nat) (d : List Byte) : State :=
  let s := storeAt s t off d
  let s := tileSet s t { (tileGet s t) with rowWritten := true, lastUse := s.time }
  match copyOf s t with
  | none => s
  | some c =>
    let (n, s) := s.draw
    let c := c.read (Config.passReach n % (c.left.length + 1))
    let subs := (List.range 128).filter (fun i => off / 512 ≤ i && i ≤ (off + d.length - 1) / 512 && !c.left.contains i)
    copySet s { c with dirty := (c.dirty ++ subs).eraseDups }

/-! ### Shadows (R72, R75 to R77) -/

/-- The cutoff of a frame's tick has come. -/
def Post.over (p : Post) (t : Nat) : Bool := p.closed || decide (p.cut ≤ t)
/-- A posted frame is open for a tile: the tile takes no other shadow (R276). -/
def postedFrame (s : State) (t : Nat) : Bool := s.chrn.posts.any (fun p => p.tile == t && !p.over s.time)
/-- A shadow is taken for a tile by an engine (`eng`: class × 256 + instance) of a job or of none: its status. -/
def takeShadow (s : State) (t ten key eng : Nat) (job : Option Nat) : Nat × State :=
  let x := tileGet s t
  if collTile s t ∨ postedFrame s t then (St.busy, s)
  else if x.state = .shadowed then
    (if x.shStep = eng ∧ x.shJob = job then St.ok else St.busy, s)
  else
    match takeSlot s t (if x.state = .free then placeFar x else locFar x.loc) job true with
    | (none, s) => (St.busy, s)
    | (some l, s) =>
      let s := if x.state = .inTransit then endCopy s t .sealed else s
      let x := tileGet s t
      let x := if x.state = .free then { x with tenant := ten, key := key, loc := noLoc } else x
      (St.ok, tileSet s t { x with state := .shadowed, alt := l, oldOpen := x.state == .opened, oldLost := x.state == .retired, shJob := job, shStep := eng, shFull := false, shCrc := 0, shFormat := x.format, shCharge := if isNear l then job else none })
/-- Every payload byte of a shadow is written, and its checksum computed (R72). -/
def shadowWrite (s : State) (t fmt : Nat) (d : List Byte) : State :=
  let x := tileGet s t
  let d := slice d 0 65536
  tileSet (slotFill s x.alt d) t { x with shFull := true, shFormat := fmt, shCrc := tileCrc t d }

/-! ### Tick boundary and release (R71, R79, R83 to R85, R318) -/

/-- VERSION and SEAL_TICK of a reseal, publication or row-write boundary. -/
def versioned (x : Tile) (k : Nat) : Tile := { x with version := (x.version + 1) % 65536, sealTick := k, rowWritten := false }
def unshadow (x : Tile) : Tile := { x with alt := noLoc, oldOpen := false, oldLost := false, shJob := none, shStep := 0, shFull := false, shCrc := 0, shFormat := 0, shCharge := none }
/-- What boundary T(k) does to one tile; `drop` says whether a job's shadows are discarded. -/
def boundaryTile (drop : Option Nat → Bool) (k : Nat) (x : Tile) : Tile :=
  match x.state with
  | .opened => { versioned x k with state := .sealed }
  | .shadowed =>
    if x.shFull ∧ !drop x.shJob then
      let ch := if isNear x.alt then (match x.shCharge with | some j => if x.charges.contains j then x.charges else j :: x.charges | none => x.charges) else x.charges
      { unshadow (versioned x k) with state := .sealed, loc := x.alt, crc := x.shCrc, format := x.shFormat, charges := ch }
    else if x.loc = noLoc then { unshadow x with state := .free, tenant := 0, key := 0, format := 0, charges := [] }
    else
      let y := if x.oldOpen ∨ x.rowWritten then versioned x k else x
      { unshadow y with state := if x.oldLost then .retired else .sealed }
  | .retired => { x with rowWritten := false }
  | _ => if x.rowWritten then versioned x k else x
/-- Requests stamped before the boundary may still come to a SHADOWED tile: what they find there is kept (R83, R87). -/
def pastTile (s : State) (e : Nat × Tile) : List Past :=
  if e.2.state = .shadowed ∧ !isPeer e.1 then [{ tile := e.1, before := s.tk.start, lost := e.2.oldLost, data := slotBytes s e.2.loc }] else []
/-- Some request or cell stamped before t is still on its way. -/
def olderThan (s : State) (t : Nat) : Bool :=
  s.reqs.any (fun r => decide (r.time < t)) || s.fab.voq.any (fun q => decide (q.time < t)) || s.fab.skims.any (fun q => decide (q.time < t))
/-- Step 3 of R55, at T(k) = tk.start; a tile first written where its HINT does not place it is moved in the background (R98). -/
def boundaryTiles (s : State) (drop : Option Nat → Bool) (k : Nat) : State :=
  let past := (s.st.past ++ s.st.tiles.flatMap (pastTile s)).filter (fun p => olderThan s p.before)
  let first := (s.st.tiles.filter (fun e => e.2.state == .shadowed && e.2.loc == noLoc)).map Prod.fst
  first.foldl applyHint (roomEnd (stSet s { s.st with past := past, tiles := s.st.tiles.foldl (fun m e => smSet (fun _ => {}) m e.1 (boundaryTile drop k e.2)) s.st.tiles }))
/-- The tile as it stood in the tick of a timestamp, where a boundary has changed it since. -/
def pastOf (s : State) (t time : Nat) : Option Past := s.st.past.find? (fun p => p.tile == t && decide (time < p.before))
/-- Release of a tile (Table 02-4, R79, R105, R318): its slots are zeroised and freed. -/
def releaseTile (s : State) (t : Nat) : State :=
  let x := tileGet s t
  if x.state = .free then s else
  let s := dropCopy s t
  let s := if x.loc = noLoc then s else s.slotZero x.loc
  let s := if x.alt = noLoc then s else s.slotZero x.alt
  let s := stSet s { s.st with queue := s.st.queue.filter (fun q => q.tile != t), past := s.st.past.filter (fun p => p.tile != t) }
  roomEnd (tileSet s t { (default : Tile) with version := x.version, sealTick := x.sealTick })
where
  default : Tile := {}

/-! ### Demand, hints and victims (R101 to R107) -/

/-- A far-tier unscheduled use counts in the demand table (R102). -/
def demandUse (s : State) (t : Nat) : State :=
  let k := t % 65536
  let e := smGet (fun _ => {}) s.st.demand k
  let x := tileGet s t
  let set := fun (s : State) (d : Demand) => stSet s { s.st with demand := smSet (fun _ => {}) s.st.demand k d }
  let e' : Demand := if e.count = 0 then { tile := t, count := 1 } else if e.tile = t then { e with count := e.count + 1 } else { e with count := e.count - 1 }
  if e'.tile = t ∧ s.fld F.MIG_DEMAND_THRESH ≤ e'.count ∧ 0 < e'.count then
    let s := set s {}
    if s.flag F.MIG_CTL_DEMAND_EN ∧ x.hint ≠ 2 ∧ x.hint ≠ 4 then queueMove s { tile := t, promote := true } else s
  else set s e'
/-- A far tile: an unscheduled request to it takes the slow path. -/
def isSlow (s : State) (t : Nat) : Bool := let x := tileGet s t; x.state != .free && x.loc != noLoc && locFar x.loc
/-- The slow path of an unscheduled request that is served from a far tile: flag, count, demand (R101, R102). -/
def slowUse (s : State) (t : Nat) : Bool × State :=
  if !isSlow s t then (false, s)
  else if isPeer t then (true, s)
  else (true, demandUse (s.bump (F.MIG_SLOW_COUNT_COUNT (tileGet s t).tenant)) t)
/-- Group of a hint among victims: pin far, cold, none, hot; pin near is none (R103). -/
def victimGroup (hint : Nat) : Option Nat :=
  if hint = 4 then some 0 else if hint = 2 then some 1 else if hint = 0 then some 2 else if hint = 1 then some 3 else none
/-- Tiles on their way out of the unscheduled pool: demotions queued or in a copy. -/
def leaving (s : State) : List Nat :=
  ((s.st.queue.filter (fun q => !q.promote && q.job.isNone)).map Move.tile ++ (s.st.copies.filter (fun c => !c.promote && c.job.isNone)).map Copy.tile).eraseDups
/-- Unscheduled near tiles that may be victims: tile, tenant, group, last use. A copy starts only on a SEALED tile (R108), so an OPEN
or SHADOWED one leaves once it is sealed, and a RETIRED one never does (log 106, DEDUCED). -/
def victims (s : State) : List (Nat × Nat × Nat × Nat) :=
  (ownTiles s).filterMap (fun e =>
    if e.2.state ≠ .free ∧ e.2.state ≠ .retired ∧ isNear e.2.loc ∧ e.2.charges.isEmpty ∧ !(leaving s).contains e.1 then (victimGroup e.2.hint).map (fun g => (e.1, e.2.tenant, g, e.2.lastUse)) else none)
/-- Unscheduled near tiles of a tenant (R103). -/
def tenantNear (s : State) (n : Nat) : Nat :=
  (ownTiles s).foldl (fun c e => c + b2n (isNear e.2.loc && e.2.charges.isEmpty && e.2.tenant == n)) 0
/-- The next victim: heaviest tenant by near tiles over weight, then group, then oldest use (R103), then the lower tile (log 106, DESIGN CHOICE). -/
def pickVictim (s : State) : Option Nat :=
  let vs := victims s
  let ten := vs.foldl (fun (b : Option Nat) v => match b with
    | none => some v.2.1
    | some n =>
      let a := tenantNear s v.2.1 * weightOf s n
      let c := tenantNear s n * weightOf s v.2.1
      if c < a ∨ (c = a ∧ v.2.1 < n) then some v.2.1 else b) none
  (vs.filter (fun v => some v.2.1 == ten)).foldl (fun (b : Option (Nat × Nat × Nat × Nat)) v => match b with
    | none => some v
    | some w => if v.2.2.1 < w.2.2.1 ∨ (v.2.2.1 = w.2.2.1 ∧ v.2.2.2 < w.2.2.2) then some v else b) none |>.map Prod.fst
/-- The charges of a job end on one tile, or on every tile (R96, R107). -/
def uncharge (s : State) (t j : Nat) : State :=
  let x := tileGet s t
  if x.charges.contains j then applyHint (tileSet s t { x with charges := x.charges.filter (· != j) }) t else s
/-- A job is released or COMPLETE: its charges end, those of slots on the way to it too (R96). -/
def unchargeAll (s : State) (j : Nat) : State :=
  let s := stSet s { s.st with copies := s.st.copies.map (fun c => if c.job = some j then { c with job := none } else c),
                               queue := s.st.queue.map (fun q => if q.job = some j then { q with job := none } else q) }
  roomEnd (s.st.tiles.foldl (fun s e => uncharge (if e.2.shCharge = some j then tileSet s e.1 { (tileGet s e.1) with shCharge := none } else s) e.1 j) s)

/-! ### Maintenance locks (R120 to R123) -/

inductive LockOut where
  | go | yield | wait
deriving DecidableEq, Repr
/-- Table 03-5: row the holder, column the second activity. -/
def lockCell (h s : Activity) : LockOut :=
  match h, s with
  | .scrub, .scrub => .wait
  | .scrub, .checkpoint => .go
  | .scrub, _ => .yield
  | .migration, .scrub => .go
  | .migration, .migration => .wait
  | .migration, .checkpoint => .go
  | .migration, _ => .yield
  | .rebalance, .scrub => .go
  | .rebalance, .checkpoint => .go
  | .checkpoint, .scrub => .go
  | .checkpoint, .migration => .go
  | .checkpoint, .rebalance => .go
  | _, _ => .wait
def overlaps (a na b nb : Nat) : Bool := a < b + nb && b < a + na
def MLock.meets (l : MLock) (first count : Nat) : Bool := overlaps l.first l.count first count
/-- The place of an activity in Table 03-4. -/
def Activity.order : Activity → Nat
  | .scrub => 1
  | .migration => 2
  | .zeroise => 3
  | .rebalance => 4
  | .checkpoint => 5
  | .reclaim => 6
/-- The strictest outcome over the held locks that overlap (R122). -/
def lockOutcome (s : State) (act : Activity) (first count : Nat) : LockOut :=
  (s.st.locks.filter (fun l => l.held && l.yielded.isEmpty && l.meets first count)).foldl (fun o l =>
    match o, lockCell l.act act with
    | .wait, _ => .wait
    | _, .wait => .wait
    | .yield, _ => .yield
    | _, x => x) .go
/-- Ranges held; the table holds 256 (R123). -/
def locksHeld (s : State) : Nat := (s.st.locks.filter MLock.held).length
def lockFull (s : State) : Bool := 256 ≤ locksHeld s
def lockAdd (s : State) (act : Activity) (first count : Nat) (held : Bool) : Nat × State :=
  let id := s.st.nextLock
  (id, stSet s { s.st with nextLock := id + 1, locks := s.st.locks ++ [{ id := id, act := act, first := first, count := count, held := held, time := s.time }] })
/-- Holders that yield to lock `id` stop on the overlapping tiles; a migration ends its copy and is asked for again (R121). -/
def lockYield (s : State) (id : Nat) (act : Activity) (first count : Nat) : State :=
  let ys := s.st.locks.filter (fun l => l.held && l.id != id && l.yielded.isEmpty && l.meets first count && lockCell l.act act == .yield)
  ys.foldl (fun s l =>
    if l.act = .migration then
      match copyOf s l.first with
      | some c => queueMove (endCopy s l.first .sealed) c.move
      | none => dropMigLock s l.first
    else stSet s { s.st with locks := s.st.locks.map (fun x => if x.id = l.id then { x with yielded := id :: x.yielded } else x) }) s
/-- A commanded lock: the status, and the lock taken with OK. A command never waits, so the held locks alone decide (R121, R123). -/
def lockCommand (s : State) (act : Activity) (first count : Nat) : Nat × Nat × State :=
  if lockFull s then (St.busy, 0, s)
  else match lockOutcome s act first count with
    | .wait => (St.maint, 0, s.bump F.MIG_LOCKS_REFUSED)
    | _ => let (id, s) := lockAdd s act first count true; (St.ok, id, lockYield s id act first count)
/-- Waiting request w comes before request l: by timestamp, then in the order of Table 03-4 (R122). -/
def lockBefore (w l : MLock) : Bool := w.time < l.time || (w.time == l.time && (w.act.order < l.act.order || (w.act.order == l.act.order && w.id < l.id)))
/-- A waiting request may be granted: the table has room, no holder keeps it waiting, and no earlier request that overlaps it or that
could itself be granted is still waiting (R122, R123; log 46, DEDUCED). -/
def grantable (s : State) (l : MLock) : Bool :=
  !lockFull s && lockOutcome s l.act l.first l.count != .wait
  && s.st.locks.all (fun w => w.held || !lockBefore w l || !(w.meets l.first l.count || lockOutcome s w.act w.first w.count != .wait))
/-- A waiting request takes its lock. -/
def lockGrant (s : State) (l : MLock) : State :=
  lockYield (stSet s { s.st with locks := s.st.locks.map (fun x => if x.id = l.id then { x with held := true } else x) }) l.id l.act l.first l.count
/-- An internal lock request: granted at once (true), or waiting. -/
def lockInternal (s : State) (act : Activity) (first count : Nat) : Bool × Nat × State :=
  let (id, s) := lockAdd s act first count false
  match s.st.locks.find? (fun l => l.id == id) with
  | some l => if grantable s l then (true, id, lockGrant s l) else (false, id, s)
  | none => (false, id, s)
/-- A lock or a request for one ends. -/
def lockDrop (s : State) (id : Nat) : State :=
  stSet s { s.st with locks := (s.st.locks.filter (fun l => l.id != id)).map (fun l => { l with yielded := l.yielded.filter (· != id) }) }

/-! ### Starting a copy (R81, R103, R108) -/

/-- A queued move that no longer stands: its tile lies where it should, a job charges it, or its HINT forbids it (R103, R105, R107). -/
def moveStale (s : State) (m : Move) : Bool :=
  let x := tileGet s m.tile
  x.state == .free || x.state == .retired || x.loc == noLoc || locFar x.loc != m.promote
  || (m.step.isNone && (if m.promote then x.hint == 2 || x.hint == 4 else !x.charges.isEmpty || x.hint == 3))
def unqueue (s : State) (m : Move) : State := stSet s { s.st with queue := s.st.queue.erase m }
/-- The copy of a move begins under the tile's lock. -/
def beginCopy (s : State) (m : Move) (l : Nat) : State :=
  let s := stSet (unqueue s m) { (unqueue s m).st with copies := s.st.copies ++ [{ tile := m.tile, step := m.step, job := m.job, promote := m.promote, pref := m.pref, va := m.va }] }
  tileSet s m.tile { (tileGet s m.tile) with state := .inTransit, alt := l, shCharge := if m.promote then m.job else none }
/-- The barrow may start the move now: the tile SEALED, fewer than 64 copies, no forced state, a slot free; a promotion for the
unscheduled pool finds U below its limit, one for a job its room (R97, R103, R108). -/
def copySlot (s : State) (m : Move) : Option Nat :=
  if (tileGet s m.tile).state ≠ .sealed ∨ 64 ≤ s.st.copies.length ∨ s.damp.forced ∨ (m.promote ∧ !nearRoom s m.job) then none
  else chooseSlot s m.tile (!m.promote) m.pref
/-- One more victim is queued, unless a demotion is on its way already (R103). -/
def nextVictim (s : State) : State :=
  if !(leaving s).isEmpty then s
  else match pickVictim s with
    | some v => queueMove s { tile := v, promote := false }
    | none => s
/-- The barrow takes up a queued move of the unscheduled pool, or a scheduled one whose tile is ready. -/
def startCopy (s : State) (m : Move) : State :=
  if moveStale s m then unqueue s m
  else if m.promote ∧ m.job.isNone ∧ !nearRoom s none then nextVictim (roomShort s)
  else match copySlot s m with
    | none => s
    | some l =>
      if s.st.locks.any (fun k => k.act == .migration && k.first == m.tile) then s
      else
        let (go, _, s) := lockInternal s .migration m.tile 1
        if go then beginCopy s m l else s

end Sys2Proof.Machine
end

