-- ==== Sys2Proof/Machine/Translate.lean ====
section
/-! DEFINITION. Machine/Translate.lean: segments, inbound windows, the order of checks and the fault queue (spec/11). -/

namespace Sys2Proof.Machine

open Sys2Proof

/-! ### Entries (Tables 11-1, 11-3) -/

def Ent3.en (e : Ent3) : Bool := bitOf e.w0 63
def Ent3.vbase (e : Ent3) : Nat := bits e.w0 51 16
def Ent3.target (e : Ent3) : Nat := bits e.w1 58 32
def Ent3.limit (e : Ent3) : Nat := bits e.w1 26 0
def Ent3.segKey (e : Ent3) : Nat := bits e.w2 63 48
/-- Rights as a mask: bit 0 R, 1 W, 2 A. -/
def Ent3.rights (e : Ent3) : Nat := bits e.w2 2 0
def Ent3.src (e : Ent3) : Nat := bits e.w0 59 48
def Ent3.tag (e : Ent3) : Nat := bits e.w0 47 32
def Ent3.winTenant (e : Ent3) : Nat := bits e.w0 24 16
def Ent3.segMask (e : Ent3) : Nat := bits e.w0 15 8
def Ent3.kinds (e : Ent3) : Nat := bits e.w0 7 0
def Ent3.epMask (e : Ent3) : Nat := bits e.w1 49 0
def Ent3.keyEn (e : Ent3) : Bool := bitOf e.w2 47

def ent3Get (m : SMap Ent3) (i : Nat) : Ent3 := smGet (fun _ => {}) m i
def ent3Set (m : SMap Ent3) (i : Nat) (e : Ent3) : SMap Ent3 := smSet (fun _ => {}) m i e
/-- Reserved bits of an entry read 0 (R11). -/
def segClean (e : Ent3) : Ent3 :=
  { w0 := b2n e.en * 2 ^ 63 + e.vbase * 65536, w1 := e.target * 2 ^ 32 + e.limit, w2 := e.segKey * 2 ^ 48 + e.rights }
def winClean (e : Ent3) : Ent3 :=
  { w0 := b2n e.en * 2 ^ 63 + e.src * 2 ^ 48 + e.tag * 2 ^ 32 + e.winTenant * 65536 + e.segMask * 256 + e.kinds,
    w1 := e.epMask, w2 := e.segKey * 2 ^ 48 + b2n e.keyEn * 2 ^ 47 + e.rights }

/-- Tiles of the hub, or of the pair (R309). -/
def pairTiles (s : State) : Nat := if s.sup.yoked then 2 * tileCount else tileCount
/-- R310, against the entries as they will stand at the next boundary. -/
def segValid (s : State) (i : Nat) (e : Ent3) : Bool :=
  !e.en || (1 ≤ e.limit && e.vbase + e.limit ≤ 2 ^ 36 && e.target + e.limit ≤ pairTiles s
    && (List.range 8).all (fun k => let j := i / 8 * 8 + k
      let o := ent3Get s.xlt.segsNext j
      j == i || !o.en || !overlaps o.vbase o.limit e.vbase e.limit))
/-- R315: refused while the lock is set and the tenant is not OFF; a write that clears EN is accepted, whatever else it changes
(log 113, DEDUCED). -/
def segLocked (s : State) (i : Nat) (e : Ent3) : Bool :=
  let o := ent3Get s.xlt.segsNext i
  s.sup.lock && (tenantGet s (i / 8)).state != .off && !(o.en && !e.en)
  && ((e.en && !o.en)
      || (o.en && e.en && (e.vbase != o.vbase || e.limit != o.limit || e.target != o.target || e.segKey != o.segKey))
      || (e.rights &&& (7 - o.rights)) != 0)
/-- R320. -/
def winValid (s : State) (i : Nat) (e : Ent3) : Bool :=
  !e.en || (e.tag != 0xFFFF && s.xlt.winsNext.all (fun x => x.1 == i || !x.2.en || x.2.src != e.src || x.2.tag != e.tag))
/-- R321. -/
def subMask (new old : Nat) : Bool := new &&& old == new
/-- R321: refused while the lock is set and the entry is enabled; a write that disables it is accepted (log 113, DEDUCED). -/
def winLocked (s : State) (i : Nat) (e : Ent3) : Bool :=
  let o := ent3Get s.xlt.winsNext i
  s.sup.lock && o.en && e.en
  && (e.src != o.src || e.tag != o.tag || e.winTenant != o.winTenant || e.segKey != o.segKey || e.keyEn != o.keyEn
      || !subMask e.segMask o.segMask || !subMask e.kinds o.kinds || !subMask e.epMask o.epMask || !subMask e.rights o.rights)
/-- A segment write: the RESULT, and the entry in force from the next boundary (R314, R315). -/
def segWrite (s : State) (i : Nat) (e : Ent3) : Nat × State :=
  let e := segClean e
  if !segValid s i e then (St.badDesc, s)
  else if segLocked s i e then (St.rights, s)
  else (St.ok, { s with xlt := { s.xlt with segsNext := ent3Set s.xlt.segsNext i e } })
/-- A window write (R320, R321). -/
def winWrite (s : State) (i : Nat) (e : Ent3) : Nat × State :=
  let e := winClean e
  if !winValid s i e then (St.badDesc, s)
  else if winLocked s i e then (St.rights, s)
  else (St.ok, { s with xlt := { s.xlt with winsNext := ent3Set s.xlt.winsNext i e } })
/-- Both tables take effect at the boundary, at instant t (R314). -/
def xltBoundary (t : Nat) (s : State) : State :=
  { s with xlt := { s.xlt with segs := s.xlt.segsNext, wins := s.xlt.winsNext, segsOld := s.xlt.segs, winsOld := s.xlt.wins, turned := t } }
/-- The tables in force at the present timestamp: before the last boundary, those it replaced (R314; log 112, DEDUCED). -/
def segsAt (s : State) : SMap Ent3 := if s.time < s.xlt.turned then s.xlt.segsOld else s.xlt.segs
def winsAt (s : State) : SMap Ent3 := if s.time < s.xlt.turned then s.xlt.winsOld else s.xlt.wins

/-! ### Translation (R311 to R313, R322) -/

/-- The enabled segment of a tenant that holds VA. -/
def segOf (s : State) (ten va : Nat) : Option (Nat × Ent3) :=
  (List.range 8).findSome? (fun k =>
    let e := ent3Get (segsAt s) (8 * ten + k)
    if e.en ∧ e.vbase ≤ va / 65536 ∧ va / 65536 < e.vbase + e.limit then some (k, e) else none)
/-! Rights needed, as a mask (Table 11-2). -/
namespace Need
def r : Nat := 1
def w : Nat := 2
def rw : Nat := 3
def a : Nat := 4
end Need
/-- What a translated request carries on: the pair-local tile, the offset, the tenant and the segment's key. -/
structure Xl where
  tile : Nat
  off : Nat
  ten : Nat
  key : Nat
deriving DecidableEq, Repr
/-- What admits a request: an inbound window, or none for an LD, an engine step or a command. -/
abbrev Win := Option Ent3
/-- Check 2 of Table 11-5. -/
def tenantCheck (s : State) (ten : Nat) : Nat := match (tenantGet s ten).state with
  | .on => St.ok
  | .off => St.unmapped
  | _ => St.quiescing
/-- Checks 4, 5 and the first half of 7, and the tile map half of 7 (R317), for one address. -/
def xlate (s : State) (ten va need : Nat) (w : Win) : Nat × Xl :=
  match segOf s ten va with
  | none => (St.unmapped, ⟨0, 0, ten, 0⟩)
  | some (k, e) =>
    let tile := e.target + (va / 65536 - e.vbase)
    let rights := match w with | some w => e.rights &&& w.rights | none => e.rights
    let x : Xl := ⟨tile, va % 65536, ten, e.segKey⟩
    if (match w with | some w => !bitOf w.segMask k | none => false) then (St.unmapped, x)
    else if pairTiles s ≤ tile then (St.unmapped, x)
    else if rights &&& need ≠ need then (St.rights, x)
    else if (match w with | some w => w.keyEn && w.segKey != e.segKey | none => false) then (St.key, x)
    else (St.ok, x)
/-- The tile map half of check 7 for a tile homed here. -/
def keyCheck (s : State) (x : Xl) : Nat := if keyOk (tileGet s x.tile) x.ten x.key then St.ok else St.key
/-- Whether a pair-local tile is homed in this half (R209), and its hub-local number. -/
def homedHere (s : State) (tile : Nat) : Bool := !s.sup.yoked || (decide (tileCount ≤ tile)) == s.sup.upper
def localTile (tile : Nat) : Nat := tile % tileCount
/-- The number a pair-local tile has in this half's state: its hub-local number, beyond tileCount where the other half homes it
(R209) (log 26, DESIGN CHOICE). -/
def tileId (s : State) (tile : Nat) : Nat := if homedHere s tile then localTile tile else tileCount + localTile tile
/-- The pair-local number of a tile of this half's state. -/
def pairTile (s : State) (t : Nat) : Nat := if s.sup.yoked ∧ s.sup.upper ≠ decide (tileCount ≤ t) then tileCount + localTile t else localTile t

/-! ### The fault queue (R324 to R330) -/

def statusMask (st : Nat) : Nat := if st = St.unmapped then 1 else if st = St.rights then 2 else if st = St.key then 4 else 0
def ovfGet (s : State) (n : Nat) : Ovf := smGet (fun _ => {}) s.xlt.ovf n
def ovfSet (s : State) (n : Nat) (o : Ovf) : State := { s with xlt := { s.xlt with ovf := smSet (fun _ => {}) s.xlt.ovf n o } }
def nextSeqOf (n : Nat) : Nat := if (n + 1) % 2 ^ 32 = 0 then 1 else (n + 1) % 2 ^ 32
/-- R326 step 1: the fault merges. -/
def fltMerge (e : FltE) (st va tick req : Nat) : FltE :=
  let listed := e.reqs.contains req
  { e with count := satAdd 32 e.count 1, mask := e.mask ||| statusMask st, lastVa := va, lastTick := tick,
           reqs := if listed ∨ e.reqs.length ≥ 8 then e.reqs else e.reqs ++ [req],
           more := e.more || (!listed && e.reqs.length ≥ 8) }
/-- A translation fault is recorded (R326, R329, R330). `req` is the requester word, `need` the rights it required. -/
def fault (s : State) (ten va st need req : Nat) : State :=
  let s := s.bump F.FLT_TOTAL_COUNT
  let seg := match segOf s ten va with | some (k, _) => k | none => 8
  let vt := va / 65536
  let same := fun (e : FltE) => e.tenant == ten && e.seg == seg && e.vtile == vt
  let fs := s.xlt.faults
  let setF := fun (s : State) (l : List FltE) => { s with xlt := { s.xlt with faults := l } }
  if fs.any same then setF s (fs.map (fun e => if same e then fltMerge e st va s.tk.num req else e))
  else if fs.length < 1024 ∧ (fs.filter (fun e => e.tenant == ten)).length < s.fld F.FLT_CTL_TENANT_MAX ∧ (ovfGet s ten).count = 0 then
    let e : FltE := { seq := s.xlt.nextSeq, count := 1, tenant := ten, seg := seg, mask := statusMask st, status := st, vtile := vt, firstVa := va, lastVa := va, more := false, access := need, firstTick := s.tk.num, lastTick := s.tk.num, reqs := [req] }
    let s := { s with xlt := { s.xlt with faults := fs ++ [e], nextSeq := nextSeqOf s.xlt.nextSeq } }
    s.notice 0x0601 [seg, vt, st, req] ten none (.tenant ten)
  else
    let o := ovfGet s ten
    let s' := ovfSet s ten { count := satAdd 64 o.count 1, first := if o.count = 0 then va else o.first, last := va }
    if o.count = 0 then s'.notice 0x0602 [] ten none (.tenant ten) else s'
/-- The ten words of an entry (Table 11-6). -/
def fltWords (e : FltE) : List Nat :=
  let rq := fun i => e.reqs.getD i 0
  [e.seq * 2 ^ 32 + e.count,
   e.tenant * 2 ^ 51 + e.seg * 2 ^ 47 + e.mask * 2 ^ 44 + e.status * 2 ^ 36 + e.vtile % 2 ^ 36,
   e.firstVa,
   b2n e.more * 2 ^ 63 + e.reqs.length * 2 ^ 59 + e.lastVa,
   e.access * 2 ^ 48 + e.firstTick,
   e.lastTick,
   rq 1 * 2 ^ 32 + rq 0, rq 3 * 2 ^ 32 + rq 2, rq 5 * 2 ^ 32 + rq 4, rq 7 * 2 ^ 32 + rq 6]
/-- A pop through FLT_POP (R328). -/
def fltPop (s : State) (seq : Nat) : State :=
  match s.xlt.faults with
  | [] => s
  | e :: rest =>
    if e.seq = seq then
      let s := { s with xlt := { s.xlt with faults := rest } }
      ((List.range 10).zip (fltWords e)).foldl (fun s p => s.put (F.FLT_POP_DATA_WORD p.1) p.2) s
    else s
/-- Requester words (Table 11-7). -/
def reqEngine (cls inst : Nat) (sched : Bool) (job : Nat) : Nat :=
  0x10000000 + cls * 2 ^ 24 + inst * 2 ^ 16 + b2n sched * 2 ^ 15 + (if sched then job else 0)
def reqFabric (c : Cell) : Nat := 0x20000000 + c.src * 256 + c.srcEp
def reqLd (s : State) (i : Nat) : Nat := 0x30000000 + b2n s.sup.upper * 16 + i
def reqSys : Nat := 0x40000000

/-! ### Inbound windows (R319 to R323) -/

/-- KINDS bit of a cell type (Table 11-4). -/
def kindBit (ty : Nat) : Option Nat :=
  if ty = 0x01 then some 0 else if ty = 0x02 then some 1 else if ty = 0x03 then some 2 else if ty = 0x20 then some 3
  else if ty = 0x21 then some 4 else if ty = 0x22 then some 5 else if ty = 0x31 then some 6
  else if 0x40 ≤ ty ∧ ty ≤ 0x43 then some 7 else none
def epBit (ep : Nat) : Option Nat := if ep ≤ 0x2F then some ep else if ep = 0xFE then some 48 else if ep = 0xFF then some 49 else none
/-- Check 1 of Table 11-5: the window that admits a cell. -/
def winOf (s : State) (c : Cell) : Option Ent3 :=
  match ((winsAt s).map Prod.snd).find? (fun w => w.en && w.src == c.src && w.tag == c.tag) with
  | none => none
  | some w => match epBit c.srcEp, kindBit c.ty with
    | some b, some k => if bitOf w.epMask b ∧ bitOf w.kinds k then some w else none
    | _, _ => none
/-- A cell refused at check 1 is counted and reported (R323). -/
def winRefused (s : State) (c : Cell) : State := (s.bump F.WIN_REFUSED_COUNT).onceTick 0x0603 c.src [c.src, c.tag]

end Sys2Proof.Machine
end

