-- ==== Sys2Proof/Machine/MbxCore.lean ====
section
/-! DEFINITION. Machine/MbxCore.lean: what every mailbox command does before its own effect: a busy mailbox, the state of the LD's
function, RECOVERY, and the issuer (R418, R423, R425, R427, R494). -/

namespace Sys2Proof.Machine

open Sys2Proof

/-- Who may issue a vendor command (R427). -/
inductive Issuer where
  | ten | sys | tenSys | priv
deriving DecidableEq, Repr

/-- A tenant holds the privileged flag (R353). -/
def privileged (s : State) (n : Nat) : Bool := bitOf (s.fld (F.ROWE_PRIV_MASK (n / 64))) (n % 64)
/-- The tenant a mailbox acts for; none for the system context. -/
def mbxTenant (s : State) (mb : Mbx) : Option Nat := match mb with
  | .ld i => some (ldTenant s i)
  | _ => none
def issuerOk (s : State) (mb : Mbx) (iss : Issuer) : Bool :=
  match mb, iss with
  | .gone, _ => false
  | .ld _, .ten => true
  | .ld _, .tenSys => true
  | .ld i, .priv => privileged s (ldTenant s i)
  | .ld _, .sys => false
  | _, .sys => true
  | _, .tenSys => true
  | _, _ => false
/-- Status of a command refused for its LD's state (R418). -/
def ldRefusal (s : State) (mb : Mbx) : Option Nat := match mb with
  | .ld i => match (ldGet s i).state with
    | .on => none
    | .off => some St.unmapped
    | _ => some St.quiescing
  | _ => none
/-- A vendor command: refused before its effect, or its effect. -/
def vendor (mb : Mbx) (iss : Issuer) (f : State → State) (s : State) : State :=
  if s.host.busy.contains (mbxKey mb) then s.cxl mb .busy
  else if s.sup.stage = .recovery then s.reply mb St.busy
  else match ldRefusal s mb with
    | some st => s.reply mb st
    | none => if issuerOk s mb iss then f s else s.reply mb St.rights
/-- A CXL command (Table 15-3): refused before its effect, or its effect. -/
def cxlCmd (mb : Mbx) (f : State → State) (s : State) : State :=
  if mb = .gone then s
  else if s.host.busy.contains (mbxKey mb) then s.cxl mb .busy
  else if s.sup.stage = .recovery then s.reply mb St.busy
  else match ldRefusal s mb with
    | some _ => s.cxl mb .mediaDisabled
    | none => f s
/-- The status a mailbox command of the sideband is turned away with before it starts: no main power, or one still running
(R543, R544); and whether the sideband is reachable at all (R531). -/
def sbRefusal (s : State) : Option Nat := if !s.on then some St.power else if s.host.sb.state = 1 then some St.busy else none
/-- MBX_GO: the doorbell of the sideband's mailbox. -/
def sbGo (s : State) : State := ({ s with host := { s.host with sb := { s.host.sb with state := 1 } } }).emit (.sideband [0])
/-- A command of a mailbox reaches the hub: `f` is its effect. -/
def mbxGate (mb : Mbx) (f : State → State) (s : State) : State :=
  if mb = .sideband then
    (if !s.sup.aux then s else match sbRefusal s with
      | some st => s.emit (.sideband (natLe 1 st))
      | none => f (sbGo s))
  else if s.on then f s else s
/-- A mailbox command that cannot reach the supervisor. -/
def mbxOnly (mb : Mbx) (f : State → State) (s : State) : Out State :=
  .next { mbxGate mb f s with sup := s.sup, pending := s.pending }
/-- A mailbox command of the Cellar, of trust and of keys. -/
def mbxSup (mb : Mbx) (f : State → State) (s : State) : Out State := .next { mbxGate mb f s with pending := s.pending }
/-- A vendor command that answers a status and data at once. -/
def answer (mb : Mbx) (r : (Nat × List Byte) × State) : State := r.2.reply mb r.1.1 r.1.2

end Sys2Proof.Machine
end

