-- ==== Sys2Proof/Machine/Tick.lean ====
section
/-! DEFINITION. Machine/Tick.lean: the tick tree, tick cells, delay measurement, stretch requests and alignment (spec/01): the
operations a boundary uses, and the meanings of the rows that need no boundary. -/

namespace Sys2Proof.Machine

open Sys2Proof

def tkSet (s : State) (t : Tick) : State := { s with tk := t }
/-- The upper half of a pair follows the lower one over the yoke link (R24). -/
def follows (s : State) : Bool := s.sup.yoked && s.sup.upper
/-- This hub is a tick root: no parent port, or its own root after tick loss (R22, R31). -/
def isRoot (s : State) : Bool := (s.fld F.TICK_TREE_PARENT == 31 && !follows s) || s.tk.lostRoot
/-- The port towards the tick parent; the upper half of a pair takes a yoke port (R22, R24; log 73, DEDUCED). -/
def parentPort (s : State) : Nat := if follows s then (yokePorts s).headD 24 else s.fld F.TICK_TREE_PARENT
def childPorts (s : State) : List Nat :=
  let l := (List.range 26).filter (fun n => bitOf (s.fld F.TICK_CHILDREN_MASK) n)
  if s.sup.yoked ∧ !s.sup.upper then l.filter (fun n => n < 24) ++ (yokePorts s).take 1 else l
/-- The largest of the hub's own wanted level and its children's latest requests (R37). -/
def wantMax (s : State) : Nat := ((childPorts s).map (fun n => ((s.tk.childReq.find? (fun e => e.1 == n)).map Prod.snd).getD 0)).foldl max (max s.damp.want s.damp.upperWant)
/-- A tick cell's payload (Table 01-1). -/
def tickPayload (s : State) (sub tick cur pend at' period corr a b c : Nat) : List Byte :=
  natLe 1 sub ++ natLe 1 0 ++ natLe 2 (s.fld F.TICK_TREE_DOMAIN) ++ natLe 2 (s.fld F.TICK_TREE_ROOT) ++ natLe 2 s.hubId ++ natLe 6 tick
  ++ natLe 1 cur ++ natLe 1 pend ++ natLe 6 at' ++ natLe 2 0 ++ natLe 4 period ++ natLe 4 0 ++ natLe 8 corr ++ natLe 8 a ++ natLe 8 b ++ natLe 8 c
def tickCell (s : State) (pl : List Byte) : Cell := { cell0 s 0x30 with tag := 0xFFFF, payload := pl }
/-- The TICK cell that opens the current tick, on every child port (R26). `inp` is the port it is relayed from, 33 at the root. -/
def sendTicks (s : State) (inp : Nat) (pl : List Byte) : State :=
  (childPorts s).foldl (fun s n => sendPort s inp n (tickCell s pl)) s
def rootTick (s : State) : State :=
  sendTicks s 33 (tickPayload s 1 s.tk.num s.tk.cur ((s.tk.pend.map Prod.fst).getD 0) ((s.tk.pend.map Prod.snd).getD 0) s.tk.base 0 0 0 0)
/-- The root announces a level it does not hold yet for two ticks on; an announcement stands until its
tick, and a maximum that changes meanwhile is announced after it (R35, R37; log 104, DESIGN CHOICE). -/
def announce (s : State) : State :=
  if isRoot s ∧ s.tk.pend.isNone ∧ min 64 (wantMax s) ≠ s.tk.cur then tkSet s { s.tk with pend := some (min 64 (wantMax s), s.tk.num + 2) } else s
/-- A member asks its parent for a changed level; the TICK field of the STRETCH_REQ is 0 (R37; log 104, DESIGN CHOICE). -/
def askStretch (s : State) : State :=
  let w := min 64 (wantMax s)
  if isRoot s ∨ w = s.tk.asked then s
  else sendPort (tkSet s { s.tk with asked := w }) 33 (parentPort s) (tickCell s (tickPayload s 4 0 s.tk.cur w 0 s.tk.base 0 0 0 0))
/-- A tick cell of a foreign domain is discarded and counted (R25). -/
def foreign (s : State) (c : Cell) : Bool := getLE c.payload 2 2 != s.fld F.TICK_TREE_DOMAIN
def countForeign (s : State) : State := tkSet s { s.tk with foreign := satAdd 32 s.tk.foreign 1 }
/-- The fraction of the timebase at an instant the hub stamps (R17). -/
def atFrac (frac : Nat) (s : State) : State := tkSet s { s.tk with frac := frac % 16 }
/-- The length of tick k, as the hub knows the stretch levels now (R34, R35). -/
def lenAt (s : State) (k : Nat) : Nat :=
  let c := match s.tk.pend with | some (l, at') => if at' ≤ k then l else s.tk.cur | none => s.tk.cur
  s.tk.base + s.tk.base * c / 64
/-- T(k) of a tick near the present one. -/
def tickTime (s : State) (k : Nat) : Nat :=
  if k = s.tk.num then s.tk.start
  else if s.tk.num < k then
    let n := k - s.tk.num
    (List.range (min n 64)).foldl (fun t i => t + lenAt s (s.tk.num + i)) s.tk.start + (n - 64) * lenAt s (s.tk.num + 64)
  else s.tk.start - (s.tk.num - k) * tickLen s
/-- The offset of the member's own T(k) to the root's, from a TICK cell (R28). -/
def tickOffset (s : State) (c : Cell) : Int :=
  let est : Int := (stamp s s.tk.frac : Int) - getLE c.payload 32 8
  (tickTime s (getLE c.payload 8 6) * 16 : Nat) - est
/-- What an accepted TICK cell tells a member that has joined: presence, offset, announcement (R28, R31, R35). -/
def tickTake (s : State) (c : Cell) : State :=
  let at' := getLE c.payload 16 6
  let off := tickOffset s c
  tkSet s { s.tk with got := true, missed := 0, holdover := false, mismatch := false, offset := off, aligned := decide (off.natAbs ≤ 80),
                      pend := if at' ≠ 0 ∧ s.tk.num < at' then some (min 64 (getLE c.payload 15 1), at') else s.tk.pend }
/-- Alignment checks at a boundary, on the latest offset (R30): the state and whether alignment is lost. -/
def alignCheck (s : State) : Bool × State :=
  if isRoot s ∨ !s.tk.joined then (false, s) else
  let a := s.tk.offset.natAbs
  let run := if 80 < a then s.tk.warnRun + 1 else 0
  let s := tkSet s { s.tk with warnRun := run }
  let s := if run = 4 then (s.put F.TICK_STATUS_ALIGN_WARN 1).notice 0x0101 [ofSigned 64 s.tk.offset] else s
  if 320 < a then (true, (s.put F.TICK_STATUS_ALIGN_LOST 1).notice 0x0102 [ofSigned 64 s.tk.offset]) else (false, s)
/-- Holdover at a boundary that closes a tick without a TICK cell (R31). -/
def holdoverCheck (s : State) : State :=
  if isRoot s then s
  else if s.tk.got then tkSet s { s.tk with got := false }
  else
    let s' := tkSet s { s.tk with missed := s.tk.missed + 1, holdover := true }
    if s.tk.holdover then s' else s'.notice 0x0103

/-- DELAY_MEASURE: once every 64 ticks a delay request on the parent port; its STAMP_A is set as it leaves (R27). -/
def execDelayMeasure (s : State) : Out State :=
  hubOnly (fun s =>
    let soon : Bool := match s.tk.delayTick with | some t => decide (s.tk.num < t + 64) | none => false
    if isRoot s ∨ soon then s
    else sendPort (tkSet s { s.tk with delayTick := some s.tk.num }) 33 (parentPort s) (tickCell s (tickPayload s 2 0 s.tk.cur 0 0 s.tk.base 0 0 0 0))) s
/-- DELAY_REQ: answered on the same port, with its arrival in STAMP_B; STAMP_C is set as the answer leaves (R27). -/
def delayReqTake (port : Nat) (c : Cell) (s : State) : State :=
  if foreign s c then countForeign s else
    sendPort s 33 port (tickCell s (tickPayload s 3 0 s.tk.cur 0 0 s.tk.base 0 (getLE c.payload 40 8) (stamp s s.tk.frac) 0))
def execDelayReq (port frac : Nat) (c : Cell) (s : State) : Out State := hubOnly (fun s => arrive (delayReqTake port) port c (atFrac frac s)) s
/-- DELAY_RESP: the one-way delay, halved towards zero, and the mean of the last eight values, or of those there are (R27; log 104,
DESIGN CHOICE). -/
def delayRespTake (port : Nat) (c : Cell) (s : State) : State :=
  if foreign s c then countForeign s
  else if port = parentPort s ∧ !isRoot s ∧ s.tk.delayReq = some (getLE c.payload 40 8) then
    let t4 : Int := stamp s s.tk.frac
    let d := tdivI ((t4 - getLE c.payload 40 8) - ((getLE c.payload 56 8 : Int) - getLE c.payload 48 8)) 2 + toSigned 16 (s.fld (F.TICK_PORT_ASYM_ASYM port))
    let ds := (d :: s.tk.delays).take 8
    let mean := tdivI (ds.foldl (· + ·) 0) ds.length
    (tkSet s { s.tk with delays := ds, delayReq := none }).put (F.TICK_PORT_DELAY_DELAY port) (ofSigned 32 mean)
  else s
def execDelayResp (port frac : Nat) (c : Cell) (s : State) : Out State := hubOnly (fun s => arrive (delayRespTake port) port c (atFrac frac s)) s
/-- STRETCH_REQ of a child (R37). -/
def stretchTake (port : Nat) (c : Cell) (s : State) : State :=
  if foreign s c then countForeign s
  else if (childPorts s).contains port then
    askStretch (tkSet s { s.tk with childReq := (port, min 64 (getLE c.payload 15 1)) :: s.tk.childReq.filter (fun e => e.1 != port) })
  else s
def execStretchReq (port : Nat) (c : Cell) (s : State) : Out State := hubOnly (arrive (stretchTake port) port c) s
/-- The boundary work that ran past the guard is done (R86). -/
def execBoundaryWorkDone (s : State) : Out State := hubOnly (fun s => tkSet s { s.tk with workLeft := false }) s

end Sys2Proof.Machine
end

