-- ==== Sys2Proof/Machine/Steps.lean ====
section
/-! DEFINITION. Machine/Steps.lean: the records of steps in progress, the job tick of a job, and how a step or an unscheduled
command ends (spec/01 R39, R42, R56; spec/15 R426, R566). -/

namespace Sys2Proof.Machine

open Sys2Proof

def stepsSet (s : State) (l : List Step) : State := { s with seq := { s.seq with steps := l } }
def stepGet (s : State) (id : Nat) : Option Step := s.seq.steps.find? (fun x => x.id == id)
def stepPut (s : State) (x : Step) : State := stepsSet s (s.seq.steps.map (fun y => if y.id = x.id then x else y))

/-! ### What a step is bound to (R354, R355, R369, R375) -/

def vtGet (s : State) (h : Nat) : Vt := smGet (fun _ => {}) s.hnd.vts h
def vtSet (s : State) (h : Nat) (v : Vt) : State := { s with hnd := { s.hnd with vts := smSet (fun _ => {}) s.hnd.vts h v } }
/-- The numbers a row step keeps of its binding: handle, version, base. -/
def vtBound (s : State) (h ver : Nat) : Nat := (s.seq.steps.filter (fun x => x.cls == 2 && x.aux.take 2 == [h, ver])).length
/-- A replaced version without bound steps has drained. -/
def vtDrain (s : State) : State :=
  s.hnd.vts.foldl (fun s e => match e.2.old with
    | some v => if vtBound s e.1 v = 0 then (vtSet s e.1 { e.2 with old := none }).notice 0x0703 [e.1, v] e.2.tenant else s
    | none => s) s
/-- Slots retained for queries that have ended return to the free slots. -/
def retainDrop (s : State) : State :=
  let live := s.seq.steps.map Step.id
  stSet s { s.st with retained := (s.st.retained.map (fun (r : Retain) => { r with steps := r.steps.filter live.contains })).filter (fun r => !r.steps.isEmpty) }
def unbind (s : State) : State := vtDrain (retainDrop s)
def stepDrop (s : State) (id : Nat) : State := unbind (stepsSet s (s.seq.steps.filter (fun x => x.id != id)))
def stepAdd (s : State) (x : Step) : Nat × State :=
  let id := s.seq.nextStep
  (id, { s with seq := { s.seq with nextStep := id + 1, steps := s.seq.steps ++ [{ x with id := id }] } })
/-- The image tick and the body repetition of a job tick (R39, Table 01-18). -/
def imageTick (g : Image) (j : Nat) : Option Nat :=
  let bodyEnd := g.pro + g.body * g.repeats
  if j < g.pro then some j
  else if j < bodyEnd then some (g.pro + (j - g.pro) % g.body)
  else if j < bodyEnd + g.epi then some (g.pro + g.body + (j - bodyEnd)) else none
def bodyRep (g : Image) (j : Nat) : Nat :=
  if j < g.pro then 0 else if j < g.pro + g.body * g.repeats then (j - g.pro) / g.body else g.repeats
/-- Ticks of a job in all. -/
def jobLength (g : Image) : Nat := g.pro + g.body * g.repeats + g.epi
/-- A fault that waits for the stop boundary of an abort: of a class 4 or 5 (R443, R444). -/
def waitsStop (cls : Nat) : Bool := cls == 4 || cls == 5
/-- A job takes a fault that has none yet, or whose one waits for its stop boundary while the new one stops it at the coming
boundary (R57, R325, R443). -/
def takesFault (x : Job) (cls : Nat) : Bool :=
  (x.state == .running || x.state == .armed) && (match x.fault with
    | none => true
    | some (_, c) => waitsStop c && !waitsStop cls)
def markFault (s : State) (j status cls : Nat) : State :=
  if takesFault (jobGet s j) cls then jobSet s j { jobGet s j with fault := some (status, cls) } else s
/-- The job number a requester word or a notice names for a step. -/
def stepReq (x : Step) : Nat := reqEngine x.cls x.inst x.job.isSome (x.job.getD 0)
def engOf (x : Step) : Nat := x.cls * 256 + x.inst
/-- The requests a step awaits end with it: a response that still comes finds nothing (R57). -/
def txnsEnd (s : State) (ids : List Nat) : State :=
  { s with fab := { s.fab with txns := s.fab.txns.filter (fun t => match t.step with | some id => !ids.contains id | none => true) } }
/-- An unscheduled step ends: its locks and requests end, its command completes (R426). -/
def endUnsched (s : State) (x : Step) : State :=
  let s := txnsEnd (stepDrop (x.locks.foldl lockDrop s) x.id) [x.id]
  match x.mb with
  | some mb => s.replyBg mb x.status x.data (flagsOf x.status x.saturated x.defaultRow x.slow)
  | none => s
/-- An ENG_SUBMIT or CKPT_COPY step stopped with a status. -/
def stopUnsched (s : State) (status : Nat) : State :=
  (s.seq.steps.filter (fun x => x.job.isNone)).foldl (fun s x => endUnsched s { x with status := status, data := [] }) s
/-- What prefetch steps asked the barrow for and has not begun ends with them; a copy that has begun goes on for no step. -/
def movesEnd (s : State) (ids : List Nat) : State :=
  let mine : Option Nat → Bool := fun k => match k with | some id => ids.contains id | none => false
  stSet s { s.st with queue := s.st.queue.filter (fun q => !mine q.step), copies := s.st.copies.map (fun c => if mine c.step then { c with step := none } else c) }
/-- Steps of a job end with their requests (R57). -/
def dropJobSteps (s : State) (j : Nat) : State :=
  let ids := (s.seq.steps.filter (fun x => x.job == some j)).map Step.id
  unbind (stepsSet (movesEnd (txnsEnd s ids) ids) (s.seq.steps.filter (fun x => x.job != some j)))
/-- Reservations held by the jobs of this hub. -/
def heldRes (s : State) : List Resv := jobSlots.flatMap (fun j => let x := jobGet s j; if x.holds then x.image.res else [])
/-- A reserved interval of an engine covers the present instant (Table 01-4). -/
def inReserved (s : State) (cls inst : Nat) : Bool :=
  (heldRes s).any (fun r => r.cls == cls && r.inst == inst && s.tk.start + unitAt s (r.amount / 65536) ≤ s.time && s.time < s.tk.start + unitAt s (r.amount % 65536))
/-- A tenant's job slots that are not IDLE (R419). -/
def tenantJobs (s : State) (n : Nat) : List Nat := jobSlots.filter (fun j => (jobGet s j).state != .idle && (jobGet s j).tenant == n)

end Sys2Proof.Machine
end

