-- ==== Sys2Proof/Machine/Damper.lean ====
section
/-! DEFINITION. Machine/Damper.lean: energy, the cap controller, alerts and thermal limits (spec/17). -/

namespace Sys2Proof.Machine

open Sys2Proof

def dmpSet (s : State) (d : Damp) : State := { s with damp := d }
/-- Fields of the cap in force (R469). -/
def capW (s : State) : Nat := bits s.damp.capIn 15 0
/-- The fast limit is in force as written; R469 delays the cap, its window and its margin (log 115, DEDUCED). -/
def capFast (s : State) : Nat := s.fld F.DAMP_CAP_FAST
def capWindow (s : State) : Nat := bits s.damp.capIn 23 16
def capMargin (s : State) : Nat := bits s.damp.capIn 63 56
/-- Mean power in mW of the newest n samples of 1 µs in 2^-16 J (R467). -/
def meanPower (l : List Nat) (n : Nat) : Nat :=
  let l := l.take n
  if l.isEmpty then 0 else l.foldl (· + ·) 0 * 1000000000 / (65536 * l.length)
def fastPower (s : State) : Nat := meanPower s.damp.samples 10
def meanInput (s : State) : Nat := meanPower s.damp.samples (1000 * capWindow s)

/-! ### Sensors (R480 to R484) -/

def sensorClass (i : Nat) : Nat := if i < 32 then 0 else if i < 56 then 1 else if i < 60 then 2 else 3
def sensorGet (s : State) (i : Nat) : Sensor := smGet (fun _ => {}) s.damp.sensors i
def sensorSet (s : State) (i : Nat) (x : Sensor) : State := dmpSet s { s.damp with sensors := smSet (fun _ => {}) s.damp.sensors i x }
def warnAt (s : State) (i : Nat) : Int := 16 * s.fld (F.DAMP_THERM_WARN (sensorClass i))
def throttleAt (s : State) (i : Nat) : Int := 16 * s.fld (F.DAMP_THERM_THROTTLE (sensorClass i))
def tripAt (s : State) (i : Nat) : Int := 16 * s.fld (F.DAMP_THERM_TRIP (sensorClass i))
/-- What a sensor counts as: a failed one reads its class's WARN (R484). -/
def sensorTemp (s : State) (i : Nat) : Int := let x := sensorGet s i; if x.fail then warnAt s i else x.temp
def sensors64 : List Nat := List.range 64
def anyWarn (s : State) : Bool := sensors64.any (fun i => decide (warnAt s i ≤ sensorTemp s i))
def allCool (s : State) : Bool := sensors64.all (fun i => decide (sensorTemp s i < warnAt s i - 48))
def anyThrottle (s : State) : Bool := sensors64.any (fun i => decide (throttleAt s i ≤ sensorTemp s i))
def allBelowThrottle (s : State) : Bool := sensors64.all (fun i => decide (sensorTemp s i < throttleAt s i - 48))
/-- One sensor of one reading: the value, failure, warning episode and trip count. -/
def readSensor (s : State) (i : Nat) (v : Option Int) : State :=
  let x := sensorGet s i
  let missing := if v.isNone then x.missing + 1 else 0
  let bad := match v with | some t => decide (t < -640 ∨ 2400 < t) | none => decide (10 ≤ missing) || x.fail
  let x' : Sensor := { x with temp := v.getD x.temp, missing := missing, fail := bad, hot := (match v with | some t => if tripAt s i ≤ t ∧ !bad then x.hot + 1 else 0 | none => x.hot) }
  let s := sensorSet s i x'
  let s := if bad ∧ !x.fail then s.notice 0x0A08 [i] else s
  let t := sensorTemp s i
  if warnAt s i ≤ t ∧ !x.warned then (sensorSet s i { x' with warned := true }).notice 0x0A05 [i, ofSigned 64 t]
  else if t < warnAt s i - 48 then sensorSet s i { x' with warned := false } else s
/-- A reading of all sensors (R480, R482, R484). -/
def readSensors (s : State) (l : List (Option Int)) : State :=
  let s := s.upTo (s.damp.readAt + us 10)
  let s := sensors64.foldl (fun s i => readSensor s i ((l.getD i none))) (dmpSet s { s.damp with readAt := s.time })
  if anyThrottle s then
    let s' := dmpSet s { s.damp with throttle := true, emerg := min 7 (s.damp.emerg + 1) }
    if s.damp.throttle then s' else s'.notice 0x0A06
  else if allBelowThrottle s ∧ s.damp.throttle then dmpSet s { s.damp with throttle := false, lowerAt := s.time } else s
/-- The sensor that trips the hub: TRIP or above in two consecutive readings (R483). -/
def tripSensor (s : State) : Option Nat := sensors64.find? (fun i => 2 ≤ (sensorGet s i).hot)

/-! ### Reasons (R486) -/

def reasons (s : State) : List Bool :=
  [0 < s.damp.sCap, 0 < s.damp.be, s.damp.unmet, 0 < s.damp.sTherm, anyThrottle s, s.damp.fastEp,
   s.damp.forced && bitOf s.damp.forcedSrc 0, s.damp.forced && bitOf s.damp.forcedSrc 1,
   sensors64.any (fun i => (sensorGet s i).fail), 0 < s.tk.cur]
def reasonBits (s : State) : Nat := ((List.range 10).zip (reasons s)).foldl (fun n e => n + b2n e.2 * 2 ^ e.1) 0
/-- Reasons that hold are marked seen (R486). -/
def seeReasons (s : State) : State := s.put F.DAMP_REASON_SEEN_SEEN (s.fld F.DAMP_REASON_SEEN_SEEN ||| reasonBits s)

/-! ### Energy and the fast limit (R466, R467, R475) -/

def fastRaise (s : State) : State := dmpSet s { s.damp with emerg := min 7 (s.damp.emerg + 1), stepAt := s.time }
/-- One sample of 1 µs (log 16, DESIGN CHOICE). -/
def energySample (s : State) (e : EnergySample) : State :=
  let s := s.bump F.DAMP_ENERGY_ENERGY e.input
  let s := ((List.range 4).zip [e.rail0, e.rail1, e.rail2, e.rail3]).foldl (fun s p => s.bump (F.DAMP_RAIL_ENERGY_ENERGY p.1) p.2) s
  let n := s.damp.now
  let s := dmpSet s { s.damp with samples := (e.input :: s.damp.samples).take 100000, now := { n with sched := n.sched + e.sched, unsched := n.unsched + e.unsched, input := n.input + e.input * 1000000000 / 65536 } }
  let fast := fastPower s
  let lim := capFast s * 1000
  let s := if lim ≤ fast then
      (if s.damp.fastEp then dmpSet s { s.damp with fastLow := none }
       else (fastRaise (dmpSet s { s.damp with fastEp := true, fastLow := none })).notice 0x0A04 [fast])
    else if fast * 100 < lim * 95 then dmpSet s { s.damp with fastLow := some (s.damp.fastLow.getD s.time) }
    else dmpSet s { s.damp with fastLow := none }
  let s := seeReasons s
  ((List.range 10).zip (reasons s)).foldl (fun s p => if p.2 then s.bump (F.DAMP_DUR_US p.1) else s) s

/-! ### The forced state (R476, R477, R485) -/

/-- Entering the forced state: copies in a pass are abandoned, unscheduled steps stop with E_POWER. -/
def forceEnter (s : State) (src : Nat) : State :=
  if s.damp.forced then seeReasons (dmpSet s { s.damp with forcedSrc := s.damp.forcedSrc ||| src, cleared := none })
  else
    let s := dmpSet s { s.damp with forced := true, forcedSrc := src, cleared := none }
    let s := s.notice 0x0A02 [src]
    let s := (s.st.copies.filter (fun c => c.close.isNone)).foldl (fun s c => abandonCopy s c.tile) s
    seeReasons (stopUnsched s St.power)
/-- Both alerts have cleared: the hold begins (R476). -/
def forceClear (s : State) : State :=
  if s.damp.forced ∧ !s.damp.alertExt ∧ !s.damp.alertInt ∧ s.damp.cleared.isNone then dmpSet s { s.damp with cleared := some s.time } else s

def execPwrAlertAssert (s : State) : Out State :=
  hubOnly (fun s => forceEnter (dmpSet s { s.damp with alertExt := true }) 1) s
def execPwrAlertClear (s : State) : Out State := hubOnly (fun s => forceClear (dmpSet s { s.damp with alertExt := false })) s
def execInternalAlert (src : AlertCause) (s : State) : Out State :=
  hubOnly (fun s => forceEnter (dmpSet s { s.damp with alertInt := true }) (match src with | .underVoltage => 2 | .overCurrent => 2)) s
def execInternalAlertClear (s : State) : Out State := hubOnly (fun s => forceClear (dmpSet s { s.damp with alertInt := false })) s
/-- The forced state ends ALERT_HOLD µs after both alerts cleared; EMERG starts at 7 (R476). -/
def execDampAlertEnd (s : State) : Out State :=
  hubOnly (fun s => match s.damp.cleared with
    | some t =>
      if s.damp.forced then
        let s := s.upTo (t + us (s.fld F.DAMP_CTL_ALERT_HOLD))
        (dmpSet s { s.damp with forced := false, forcedSrc := 0, cleared := none, emerg := 7, lowerAt := s.time }).notice 0x0A03
      else s
    | none => s) s
/-- ENERGY_SAMPLE: 1 µs after the last. -/
def execEnergySample (e : EnergySample) (s : State) : Out State :=
  hubOnly (fun s => let s := s.upTo (s.damp.sampleAt + us 1); energySample (dmpSet s { s.damp with sampleAt := s.time }) e) s
/-- FAST_LIMIT_STEP: 10 µs after EMERG last rose, while FAST stays at or above the limit (R475). -/
def execFastLimitStep (s : State) : Out State :=
  hubOnly (fun s => if s.damp.fastEp ∧ capFast s * 1000 ≤ fastPower s then fastRaise (s.upTo (s.damp.stepAt + us 10)) else s) s
/-- FAST has stayed below 95 % of the limit for 100 µs (R475). -/
def execFastLimitEnd (s : State) : Out State :=
  hubOnly (fun s => match s.damp.fastLow with
    | some t =>
      if s.damp.fastEp then let s := s.upTo (t + us 100); dmpSet s { s.damp with fastEp := false, lowerAt := s.time } else s
    | none => s) s
/-- EMERG falls by one level every 100 µs while nothing holds it (R475, R482). -/
def execEmergLower (s : State) : Out State :=
  hubOnly (fun s =>
    if s.damp.fastEp ∨ s.damp.throttle ∨ s.damp.forced then s
    else let s := s.upTo (s.damp.lowerAt + us 100); dmpSet s { s.damp with emerg := s.damp.emerg - 1, lowerAt := s.time }) s

/-! ### The phase table (R470) -/

/-- Measured energy of a slot of a phase. -/
def phaseLearn (s : State) (job phase cls m : Nat) : State :=
  let same := fun (e : PhEnt) => e.job == job && e.phase == phase && e.cls == cls
  match s.damp.phases.find? same with
  | some e =>
    let v := ((e.energy : Int) + tdivI ((m : Int) - e.energy) 8).toNat
    dmpSet s { s.damp with phases := s.damp.phases.map (fun x => if same x then { x with energy := v, updated := s.time } else x) }
  | none =>
    let new : PhEnt := { job := job, phase := phase, cls := cls, energy := m, updated := s.time }
    if s.damp.phases.length < 1024 then dmpSet s { s.damp with phases := s.damp.phases ++ [new] }
    else
      let old := s.damp.phases.foldl (fun (b : Option PhEnt) e => match b with | none => some e | some o => if e.updated < o.updated then some e else b) none
      dmpSet s { s.damp with phases := s.damp.phases.map (fun x => if some x = old then new else x) }
def phaseClear (s : State) (job : Nat) : State := dmpSet s { s.damp with phases := s.damp.phases.filter (fun e => e.job != job) }
/-- Class maximum in W. -/
def classMax (cls : Nat) : Nat := if cls = 1 then 32 else if cls = 2 then 24 else if cls = 3 then 20 else 48
/-- Predicted energy of one slot in nJ. -/
def slotEnergy (s : State) (job : Nat) (sl : SlotE) : Nat :=
  match s.damp.phases.find? (fun e => e.job == job && e.phase == sl.phase && e.cls == sl.cls) with
  | some e => e.energy
  | none => (s.tk.base * sl.fin / 1024 - s.tk.base * sl.start / 1024) * 2 * classMax sl.cls

/-! ### The cap controller at a boundary (R471 to R474, R481) -/

/-- w: predicted energy of tick k in nJ. -/
def predictW (s : State) (k : Nat) : Nat :=
  jobSlots.foldl (fun w j =>
    let x := jobGet s j
    if (x.state = .running ∨ x.state = .armed) ∧ x.start ≤ k then
      match imageTick x.image (k - x.start + x.resume) with
      | some i => (x.image.slots.filter (fun sl => sl.tick == i)).foldl (fun w sl => w + slotEnergy s j sl) w
      | none => w
    else w) 0
def meanOver (l : List TickEn) (f : TickEn → Nat) : Nat := if l.isEmpty then 0 else (l.map f).foldl (· + ·) 0 / l.length
def be0Of (s : State) : Nat := meanOver s.damp.ticks (fun t => 500 * t.unsched * 8 / (8 - t.be) / max t.len 1)
def bOf (s : State) : Nat := meanOver s.damp.ticks (fun t => 500 * (t.input - t.sched - t.unsched) / max t.len 1)
def qAt (p b w lv : Nat) : Nat := b + 500 * w / (p + p * lv / 64)
/-- want_cap of R471. -/
def wantCap (p b w be0 lim : Nat) : Nat := ((List.range 65).find? (fun lv => qAt p b w lv + be0 / 8 ≤ lim)).getD 64
/-- The smallest duty level that fits (R472). -/
def beLevel (q be0 lim : Nat) : Nat := ((List.range 8).find? (fun l => q + be0 * (8 - l) / 8 ≤ lim)).getD 7
/-- The level requested from the wanted one: a rise at once, a fall after RELAX boundaries by at most 8 (R473). -/
def wantStep (s : State) : State :=
  let w := max s.damp.sCap s.damp.sTherm
  if s.damp.want ≤ w then dmpSet s { s.damp with want := w, lower := 0 }
  else if s.fld F.DAMP_CTL_RELAX ≤ s.damp.lower + 1 then dmpSet s { s.damp with want := max w (s.damp.want - 8), lower := 0 }
  else dmpSet s { s.damp with lower := s.damp.lower + 1 }
/-- s_therm at a boundary: it rises while a sensor reads WARN; once every sensor was cool at RELAX boundaries it falls until one reads WARN
again (R481). -/
def thermStep (s : State) : State :=
  let cool := if s.fld F.DAMP_CTL_RELAX ≤ s.damp.cool then s.damp.cool else if allCool s then s.damp.cool + 1 else 0
  if anyWarn s then dmpSet s { s.damp with sTherm := min 64 (s.damp.sTherm + s.fld F.DAMP_CTL_THERM_STEP), cool := 0 }
  else dmpSet s { s.damp with cool := cool, sTherm := if s.fld F.DAMP_CTL_RELAX ≤ cool then s.damp.sTherm - 1 else s.damp.sTherm }
/-- The damper at boundary T(k), after the tick number has advanced to k. -/
def damperBoundary (s : State) (len : Nat) : State :=
  let s := dmpSet s { s.damp with ticks := ({ s.damp.now with len := len, be := s.damp.be } :: s.damp.ticks).take 16, now := {} }
  let s := if s.damp.capNew then
      (dmpSet s { s.damp with capNew := false, capIn := (s.reg F.DAMP_CAP_CAP.addr).toNat }).notice 0x0A09 [s.fld F.DAMP_CAP_CAP] else s
  let s := thermStep s
  let k := s.tk.num
  let p := s.tk.base
  let w := predictW s (k + 2)
  let b := bOf s
  let be0 := be0Of s
  let lim := (capW s - capMargin s) * 1000
  let en := s.flag F.DAMP_CTL_STRETCH_EN
  let sc := if en then wantCap p b w be0 lim else 0
  let lv := match s.tk.pend with | some (l, at') => if at' ≤ k + 2 then l else s.tk.cur | none => s.tk.cur
  let be := beLevel (qAt p b w lv) be0 lim
  let unmet := (sc == 64 || !en) && decide (lim < qAt p b w (if en then sc else lv) + be0 / 8)
  let was := s.damp.unmet
  let s := dmpSet s { s.damp with sCap := sc, be := be, unmet := unmet }
  let s := if unmet ∧ !was then s.notice 0x0A01 else s
  seeReasons (wantStep s)

end Sys2Proof.Machine
end

