-- ==== Sys2Proof/Machine/Extents.lean ====
section
/-! DEFINITION. Machine/Extents.lean: the extent table and the composition map as every request meets them: checks 3 and 6 of Table
11-5 (R386, R399), fencing, and the messages a hub sends to another and resends until they are answered (R393, R409, R462). -/

namespace Sys2Proof.Machine

open Sys2Proof

/-! ### Extents (Table 14-1) -/

def extGet (s : State) (i : Nat) : Ext := smGet (fun _ => {}) s.ext.exts i
def extSet (s : State) (i : Nat) (x : Ext) : State :=
  { s with ext := { s.ext with exts := smSet (fun _ => {}) s.ext.exts i x } }
/-- The lease ID of an extent (R384). -/
def leaseId (i : Nat) (x : Ext) : Nat := x.gen % 2 ^ 18 * 2 ^ 14 + i
/-- The extent a lease ID names, if its GEN is current. -/
def leaseExt (s : State) (lease : Nat) : Option Nat :=
  let i := lease % 2 ^ 14
  if leaseId i (extGet s i) = lease % 2 ^ 32 then some i else none
/-- PERIOD in TBS cycles. -/
def Ext.p (x : Ext) : Nat := us x.period
/-- The extents of a tenant that are not FREE and overlap bytes [va, va + n). -/
def extsOver (s : State) (ten va n : Nat) : List (Nat × Ext) :=
  s.ext.exts.filter (fun e => e.2.state != 0 && e.2.tenant == ten && overlaps va n e.2.start e.2.len)
/-- Check 6 at s.time: whether it passes, and the extent it passed under (R386); a fence does not reach a request stamped before it
(R393). -/
def check6 (s : State) (ten va n req need : Nat) : Bool × Option Nat :=
  let l := extsOver s ten va n
  if l.isEmpty then (true, none)
  else match l.find? (fun e => (e.2.state == 2 || e.2.state == 3 || (e.2.state == 4 && decide (s.time < e.2.fence))) && e.2.start ≤ va && va + n ≤ e.2.start + e.2.len
      && e.2.holder == req && e.2.rights &&& need == need) with
    | some e => (true, some e.1)
    | none => (false, none)
/-- The notice destination of a requester word: an LD of this hub or a fabric endpoint (R429). -/
def reqDest (s : State) (req : Nat) : NDest :=
  let _ := s
  if req / 2 ^ 28 = 3 then .ld (req % 16) else .ep (bits req 23 8 % 4096) (req % 256)

/-- Runs of consecutive tiles: first and count. -/
def tileRuns (l : List Nat) : List (Nat × Nat) :=
  l.foldl (fun (r : List (Nat × Nat)) t => match r.getLast? with
    | some (a, n) => if a + n = t then r.dropLast ++ [(a, n + 1)] else r ++ [(t, 1)]
    | none => [(t, 1)]) []
/-- Commanded locks over several runs: all of them, or none, and then nothing changes but the count of refusals (R121, Table 03-10). -/
def lockRuns (s : State) (act : Activity) (runs : List (Nat × Nat)) : Nat × List Nat × State :=
  let r := runs.foldl (fun (r : Nat × List Nat × State) q =>
    if r.1 ≠ St.ok then r
    else
      let (st, id, s) := lockCommand r.2.2 act q.1 q.2
      if st = St.ok then (st, r.2.1 ++ [id], s) else (st, r.2.1, s)) (St.ok, [], s)
  if r.1 = St.ok then r else (r.1, [], if r.1 = St.maint then s.bump F.MIG_LOCKS_REFUSED else s)
/-- Hub-local tiles of a virtual range that translate and are homed here. -/
def rangeTiles (s : State) (ten va n : Nat) : List Nat :=
  (List.range n).filterMap (fun i => let (st, t) := xlate s ten (va + 65536 * i) 0 none; if st = St.ok ∧ homedHere s t.tile then some (localTile t.tile) else none)

/-- The tiles of a virtual range that translate, in either half, by their numbers here. -/
def rangeIds (s : State) (ten va n : Nat) : List Nat :=
  (List.range n).filterMap (fun i => let (st, t) := xlate s ten (va + 65536 * i) 0 none; if st = St.ok then some (tileId s t.tile) else none)

/-! ### Composition (Table 14-4, R398, R399) -/

def pieceGet (s : State) (i : Nat) : Piece := smGet (fun _ => {}) s.ext.pieces i
def pieceSet (s : State) (i : Nat) (x : Piece) : State :=
  { s with ext := { s.ext with pieces := smSet (fun _ => {}) s.ext.pieces i x } }
/-- The entry of a tenant that covers an address. -/
def pieceOf (s : State) (ten va : Nat) : Option (Nat × Piece) :=
  s.ext.pieces.find? (fun e => e.2.state != 0 && e.2.tenant == ten && e.2.va ≤ va && va < e.2.va + 65536 * e.2.tiles)
def epochGet (s : State) (ten : Nat) : Option (Nat × Nat) := smGet (fun _ => none) s.ext.epochs ten
def epochOf (s : State) (ten : Nat) : Nat := ((epochGet s ten).map Prod.fst).getD 0
def epochSet (s : State) (ten : Nat) (e : Option (Nat × Nat)) : State :=
  { s with ext := { s.ext with epochs := smSet (fun _ => none) s.ext.epochs ten e } }
/-- a is older than b (R398). -/
def epochOlder (a b : Nat) : Bool := let d := (b + 65536 - a % 65536) % 65536; 1 ≤ d && d ≤ 32767
/-- SEQ a is later than b in serial arithmetic of 32 bits (R389). -/
def seqLater (a b : Nat) : Bool := let d := (a + 2 ^ 32 - b % 2 ^ 32) % 2 ^ 32; 1 ≤ d && d < 2 ^ 31
/-- The outcome of check 3. -/
inductive C3 where
  | pass (va : Nat)
  | hold (idx : Nat)
  | route (idx : Nat)
  | forward (idx : Nat)
  | refuse (status : Nat)
deriving DecidableEq, Repr
/-- Table 14-5 for a request of a tenant; `here`: it originates at this hub; `coh`: it is a coherence request (R397). -/
def check3 (s : State) (ten va epoch : Nat) (here fwd coh : Bool) : C3 :=
  match pieceOf s ten va with
  | none => .pass va
  | some (i, x) =>
    if x.state = 2 then .hold i
    else if x.owner = s.hubId then .pass (x.ownerVa + (va - x.va))
    else if coh then .refuse St.rights
    else if here then .route i
    else if fwd then .refuse St.epoch
    else if epochOlder epoch x.chgEpoch then .forward i
    else .refuse St.unmapped
/-- Counters of a refusal at check 3. -/
def count3 (s : State) (st : Nat) : State :=
  if st = St.epoch then s.bump F.EXT_FORWARDS_REFUSED else if st = St.unmapped then s.bump F.EXT_MISROUTED_COUNT else s

/-! ### Requests this hub issues on VN0, and messages (R203, R409, R462) -/

/-- A VN0 request of this hub's own leaves with a fresh TXN (log 29, DESIGN CHOICE), on a named port or by the route table. -/
def issueOn (s : State) (unit : Nat) (port : Option Nat) (c : Cell) (step msg : Option Nat) : Nat × State :=
  let t := s.fab.nextTxn
  let s := { s with fab := { s.fab with nextTxn := (t + 1) % 65536, late := s.fab.late.erase t, txns := s.fab.txns ++ [{ txn := t, dst := c.dst, unit := unit, deadline := s.time + us (s.fld F.FAB_REQ_TIMEOUT_US), step := step, msg := msg }] } }
  (t, match port with | some p => sendPort s unit p { c with txn := t } | none => sendFrom s unit { c with txn := t })
def issue (s : State) (unit : Nat) (c : Cell) (step msg : Option Nat) : Nat × State := issueOn s unit none c step msg
/-- A system WRITE cell of 64 bytes to a hub's inbox. -/
def msgCell (s : State) (m : Msg) : Cell := { cell0 s 0x02 with dst := m.dst, tag := 0xFFFF, addr := m.addr, len := 63, payload := m.payload }
def msgGive (s : State) (m : Msg) : State := (issue { s with ext := { s.ext with msgs := s.ext.msgs.map (fun x => if x.id = m.id then { x with sent := s.time } else x) } } 33 (msgCell s m) none (some m.id)).2
/-- A message is sent and kept until its WRITE_RSP returns OK. -/
def msgSend (s : State) (herd : Bool) (job dst addr : Nat) (payload : List Byte) : State :=
  let m : Msg := { id := s.ext.nextMsg, herd := herd, job := job, dst := dst, addr := addr, payload := payload, sent := s.time }
  msgGive { s with ext := { s.ext with nextMsg := s.ext.nextMsg + 1, msgs := s.ext.msgs ++ [m] } } m
def msgDrop (s : State) (id : Nat) : State := { s with ext := { s.ext with msgs := s.ext.msgs.filter (fun m => m.id != id) } }

end Sys2Proof.Machine
end

