-- ==== Sys2Proof/Machine/Cohere.lean ====
section
/-! DEFINITION. Machine/Cohere.lean: the coherence domain: agents, windows, the directory, snoops, grants, eviction, the contention
predictor and lost agents (spec/10). What serves a request with them is Requests.lean. -/

namespace Sys2Proof.Machine

open Sys2Proof

def cohSet (s : State) (c : Coh) : State := { s with coh := c }
/-- DIR cycles at the present instant: 1.25 GHz against 500 MHz (R301) (log 17, DEDUCED). -/
def dirNow (s : State) : Nat := s.time * 5 / 2
def bitsOf (mask n : Nat) : List Nat := (List.range n).filter (bitOf mask)
def setBit (mask n : Nat) : Nat := mask ||| 2 ^ n
def clearBit (mask n : Nat) : Nat := if bitOf mask n then mask - 2 ^ n else mask

/-! ### Agents and windows (R280 to R284) -/

/-- The agent ID of the source of a cell, if it is an agent of this hub. -/
def agentOfCell (s : State) (c : Cell) : Option Nat :=
  if c.src = s.hubId ∧ c.srcEp ≤ 0x2F ∧ (c.srcEp ≤ 0x17 ∨ s.sup.yoked) then some (16 + c.srcEp) else none
/-- COH_AGENT_LD_k as this half uses it. The upper half's own is ignored: the lower half's names the logical devices of both (R308,
R557), and the lower half alone holds it (log 5, DEDUCED). -/
def slotReg (s : State) (k : Nat) : Nat := if s.sup.yoked && s.sup.upper then Config.lowerSlot k else (s.reg (F.COH_AGENT_LD_LD k).addr).toNat
def slotLd (s : State) (k : Nat) : Nat := fv (slotReg s k) (F.COH_AGENT_LD_LD k)
def slotLink (s : State) (k : Nat) : Nat := fv (slotReg s k) (F.COH_AGENT_LD_LINK k)
/-- The agent IDs of a logical device of this half: its valid slots. -/
def slotsOfLd (s : State) (i : Nat) : List Nat :=
  (List.range 16).filter (fun k => fv (slotReg s k) (F.COH_AGENT_LD_VALID k) == 1 && slotLd s k == i && slotLink s k == b2n s.sup.upper)
def agentOfLd (s : State) (i : Nat) : Option Nat := (slotsOfLd s i).head?
/-- The agent ID an LD acts under in a window: its lowest slot among the window's AGENTS, else its lowest slot (log 92, DEDUCED). -/
def ldAgentIn (s : State) (i n : Nat) : Option Nat :=
  match (slotsOfLd s i).find? (bitOf (s.fld (F.COH_WIN_AGENTS_MASK n))) with
  | some a => some a
  | none => agentOfLd s i
/-- The enabled window that covers a hub-local tile. -/
def cohWin (s : State) (t : Nat) : Option Nat :=
  (List.range 64).find? (fun n => s.flag (F.COH_WIN_BASE_EN n) && s.fld (F.COH_WIN_BASE_BASE n) ≤ t && t < s.fld (F.COH_WIN_END_END n))
def lineOf (t off : Nat) : Nat := (t * 65536 + off) / 64
def lineTile (l : Nat) : Nat := l / 1024
def lineOff (l : Nat) : Nat := l % 1024 * 64
/-- The tenant virtual address at which a window shows a line (R282). -/
def lineVa (s : State) (n l : Nat) : Nat := (s.fld (F.COH_WIN_VA_VA n) + (lineTile l - s.fld (F.COH_WIN_BASE_BASE n))) * 65536 + lineOff l
/-- The tenant tag a snoop of a window carries: that of the lowest inbound window of this hub's own agents for its tenant (log 21, DESIGN CHOICE). -/
def winTag (s : State) (n : Nat) : Nat :=
  match (s.xlt.wins.map Prod.snd).find? (fun w => w.en && w.src == s.hubId && w.winTenant == s.fld (F.COH_WIN_BASE_TENANT n)) with
  | some w => w.tag
  | none => 0
/-- R284 for an agent, a translated tile and the address it used; a fabric agent must use the window's VA mapping. -/
def mayCache (s : State) (a n ten t off va : Nat) : Bool :=
  !s.coh.winPend.any (fun p => p.win == n) && bitOf (s.fld (F.COH_WIN_AGENTS_MASK n)) a && s.fld (F.COH_WIN_BASE_TENANT n) == ten
  && (a < 16 || va / 64 * 64 == lineVa s n (lineOf t off))
def isLost (s : State) (a : Nat) : Bool := bitOf s.coh.lost a

/-! ### The directory (R285 to R287, R291, R297, R300) -/

def dirGet (s : State) (l : Nat) : DirE := smGet (fun _ => {}) s.coh.dir l
def dirSet (s : State) (l : Nat) (e : DirE) : State := cohSet s { s.coh with dir := smSet (fun _ => {}) s.coh.dir l e }
def dirSetOf (l : Nat) : Nat := Nat.xor (l % 2 ^ 17) (l / 2 ^ 17 % 2 ^ 17)
/-- The valid entries of a line's set. -/
def dirWays (s : State) (l : Nat) : List (Nat × DirE) := s.coh.dir.filter (fun e => e.2.valid && dirSetOf e.1 == dirSetOf l)
/-- Agents that hold a line which is not PEND. -/
def holders (s : State) (l : Nat) : List Nat :=
  let e := dirGet s l
  if !e.valid then [] else match e.state with
  | .pend => []
  | .excl => [e.owner]
  | .shared => bitsOf e.sharers 64
/-- A line leaves PEND with the agents that kept a copy. -/
def dirResolve (s : State) (l : Nat) : State :=
  let e := dirGet s l
  if e.keepX then dirSet s l { e with state := .excl, wasX := false, sharers := 2 ^ e.owner, keep := 0, keepX := false, serves := none }
  else if e.keep = 0 then dirSet s l {} else dirSet s l { e with state := .shared, wasX := false, sharers := e.keep, owner := 0, keep := 0, serves := none }
/-- The entry after a grant to agent a, its AGE 0, the other ways one older (R291, R297). -/
def grant (s : State) (l a : Nat) (excl : Bool) : State :=
  let e := dirGet s l
  let others := (dirWays s l).filter (fun x => x.1 != l)
  let way := if e.valid then e.way else ((List.range 16).find? (fun w => !others.any (fun x => x.2.way == w))).getD 0
  let s := others.foldl (fun s x => dirSet s x.1 { x.2 with age := min 7 (x.2.age + 1) }) s
  let hold := dirNow s + s.fld F.COH_CTL_HOLD
  if excl then dirSet s l { valid := true, state := .excl, sharers := 2 ^ a, owner := a, holdEnd := hold, way := way }
  else
    let sh := if e.valid then (match e.state with | .shared => e.sharers | _ => 0) else 0
    dirSet s l { valid := true, state := .shared, sharers := setBit sh a, holdEnd := hold, way := way }
/-- The set of a line has room for an entry. -/
def hasWay (s : State) (l : Nat) : Bool := (dirGet s l).valid || (dirWays s l).length < 16
/-- The victim of an eviction (R300). -/
def victimLine (s : State) (l : Nat) : Option Nat :=
  let c := (dirWays s l).filter (fun x => x.2.state != .pend && x.2.holdEnd ≤ dirNow s)
  let sh := c.filter (fun x => x.2.state == .shared)
  ((if sh.isEmpty then c else sh).foldl (fun (b : Option (Nat × DirE)) x => match b with
    | none => some x
    | some y => if y.2.age < x.2.age ∨ (y.2.age = x.2.age ∧ x.2.way < y.2.way) then some x else b) none).map Prod.fst
def pendCount (s : State) : Nat := (s.coh.dir.filter (fun e => e.2.valid && e.2.state == .pend)).length

/-! ### Snoops (R288, R290, R292, R294) -/

/-- One snoop is sent to an agent. -/
def snoopOne (s : State) (l a : Nat) (inv : Bool) : State :=
  let n := (cohWin s (lineTile l)).getD 0
  let txn := s.coh.nextTxn
  let s := cohSet s { s.coh with nextTxn := (txn + 1) % 65536, snoops := s.coh.snoops ++ [{ line := l, agent := a, txn := txn, inv := inv, since := s.time }] }
  let s := s.bump F.COH_SNOOPS_COUNT
  if a < 16 then
    let i := slotLd s a
    if slotLink s a = b2n s.sup.upper then s.emit (.biSnp i (lineVa s n l - s.fld (F.HOST_LD_MAP_VABASE i)) (if inv then 0 else 1)) else s
  else sendFrom s (31 + l % 2) { cell0 s (if inv then 0x49 else 0x48) with dst := s.hubId, dstEp := a - 16, tag := winTag s n, txn := txn, addr := lineVa s n l, len := 63 }
/-- A line becomes PEND: snoops go to the agents named; other holders keep what they have. -/
def snoopLine (s : State) (l : Nat) (ag : List Nat) (inv : Bool) (serves : Option Nat) : State :=
  let e := dirGet s l
  let owed := ag.foldl (fun m a => setBit m a) 0
  let keep := ((holders s l).filter (fun a => !ag.contains a)).foldl (fun m a => setBit m a) 0
  ag.foldl (fun s a => snoopOne s l a inv) (dirSet s l { e with state := .pend, wasX := decide (e.state = .excl), sharers := owed, keep := keep, serves := serves })
/-- A BIConflict is acknowledged once no snoop of its line to its host is outstanding (R290). -/
def ackConflicts (s : State) : State :=
  let open' := fun (c : Nat × Nat × Nat) => s.coh.snoops.any (fun p => p.line == c.2.2 && (slotsOfLd s c.1).contains p.agent)
  (s.coh.conflicts.filter (fun c => !open' c)).foldl (fun s c => s.emit (.event "BIConflictAck" [c.1, c.2.1])) (cohSet s { s.coh with conflicts := s.coh.conflicts.filter open' })
/-- A snoop of a line is answered (R292): data is stored first; the last answer resolves a line that serves no request. Data for a
tile in cut-over waits in its hold queue, and the line with it (R81, R113). -/
def snoopAnswer (s : State) (l a : Nat) (keep : Bool) (data : Option (List Byte)) : State :=
  let s := ackConflicts (cohSet s { s.coh with snoops := s.coh.snoops.filter (fun p => !(p.line == l && p.agent == a)) })
  if data.isSome ∧ inCutover s (lineTile l) then cohSet s { s.coh with backs := s.coh.backs ++ [{ line := l, agent := a, keep := keep, data := data.getD [] }] }
  else
  let x := tileGet s (lineTile l)
  let s := match data with | some d => (byteStore s (lineTile l) (lineOff l) (slice d 0 64) x.tenant x.key).2 | none => s
  let e := dirGet s l
  if e.valid ∧ e.state = .pend then
    let e := { e with sharers := clearBit e.sharers a, keep := if keep then setBit e.keep a else e.keep }
    let s := dirSet s l e
    if e.sharers = 0 ∧ e.serves.isNone then dirResolve s l else s
  else s
/-- Answers whose tile has left its cut-over go on, in the order in which they came. -/
def backsGo (s : State) : State :=
  let go := s.coh.backs.filter (fun b => !inCutover s (lineTile b.line))
  go.foldl (fun s b => snoopAnswer s b.line b.agent b.keep (some b.data)) (cohSet s { s.coh with backs := s.coh.backs.filter (fun b => !go.contains b) })
/-- Every line a request's snoops were sent for has all its answers. -/
def snoopsDone (s : State) (id : Nat) : Bool :=
  s.coh.dir.all (fun e => !(e.2.valid && e.2.state == .pend && e.2.serves == some id) || e.2.sharers == 0)
def resolveFor (s : State) (id : Nat) : State :=
  (s.coh.dir.filter (fun e => e.2.valid && e.2.state == .pend && e.2.serves == some id)).foldl (fun s e => dirResolve s e.1) s
/-- Lines of a tile range that some agent holds, or whose snoops are outstanding. -/
def linesHeld (s : State) (t n : Nat) : List Nat := (s.coh.dir.filter (fun e => e.2.valid && t ≤ lineTile e.1 && lineTile e.1 < t + n)).map Prod.fst
/-- The directory can take no further line to PEND (R287). -/
def pendFull (s : State) : Bool := decide (1024 ≤ pendCount s)
/-- Every held line of some lines is back-invalidated for a purpose of the hub's own; one beyond the limit of PEND lines waits for
its turn (R287). -/
def backInvalidate (s : State) (ls : List Nat) : State :=
  ls.foldl (fun s l => if (holders s l).isEmpty ∨ pendFull s then s else snoopLine s l (holders s l) true none) s
/-- The tiles of a window as it stands: first and count. -/
def winRange (s : State) (n : Nat) : Nat × Nat := (s.fld (F.COH_WIN_BASE_BASE n), s.fld (F.COH_WIN_END_END n) - s.fld (F.COH_WIN_BASE_BASE n))
/-- Some agent holds a line of the window, or a snoop of one is outstanding. -/
def winHeld (s : State) (n : Nat) : Bool := !(linesHeld s (winRange s n).1 (winRange s n).2).isEmpty
/-- Window register writes whose back-invalidation has ended take effect, in order (R283). -/
def winApply (s : State) : State :=
  let s := s.coh.winPend.foldl (fun s p => backInvalidate s (linesHeld s (winRange s p.win).1 (winRange s p.win).2)) s
  s.coh.winPend.foldl (fun s p =>
    if winHeld s p.win ∨ (s.coh.winPend.find? (fun q => q.win == p.win)) ≠ some p then s
    else (cohSet s { s.coh with winPend := s.coh.winPend.erase p }).setReg (if p.reg = 0 then (F.COH_WIN_BASE_EN p.win).addr else (F.COH_WIN_END_END p.win).addr) (BitVec.ofNat 64 p.val)) s
/-- Release of a tile: its lines are snooped and their data is discarded, no lost write is recorded (R296; log 22, DEDUCED). -/
def dropLines (s : State) (t : Nat) : State :=
  (linesHeld s t 1).foldl (fun s l =>
    let s := (holders s l).foldl (fun s a => snoopOne s l a true) s
    let s := ackConflicts (cohSet s { s.coh with snoops := s.coh.snoops.filter (fun p => p.line != l), backs := s.coh.backs.filter (fun b => b.line != l) })
    dirSet s l {}) s

/-! ### The predictor (R298, R299) -/

def predIx (l : Nat) : Nat := Nat.xor (l % 65536) (l / 65536 % 65536)
def predGet (s : State) (l : Nat) : Nat := smGet (fun _ => 0) s.coh.pred (predIx l)
/-- The counter moves when a request is served. -/
def predMove (s : State) (l : Nat) (a : Option Nat) : State :=
  let other := (holders s l).any (fun h => some h != a)
  let v := predGet s l
  cohSet s { s.coh with pred := smSet (fun _ => 0) s.coh.pred (predIx l) (if other then min 3 (v + 1) else v - 1) }
def predDecay (s : State) : State :=
  if s.tk.num < s.coh.predAt + s.fld F.COH_PRED_DECAY then s
  else cohSet s { s.coh with predAt := s.tk.num, pred := s.coh.pred.foldl (fun m e => smSet (fun _ => 0) m e.1 (e.2 - 1)) s.coh.pred }
/-- ADVICE: 1 far, 0 near. -/
def advice (s : State) (l : Nat) : Nat := b2n (decide (s.fld F.COH_PRED_THRESH ≤ predGet s l))

/-! ### Lost agents (R301 to R306) -/

/-- A line enters the lost-write record of its window's tenant (R302, R305). -/
def recordLost (s : State) (l a : Nat) (linkLoss : Bool) : State :=
  let ten := match cohWin s (lineTile l) with | some n => s.fld (F.COH_WIN_BASE_TENANT n) | none => (tileGet s (lineTile l)).tenant
  let r := smGet (fun _ => []) s.coh.recs ten
  let s := s.bump F.COH_LOST_LINES_COUNT
  let s := cohSet s { s.coh with decls := s.coh.decls.map (fun d => if d.agent != a then d else
      if d.lines.any (fun x => x.1 == ten) then { d with lines := d.lines.map (fun x => if x.1 = ten then (x.1, x.2.1 + 1, x.2.2) else x) }
      else { d with lines := d.lines ++ [(ten, 1, l * 64)] }) }
  if r.length < 256 then cohSet s { s.coh with recs := smSet (fun _ => []) s.coh.recs ten (r ++ [{ agent := a, addr := l * 64, linkLoss := linkLoss, tick := s.tk.num }]) }
  else
    let s := s.bump (F.COH_LOST_OVERFLOW ten)
    if s.coh.ovfEp.contains ten then s else (cohSet s { s.coh with ovfEp := ten :: s.coh.ovfEp }).notice 0x0504 [] ten none (.tenant ten)
/-- What the walk does to one entry (R302). -/
def lostEntry (s : State) (a : Nat) (linkLoss : Bool) (l : Nat) : State :=
  let e := dirGet s l
  match e.state with
  | .excl => if e.owner = a then dirSet (recordLost s l a linkLoss) l {} else s
  | .shared => let m := clearBit e.sharers a; if m = 0 then dirSet s l {} else dirSet s l { e with sharers := m }
  | .pend =>
    if s.coh.backs.any (fun b => b.line == l && b.agent == a) then s else
    let s := if (bitOf e.sharers a ∧ e.wasX ∨ e.keepX) ∧ e.owner = a then recordLost s l a linkLoss else s
    let s := dirSet s l { e with keep := clearBit e.keep a, keepX := e.keepX && e.owner != a }
    if bitOf e.sharers a then snoopAnswer s l a false none else s
/-- The declaration of a lost agent and the walk (R301, R302); the walk's end is reported later (R306) (log 19, DESIGN CHOICE). -/
def declareLost (s : State) (a : Nat) (linkLoss : Bool) : State :=
  if isLost s a then s
  else
    let own := (s.coh.dir.filter (fun e => e.2.valid && e.2.state == .pend && e.2.wasX && bitOf e.2.sharers a && e.2.owner == a)).filterMap (fun e => e.2.serves)
    let s := cohSet s { s.coh with lost := setBit s.coh.lost a, decls := s.coh.decls ++ [{ agent := a, since := s.time }] }
    let s : State := { s with reqs := s.reqs.map (fun (r : Req) => if own.contains r.id then { r with lost := true } else r) }
    (s.coh.dir.filter (fun e => e.2.valid && (bitOf e.2.sharers a || bitOf e.2.keep a || (e.2.keepX && e.2.owner == a)))).foldl (fun s e => lostEntry s a linkLoss e.1) s
/-- The agent IDs behind a requester word, if it is an agent of this hub. -/
def reqAgents (s : State) (req : Nat) : List Nat :=
  if req / 2 ^ 28 = 3 then slotsOfLd s (req % 16)
  else if req / 2 ^ 28 = 2 ∧ bits req 23 8 = s.hubId ∧ req % 256 ≤ 0x2F then [16 + req % 256] else []
/-- Bit a of COH_LOST_AGENTS clears once the walk has ended, the agent is there, and no expiry's release path is open (R304). -/
def rejoin (s : State) (a : Nat) : State :=
  let walked := !s.coh.decls.any (fun d => d.agent == a)
  let there := if a < 16 then (ldGet s (slotLd s a)).state == .on && s.host.linkUp
    else match localEp s (a - 16) with | some n => portUp s n && agentPort s n | none => true
  let open' := s.ext.exts.any (fun e => e.2.expired && (e.2.state == 4 || e.2.state == 5) && (reqAgents s e.2.holder).contains a)
  if isLost s a ∧ walked ∧ there ∧ !open' then cohSet s { s.coh with lost := clearBit s.coh.lost a } else s
def rejoinAll (s : State) : State := (List.range 64).foldl rejoin s
/-- Agents of the windows of a tenant. -/
def winAgents (s : State) (ten : Nat) : List Nat :=
  (List.range 64).filter (fun a => (List.range 64).any (fun n => s.flag (F.COH_WIN_BASE_EN n) && s.fld (F.COH_WIN_BASE_TENANT n) == ten && bitOf (s.fld (F.COH_WIN_AGENTS_MASK n)) a))
def agentDest (s : State) (a : Nat) : NDest := if a < 16 then .ld (slotLd s a) else .ep s.hubId (a - 16)
/-- The cycles of a walk, one set per DIR cycle, in TBS cycles: 131,072 at 1.25 GHz (R301). -/
def walkTime : Nat := 131072 * 2 / 5 + 1
/-- The walk of a declaration ends: its notices (R306). COH_LOST_WRITE goes to every other agent of the tenant's windows. -/
def walkDone (s : State) (d : LostDecl) : State :=
  let s := s.upTo (d.since + walkTime)
  let s := cohSet s { s.coh with decls := s.coh.decls.filter (fun x => x.agent != d.agent) }
  let s := d.lines.foldl (fun s x =>
    let dest := (winAgents s x.1).filter (fun a => a != d.agent && !isLost s a)
    let args := [d.agent, x.2.1, x.2.2]
    let s := s.notice 0x0501 args x.1
    if s.sup.stage = .run then dest.foldl (fun s a =>
        let h : NHead := { code := 0x0501, ten := x.1, job := none, args := args, tick := s.tk.num, time := s.time }
        match agentDest s a with | .ld i => ldRingPut s i h | .ep hub ep => epPut s hub ep h | _ => s) s else s) s
  rejoin (s.notice 0x0502 [d.agent]) d.agent

end Sys2Proof.Machine
end

