-- ==== Sys2Proof/Machine/Requests.lean ====
section
/-! DEFINITION. Machine/Requests.lean: one byte-path request from its acceptance to its response, for every requester: the order of
checks, composition, hold queues, the directory, the access itself, and what an event releases (spec/09; R101, R113, R195, R271,
R287, R291, R295, R322, R386, R399 to R401, R407, R413). -/

namespace Sys2Proof.Machine

open Sys2Proof

/-! ### What a request is (Tables 06-5, 11-2, R195) -/

def atomicOp (c : Cell) : Nat := c.opx / 16
def atomicSize (c : Cell) : Nat := if c.opx % 4 = 2 then 4 else 8
/-- R195. -/
def atomicOk (c : Cell) : Bool :=
  let n := atomicSize c
  atomicOp c ≤ 9 && (c.opx % 4 == 2 || c.opx % 4 == 3) && bits c.opx 3 2 == 0 && c.addr % n == 0
  && c.len == (if atomicOp c = 1 then 2 * n - 1 else n - 1)
def isCoh (ty : Nat) : Bool := 0x40 ≤ ty && ty ≤ 0x43
def isWrite (ty : Nat) : Bool := ty == 0x02 || ty == 0x03 || ty == 0x21
/-- Bytes a request reads or writes. -/
def reqLen (c : Cell) : Nat := if c.ty = 0x03 then atomicSize c else if isCoh c.ty then 64 else c.len + 1
/-- The form check between checks 1 and 2 (R322). -/
def formOk (c : Cell) : Bool :=
  if c.ty = 0x03 then atomicOk c else if isCoh c.ty then c.addr % 64 == 0 else c.addr % 256 + c.len < 256
/-- Rights a request needs; a CXL read needs R alone (Table 11-2) (log 18, DEDUCED). -/
def needOf (ty : Nat) (ld : Bool) : Nat :=
  if ty = 0x01 ∨ ty = 0x40 then Need.r else if ty = 0x03 then Need.a
  else if ty = 0x41 then (if ld then Need.r else Need.rw) else if ty = 0x42 then Need.rw else Need.w
/-- Two requests are of one source on one virtual network (R259, R262 to R264). -/
def sameFlow (a b : Req) : Bool := match a.ld, b.ld with
  | some x, some y => x.1 == y.1
  | none, none => a.cell.src == b.cell.src && a.cell.srcEp == b.cell.srcEp && a.cell.tag == b.cell.tag && a.cell.vn == b.cell.vn
  | _, _ => false
def reqWord (s : State) (r : Req) : Nat := match r.ld with | some x => reqLd s x.1 | none => reqFabric r.cell
def reqLines (r : Req) : List Nat :=
  let t := localTile r.tile
  let a := lineOf t r.off
  (List.range (lineOf t (r.off + reqLen r.cell - 1) + 1 - a)).map (a + ·)

/-! ### The list of waiting requests -/

def reqDrop (s : State) (id : Nat) : State := { s with reqs := s.reqs.filter (fun r => r.id != id) }
/-- A credit that would go back with its cell is withheld (R115, R287). -/
def takeBack (s : State) (inp vn : Nat) : State :=
  if inp < 26 then let p := portGet s inp; portSet s inp { p with freed := add4 p.freed vn 65535 } else s
/-- The pool of 4,096 places a request waits in: the hold queues' (R115) or the directory's (R287). -/
def waitPool : ReqWait → Option Nat
  | .tile => some 0
  | .line => some 1
  | .snoop => some 1
  | _ => none
/-- A request waits; the list stays in order of arrival. Where its pool is empty its credit is withheld until it completes. -/
def reqHold (s : State) (r : Req) (w : ReqWait) : State :=
  let l := s.reqs.filter (fun x => x.id != r.id)
  let owes := r.ld.isNone && (waitPool w).isSome && decide (4096 ≤ (l.filter (fun x => waitPool x.wait == waitPool w)).length)
  let s := if owes ∧ !r.owes then takeBack s r.inp r.cell.vn else s
  { s with reqs := l.filter (fun x => x.id < r.id) ++ { r with wait := w, owes := r.owes || owes } :: l.filter (fun x => r.id < x.id) }
/-- A cell of a request's own flow. -/
def cellFlow (c : Cell) (r : Req) : Bool := r.ld.isNone && c.src == r.cell.src && c.srcEp == r.cell.srcEp && c.tag == r.cell.tag && c.vn == r.cell.vn
/-- Earlier requests of the source are still on their way: accepted, or in the switch core before it (R262). -/
def flowBusy (s : State) (r : Req) : Bool :=
  s.reqs.any (fun x => x.id < r.id && sameFlow x r) || s.fab.voq.any (fun q => 26 ≤ q.out && q.time ≤ r.time && cellFlow q.c r)
  || s.fab.skims.any (fun q => q.time ≤ r.time && (cellFlow q.c r || q.riders.any (fun x => cellFlow x.2 r)))

/-! ### Responses (R236, R289, R413, R565) -/

/-- The operation of R195 on an old value x, the operand v and the swap value w, of n bytes. -/
def atomicVal (op n x v w : Nat) : Nat :=
  let m := 2 ^ (8 * n)
  let sx := toSigned (8 * n) x
  let sv := toSigned (8 * n) v
  if op = 0 then v else if op = 1 then (if x = v then w else x) else if op = 2 then (x + v) % m
  else if op = 3 then x &&& v else if op = 4 then x ||| v else if op = 5 then Nat.xor x v
  else if op = 6 then (if sv < sx then v else x) else if op = 7 then (if sx < sv then v else x)
  else if op = 8 then min x v else max x v
/-- The value after an atomic has been carried out k times on a location that held x (R236). -/
def atomicTimes (c : Cell) : Nat → Nat → Nat
  | 0, x => x
  | k + 1, x => let n := atomicSize c; atomicTimes c k (atomicVal (atomicOp c) n x (getLE c.payload 0 n) (getLE c.payload n n))

/-- What a request is answered with. -/
structure Ans where
  st : Nat
  slow : Bool := false
  data : List Byte := []
  grant : Nat := 0
  withData : Bool := false
  line : Option Nat := none
deriving DecidableEq, Repr
/-- A failed CXL.mem request is recorded and reported to the LD's ring (R413). -/
def memErr (s : State) (i dpa st : Nat) : State :=
  let s := (((s.bump (F.HOST_MEMERR_COUNT i)).put (F.HOST_MEMERR_LAST_STATUS i) st).put (F.HOST_MEMERR_ADDR_DPA i) dpa)
  if s.host.memErr.contains i then s
  else ({ s with host := { s.host with memErr := i :: s.host.memErr } }).notice 0x0B42 [st, dpa] (ldTenant s i) none (.ld i)
/-- A rider of a combined request is answered in its own name: request k of the combination (R236). -/
def answerRider (st fl : Nat) (data : List Byte) (s : State) (q : Nat × Cell) : State :=
  let c := q.2
  if c.ty = 0x01 then respond s c 0x11 st fl data
  else
    let n := atomicSize c
    respond s c 0x13 st fl (if st = St.ok then natLe n (atomicTimes c q.1 (leNat (slice data 0 n))) else [])
/-- The request completes, and its riders with it. -/
def answerReq (s : State) (r : Req) (a : Ans) : State :=
  let s := reqDrop s r.id
  let s := if r.owes then giveBack s r.inp r.cell.vn else s
  let fl := flagsOf a.st false false a.slow
  let adv := match a.line with | some l => advice s l | none => 0
  match r.ld with
  | some (i, tag) =>
    let bad := a.st != St.ok
    let s := if bad then memErr s i r.dpa a.st else s
    if r.cell.ty = 0x01 ∨ r.cell.ty = 0x40 ∨ r.cell.ty = 0x41 then
      let s := s.emit (.memData i tag (if bad then List.replicate 64 255 else slice a.data 0 64))
      if a.grant = 0 then s else s.emit (.memCmp i tag a.grant)
    else if r.cell.ty = 0x42 then s.emit (.memCmp i tag a.grant)
    else s.emit (.memCmp i tag 0)
  | none =>
    let s :=
      if r.cell.ty = 0x01 then respond s r.cell 0x11 a.st fl a.data
      else if r.cell.ty = 0x02 then respond s r.cell 0x12 a.st fl []
      else if r.cell.ty = 0x03 then respond s r.cell 0x13 a.st fl (if a.line.isSome then slice a.data 0 64 ++ natLe 1 adv else a.data)
      else if isCoh r.cell.ty then
        let tail := natLe 1 a.grant ++ natLe 1 adv
        if r.cell.ty = 0x40 ∨ r.cell.ty = 0x41 ∨ a.withData then respond s r.cell 0x4C a.st fl (slice a.data 0 64 ++ tail)
        else respond s r.cell 0x4D a.st fl (slice [] 0 64 ++ tail)
      else s
    (((List.range r.riders.length).map (· + 1)).zip (r.riders.map Prod.snd)).foldl (answerRider a.st fl a.data) s

/-- A request, with its riders, completes with a status instead of being performed; one refused with E_LEASE is counted (R394, R407, R420,
Table 14-10). -/
def cutReq (s : State) (r : Req) (st : Nat) : State :=
  answerReq (if st = St.lease then (List.range (r.riders.length + 1)).foldl (fun s _ => s.bump F.EXT_LEASE_FAIL_COUNT) s else s) r { st := st }

/-! ### The access (R73, R87, R195, R268, R271, R272) -/

/-- The data a write request stores; a partial CXL write keeps the bytes it does not enable. -/
def writeData (s : State) (r : Req) : List Byte :=
  let d := slice r.cell.payload 0 (reqLen r.cell)
  if r.ld.isNone then d
  else
    let old := slice (byteRead s (tileId s r.tile) r.off 64).2 0 64
    (List.range 64).map (fun i => if r.en.getD i true then d.getD i 0 else old.getD i 0)
/-- The request stores: a write, a multicast store, a line given back, an atomic. -/
def storing (r : Req) : Bool := r.cell.ty == 0x02 || r.cell.ty == 0x21 || r.cell.ty == 0x43 || r.cell.ty == 0x03
/-- What a request stamped before a boundary finds at a tile that the boundary has changed (R83, R87): the old copy, and E_BUSY for
a store. -/
def pastAccess (r : Req) (p : Past) : Ans :=
  if storing r then { st := St.busy }
  else if p.lost then { st := St.checksum } else { st := St.ok, data := slice p.data r.off (reqLen r.cell) }
/-- A request applied to the slot as it stands. -/
def slotAccess (s : State) (r : Req) : Ans × State :=
  let t := tileId s r.tile
  if r.cell.ty = 0x03 then
    let n := atomicSize r.cell
    let old := (byteRead s t r.off n).2
    let new := atomicTimes r.cell (r.riders.length + 1) (leNat (slice old 0 n))
    let (st, s) := byteStore s t r.off (natLe n new) r.ten r.key
    ({ st := st, data := if st = St.ok then slice old 0 n else [] }, s)
  else if storing r then
    let (st, s) := byteStore s t r.off (writeData s r) r.ten r.key
    ({ st := st }, s)
  else
    let (st, d) := byteRead s t r.off (reqLen r.cell)
    ({ st := st, data := d }, touch s t)
/-- A request performed at the store (R260). A read of the slot passes the ECC (R88); served from far tier, the request and each of
its riders take the slow path (R101, R102). -/
def access (s : State) (r : Req) : Ans × State :=
  let t := tileId s r.tile
  match pastOf s t r.time with
  | some p => (pastAccess r p, s)
  | none =>
    let slow := isSlow s t
    let (ok, s) := eccRead s t { word := reqWord s r }
    if !ok then ({ st := St.checksum }, s)
    else
      let (a, s) := slotAccess s r
      if a.st ≠ St.ok ∨ !slow then (a, s)
      else ({ a with slow := true }, (List.range (r.riders.length + 1)).foldl (fun s _ => (slowUse s t).2) s)

/-! ### The directory's service (Table 10-4, R295, R297, R300, R303) -/

/-- The agents a line of the request has to be taken from, and whether they must hold nothing afterwards. -/
def targets (s : State) (r : Req) (l : Nat) : List Nat × Bool :=
  let h := holders s l
  let excl := (dirGet s l).state == .excl
  let others := h.filter (fun a => some a != r.agent)
  if r.cell.ty = 0x43 then ([], true)
  else if r.cell.ty = 0x40 then (if excl && !r.asked then others else [], false)
  else if r.cell.ty = 0x01 then (if excl && !r.asked then h else [], false)
  else if isCoh r.cell.ty then (others, true)
  else if r.ld.isSome ∧ excl ∧ r.agent.isSome ∧ others.isEmpty then ([], true)
  else (h, true)
/-- The request asks for a copy, and may have one while the tile is not SHADOWED. -/
def wantsCopy (s : State) (r : Req) : Bool :=
  (r.cell.ty == 0x40 || r.cell.ty == 0x41 || r.cell.ty == 0x42) && (tileGet s (localTile r.tile)).state != .shadowed && (pastOf s (localTile r.tile) r.time).isNone
/-- An earlier request waits for one of the lines, or one is PEND (R287). -/
def lineBusy (s : State) (r : Req) : Bool :=
  (reqLines r).any (fun l => ((dirGet s l).valid && (dirGet s l).state == .pend)
    || s.reqs.any (fun x => x.id < r.id && (x.wait == .line || x.wait == .snoop) && (reqLines x).contains l))
/-- The hold window or the limit of PEND lines keeps the snoops back, or no way can be freed. -/
def lineWaits (s : State) (r : Req) : Bool :=
  ((reqLines r).any (fun l => !(targets s r l).1.isEmpty && (dirNow s < (dirGet s l).holdEnd || pendFull s)))
  || (wantsCopy s r && (reqLines r).any (fun l => !hasWay s l && ((victimLine s l).isNone || pendFull s)))
/-- The request is done at the store, and the entry takes its new state. -/
def completeCoh (s : State) (r : Req) : State :=
  let t := localTile r.tile
  let l := lineOf t r.off
  let a := r.agent.getD 0
  let mine := (holders s l).contains a && r.agent.isSome
  let copy := wantsCopy s r
  if r.cell.ty = 0x40 then
    let (x, s) := access s r
    let e := dirGet s l
    let s := if copy ∧ x.st = St.ok then
        grant (if e.valid ∧ e.state = .excl ∧ e.owner ≠ a then dirSet s l { e with state := .shared, sharers := 2 ^ e.owner } else s) l a false else s
    answerReq s r { x with grant := if copy ∧ x.st = St.ok then 1 else 0, line := some l }
  else if r.cell.ty = 0x42 ∧ mine ∧ copy then answerReq (grant s l a true) r { st := St.ok, grant := 2, line := some l }
  else if r.cell.ty = 0x41 ∨ r.cell.ty = 0x42 then
    let (x, s) := access s r
    let s := if copy ∧ x.st = St.ok then grant s l a true else s
    answerReq s r { x with grant := if copy ∧ x.st = St.ok then 2 else 0, withData := true, line := some l }
  else if r.cell.ty = 0x43 then
    if mine ∧ (dirGet s l).state = .excl then
      let (x, s) := access s r
      answerReq (dirSet s l {}) r { x with line := some l }
    else answerReq s r { st := St.ok, line := some l }
  else if r.cell.ty = 0x02 ∧ r.ld.isSome ∧ mine ∧ (dirGet s l).state = .excl then
    let (x, s) := access s r
    let e := dirGet s l
    let s := match r.ms with
      | .i => dirSet s l {}
      | .s => dirSet s l { e with state := .shared, sharers := 2 ^ a }
      | .a => s
    answerReq s r x
  else
    let (x, s) := access s r
    answerReq s r { x with line := some l }
/-- The service of a request to a line of a coherent window, as far as it goes now. -/
def serve (s : State) (r : Req) : State :=
  if r.lost then
    if r.cell.ty = 0x02 ∨ r.cell.ty = 0x21 then let (x, s) := access s r; answerReq s r x
    else answerReq s r { st := St.checksum, line := (reqLines r).head? }
  else if lineBusy s r then reqHold s r .line
  else
    let moves := (r.cell.ty == 0x41 || r.cell.ty == 0x42 || r.cell.ty == 0x03) && !r.counted
    let s := if moves then predMove s ((reqLines r).headD 0) r.agent else s
    let r := { r with counted := r.counted || moves }
    if lineWaits s r then reqHold s r .line
    else
      let ls := (reqLines r).filter (fun l => !(targets s r l).1.isEmpty)
      if !ls.isEmpty then
        let s := ls.foldl (fun s l => snoopLine s l (targets s r l).1 (targets s r l).2 (some r.id)) s
        reqHold s { r with asked := true } .snoop
      else match (if wantsCopy s r then (reqLines r).find? (fun l => !hasWay s l) else none) with
        | some l => match victimLine s l with
          | some v => reqHold (snoopLine (s.bump F.COH_EVICTIONS_COUNT) v (holders s v) true (some r.id)) r .snoop
          | none => reqHold s r .line
        | none => completeCoh s r

/-! ### At the tier controller -/

/-- The request's timestamp lies in the cut-over of its tile (R113). -/
def cutWait (s : State) (r : Req) : Bool := match (copyOf s (localTile r.tile)).bind Copy.close with | some c => decide (c ≤ r.time) | none => false

/-- The request is performed, or waits for its tile or its line. -/
def perform (s : State) (r : Req) : State :=
  let t := localTile r.tile
  if !keyOk (tileGet s t) r.ten r.key then
    answerReq (fault s r.ten r.va St.key (needOf r.cell.ty r.ld.isSome) (reqWord s r)) r { st := St.key }
  else if cutWait s r then reqHold s r .tile
  else match cohWin s t with
    | none =>
      if isCoh r.cell.ty ∧ r.ld.isNone ∧ r.agent.any (isLost s) then cutReq s r St.lease
      else if isCoh r.cell.ty ∧ (r.ld.isNone ∨ r.cell.ty = 0x42) then answerReq s r { st := St.rights }
      else if isCoh r.cell.ty then let r := { r with cell := { r.cell with ty := 0x01 } }; let (x, s) := access s r; answerReq s r x
      else let (x, s) := access s r; answerReq s r x
    | some n =>
      let r := match r.ld with | some (i, _) => { r with agent := ldAgentIn s i n } | none => r
      match r.agent with
      | some a =>
        if isCoh r.cell.ty ∧ isLost s a then cutReq s r St.lease
        else if mayCache s a n r.ten t r.off r.va then serve s r
        else if isCoh r.cell.ty ∧ (r.ld.isNone ∨ r.cell.ty = 0x42) then answerReq s r { st := St.rights }
        else serve s { r with agent := if isCoh r.cell.ty then none else r.agent, cell := { r.cell with ty := if isCoh r.cell.ty then 0x01 else r.cell.ty } }
      | none =>
        if isCoh r.cell.ty ∧ (r.ld.isNone ∨ r.cell.ty = 0x42) then answerReq s r { st := St.rights }
        else serve s { r with cell := { r.cell with ty := if isCoh r.cell.ty then 0x01 else r.cell.ty } }
/-- A host's write of a line it owns, or that a snoop asks of it, waits for nothing (Table 10-3, R293). -/
def giveUp (s : State) (r : Req) : Bool :=
  r.ld.isSome && r.cell.ty == 0x02 && (match r.ld with
    | some (i, _) => let e := dirGet s (lineOf (localTile r.tile) r.off)
      (slotsOfLd s i).any (fun a => e.valid && ((e.state == .excl && e.owner == a) || (e.state == .pend && bitOf e.sharers a)))
    | none => false)
/-- A checked request takes its place in its source's order (R262, R263). -/
def enter (s : State) (r : Req) : State :=
  if giveUp s r ∧ cutWait s r then reqHold s r .tile
  else if giveUp s r then
    (if (dirGet s (lineOf (localTile r.tile) r.off)).state = .pend then let (x, s) := access s r; answerReq s r x else perform s r)
  else if flowBusy s r then reqHold s r .behind else perform s r

/-! ### Checks (Table 11-5) -/

/-- The arbiter slot of a cell translated here: its local tenant (R239). -/
def slotHere (s : State) (c : Cell) : Nat × State := match winOf s c with
  | some w => if c.tag = 0xFFFF then slotOf s c else (w.winTenant, s)
  | none => slotOf s c
/-- A tenant cell goes to the other half of the pair unchanged (R210) (log 78, DEDUCED). -/
def yokePass (s : State) (inp : Nat) (c : Cell) : State :=
  match pickPort (flowHash s c) (yokePorts s) with
  | some p => let (slot, s) := slotHere s c; let (id, s) := newCellId s; enqueue s inp p slot c id
  | none => unroutable s inp c
/-- The cell of R400: the request as the owner takes it. -/
def ownerCell (s : State) (r : Req) (x : Piece) : Cell :=
  { r.cell with dst := x.owner, tag := x.ownerTag, addr := x.ownerVa + (r.va - x.va), epoch := epochOf s r.ten, dstEp := 0xFF }
/-- A request whose TXN is this hub's own, for which the original waits (R400, R401). -/
def proxy (s : State) (r : Req) (c : Cell) : State :=
  let (t, s) := issue s (31 + flowHash s c / 4 % 2) c none none
  reqHold s r (.fwd t)
/-- The first run of bytes that a host's write enables: offset and count. -/
def enRun (r : Req) : Option (Nat × Nat) :=
  ((List.range 64).find? (fun i => r.en.getD i true)).map (fun a => (a, ((List.range (64 - a)).takeWhile (fun k => r.en.getD (a + k) true)).length))
/-- A host's request goes on to another hub or half. A WRITE cell enables every byte it carries, so a partial write goes as one WRITE
after another, one for each run of its enabled bytes (R400; log 114, DEDUCED). -/
def ldProxy (s : State) (r : Req) (c : Cell) : State :=
  if r.cell.ty ≠ 0x02 then proxy s r { c with ty := if isCoh c.ty then 0x01 else c.ty, len := 63 }
  else match enRun r with
    | none => answerReq s r { st := St.ok }
    | some (a, n) => proxy s { r with en := (List.range 64).map (fun i => r.en.getD i true && (decide (i < a) || decide (a + n ≤ i))) }
        { c with addr := c.addr + a, len := n - 1, payload := slice c.payload a n }
/-- The number and the record of a request accepted now. -/
def newReq (s : State) (inp : Nat) (c : Cell) : Req × State :=
  ({ id := s.nextReq, time := s.time, inp := inp, cell := c, va := c.addr }, { s with nextReq := s.nextReq + 1 })
/-- What the checks find: a refusal at check 1, at check 3, at another check, or at translation, which is a translation fault; the
composition's decision; or where the request is translated to, in this half or in the other. -/
inductive Verdict where
  | window
  | refuse3 (status : Nat)
  | refuse (status : Nat)
  | fault (status va : Nat)
  | hold (idx : Nat)
  | route (idx : Nat)
  | forward (idx : Nat)
  | here (p : Place)
  | away (p : Place)
deriving DecidableEq, Repr
/-- Checks 3 to 7 of a request of tenant r.ten at r.va. -/
def verdict (s : State) (r : Req) (w : Win) : Verdict :=
  let need := needOf r.cell.ty r.ld.isSome
  let here := r.ld.isSome || (r.cell.src == s.hubId && !r.cell.fwd)
  match (if r.cell.ty = 0x21 then C3.pass r.va else check3 s r.ten r.va r.cell.epoch here r.cell.fwd (isCoh r.cell.ty && r.ld.isNone)) with
  | .refuse st => .refuse3 st
  | .hold i => .hold i
  | .route i => .route i
  | .forward i => .forward i
  | .pass va =>
    let (st, x) := xlate s r.ten va need w
    let (ok, e) := check6 s r.ten va (reqLen r.cell) (reqWord s r) need
    let p : Place := ⟨r.ten, va, x.tile, x.off, x.key, e⟩
    if st ≠ St.ok ∧ st ≠ St.key then .fault st va
    else if !ok then .refuse St.lease
    else if st = St.key then .fault st va
    else if homedHere s p.tile then .here p else .away p
/-- A request as it is translated. -/
def Req.put (r : Req) (p : Place) : Req := { r with ten := p.ten, va := p.va, tile := p.tile, off := p.off, key := p.key, ext := p.ext }
/-- The checks of a tenant request cell, from check 1 on, and the request with its tenant (R219, R319 to R323). -/
def cellVerdict (s : State) (r : Req) : Verdict × Req :=
  match winOf s r.cell with
  | none => (.window, r)
  | some w =>
    let r := { r with ten := w.winTenant, agent := agentOfCell s r.cell }
    if !formOk r.cell then (.refuse St.badDesc, r)
    else if tenantCheck s w.winTenant ≠ St.ok then (.refuse (tenantCheck s w.winTenant), r)
    else (verdict s r (some w), r)
/-- A request that the other half performs: its tiles, as this half's engines see them, follow (log 26, DESIGN CHOICE). -/
def farAccess (s : State) (r : Req) : State := if keyOk (tileGet s (tileId s r.tile)) r.ten r.key then (access s r).2 else s
/-- What follows from the checks. -/
def act (s : State) (r : Req) : Verdict → State
  | .window => answerReq (winRefused s r.cell) r { st := St.window }
  | .refuse3 st => answerReq (count3 s st) r { st := st }
  | .refuse st => cutReq s r st
  | .fault st va => answerReq (fault s r.ten va st (needOf r.cell.ty r.ld.isSome) (reqWord s r)) r { st := st }
  | .hold i => reqHold s r (.piece i)
  | .route i =>
    let c := ownerCell s r (pieceGet s i)
    if r.ld.isSome then
      ldProxy s r { c with src := s.hubId, srcEp := 0xFF }
    else r.riders.foldl (fun s q => sendFrom s (gatewayOf s q.2) (ownerCell s { r with cell := q.2 } (pieceGet s i))) (sendFrom (reqDrop s r.id) (gatewayOf s r.cell) c)
  | .forward i =>
    if flowBusy s r then reqHold s r .behind
    else
      let go := fun (s : State) (r : Req) => proxy (s.bump F.EXT_FORWARDS_FORWARDED) r { ownerCell s r (pieceGet s i) with fwd := true, src := s.hubId, srcEp := 0xFF, epoch := r.cell.epoch }
      r.riders.foldl (fun s q => let (x, s) := newReq s q.1 q.2; go s { x with ten := r.ten, va := r.va, agent := r.agent }) (go s { r with riders := [] })
  | .here p => enter s (r.put p)
  | .away p =>
    let r := r.put p
    let s := farAccess s r
    if r.ld.isSome then
      ldProxy s r { r.cell with src := s.hubId, srcEp := (cell0 s 0x01).srcEp, dst := s.hubId, dstEp := if s.sup.upper then 0xFF else 0xFE, tag := 0xFFFF, epoch := r.key, addr := localTile r.tile * 65536 + r.off }
    else r.riders.foldl (fun s q => yokePass s (gatewayOf s q.2) q.2) (yokePass (reqDrop s r.id) (gatewayOf s r.cell) r.cell)
/-- Checks 3 to 7 of a request of tenant r.ten at r.va, at its timestamp (R314, R393); then it enters. -/
def afterTenant (s : State) (r : Req) (w : Win) : State := act s r (verdict (s.asAt r.time) r w)
/-- A tenant request cell at its home. -/
def acceptCell (inp : Nat) (c : Cell) (s : State) : State :=
  let (r, s) := newReq s inp c
  let (v, r) := cellVerdict s r
  act s r v
/-- A request that the ingress stage has translated, with the riders it carries (R219, R235). -/
def acceptAt (inp : Nat) (c : Cell) (p : Place) (riders : List (Nat × Cell)) (s : State) : State :=
  let (r, s) := newReq s inp c
  enter s { (r.put p) with agent := agentOfCell s c, riders := riders }
/-- The ingress stage on a tenant request cell: where it is translated to, if this half performs it (R219). -/
def ingressPlace (s : State) (inp : Nat) (c : Cell) : Option Place := match cellVerdict s (newReq s inp c).1 with
  | (.here p, _) => some p
  | _ => none
/-- Hub-local address of a place. -/
def Place.addr (p : Place) : Nat := localTile p.tile * 65536 + p.off
/-- A CXL.mem request of an LD at a device physical address (R413, R414, R420). -/
def inLdRange (s : State) (i d : Nat) : Bool :=
  let b := s.fld (F.HOST_LD_DC_DC_BASE i) * 65536
  d + 64 ≤ s.fld (F.HOST_LD_STATIC_STATIC i) || (b ≤ d && d + 64 ≤ b + s.fld (F.HOST_LD_DC_DC_LEN i) * 65536)
def acceptLd (i ty dpa tag : Nat) (ms : MetaState) (data : List (Option Byte)) (s : State) : State :=
  if i ≥ 16 ∨ !s.host.linkUp then s else
  let d := dpa / 64 * 64
  let va := s.fld (F.HOST_LD_MAP_VABASE i) + d
  let c := { cell0 s ty with vn := 0, addr := va, len := 63, tag := 0xFFFF, payload := data.map (fun b => b.getD 0) }
  let (r, s) := newReq s 33 c
  let r := { r with ld := some (i, tag), dpa := d, ms := ms, en := data.map Option.isSome, ten := ldTenant s i, agent := agentOfLd s i }
  match (ldGet s i).state with
  | .off => answerReq s r { st := St.unmapped }
  | .draining => answerReq s r { st := St.quiescing }
  | .zeroising => answerReq s r { st := St.quiescing }
  | .on =>
    if !ldBound s i ∨ !inLdRange s i d ∨ va ≥ 2 ^ 52 then answerReq s r { st := St.unmapped }
    else
      let st := tenantCheck s r.ten
      if st ≠ St.ok then answerReq s r { st := st } else afterTenant s r none

/-! ### What an event releases -/

/-- A waiting request that can go on. -/
def runnable (s : State) (r : Req) : Bool := match r.wait with
  | .tile => !cutWait s r
  | .behind => !flowBusy s r
  | .line => !lineBusy s r && !lineWaits s r
  | .snoop => snoopsDone s r.id
  | .piece i => (pieceGet s i).state != 2 && !flowBusy s r
  | .fwd _ => false
def resume (s : State) (r : Req) : State := match r.wait with
  | .piece _ => afterTenant s r (if r.ld.isSome then none else winOf (s.asAt r.time) r.cell)
  | .snoop => serve (reqDrop (resolveFor s r.id) r.id) r
  | .behind =>
    -- a forward that waited for its turn is decided again; a translated request is performed
    if r.tile = 0 ∧ r.off = 0 ∧ (pieceOf s r.ten r.va).isSome then afterTenant (reqDrop s r.id) r (if r.ld.isSome then none else winOf (s.asAt r.time) r.cell)
    else perform (reqDrop s r.id) r
  | .tile => if giveUp s r then enter (reqDrop s r.id) r else perform (reqDrop s r.id) r
  | _ => perform (reqDrop s r.id) r
def pumpN : Nat → State → State
  | 0, s => s
  | n + 1, s => match s.reqs.find? (runnable s) with
    | none => s
    | some r => pumpN n (resume s r)
/-- Every waiting request that can go on does, in order of arrival. -/
def pump (s : State) : State := pumpN (4 * s.reqs.length + 4) (backsGo s)
/-- Translated requests of some kind that are still on their way to the store: in the switch core or at the skimmer. -/
def queuedAny (s : State) (f : Place → Bool) : Bool := s.fab.voq.any (fun q => q.place.any f) || s.fab.skims.any (fun q => q.place.any f)
/-- They complete with a status instead of being performed. -/
def cutQueued (s : State) (f : Place → Bool) (st : Nat) : State :=
  let qs := s.fab.voq.filter (fun q => q.place.any f)
  let ks := s.fab.skims.filter (fun q => q.place.any f)
  let s : State := { s with fab := { s.fab with voq := s.fab.voq.filter (fun q => !q.place.any f), skims := s.fab.skims.filter (fun q => !q.place.any f) } }
  let cut := fun (s : State) (q : Nat × Cell) => let (r, s) := newReq s q.1 q.2; cutReq s r st
  let s := qs.foldl (fun s q => giveBack (cut s (q.inp, q.c)) q.inp q.c.vn) s
  ks.foldl (fun s k => k.riders.foldl cut (cut s (k.inp, k.c))) s

/-! ### Fences (R392, R393) -/

/-- The hub-local tiles of an extent. -/
def extTiles (s : State) (x : Ext) : List Nat :=
  let a := x.start / 65536
  rangeTiles s x.tenant (a * 65536) ((x.start + x.len - 1) / 65536 + 1 - a)
/-- Held lines of an extent's range that its holder caches. -/
def holderLines (s : State) (x : Ext) : List Nat :=
  (extTiles s x).flatMap (fun t => (linesHeld s t 1).filter (fun l => (holders s l).any (reqAgents s x.holder).contains))
/-- Snoops go to the lines a fenced extent's holder still caches, as far as the limit of PEND lines lets them (R287, R393). -/
def fenceSnoops (s : State) (x : Ext) : State :=
  (holderLines s x).foldl (fun s l =>
    let ag := (holders s l).filter (reqAgents s x.holder).contains
    if ag.isEmpty ∨ pendFull s then s else snoopLine s l ag true none) s
/-- The extents in their drain: what the holder caches still, or has been granted since, is taken back. -/
def fenceGo (s : State) : State := s.ext.exts.foldl (fun s e => if e.2.state = 4 then fenceSnoops s e.2 else s) s
/-- The fence is set at f (R393): state, notice to the holder, snoops of the lines it caches. -/
def fence (s : State) (i f : Nat) (expired : Bool) (locks : List Nat) (mb : Option Mbx) : State :=
  let x := extGet s i
  let s := extSet s i { x with state := 4, fence := f, expired := expired, locks := locks, mb := mb }
  let s := s.notice 0x0803 [leaseId i x, f] x.tenant none (reqDest s x.holder)
  fenceSnoops s x
/-- Locks an internal release path asks for; it zeroises once it holds them all (R391, R395). -/
def reclaimLocks (s : State) (x : Ext) : List Nat × State :=
  (tileRuns (extTiles s x)).foldl (fun (r : List Nat × State) q => let (_, id, s) := lockInternal r.2 .reclaim q.1 q.2; (r.1 ++ [id], s)) ([], s)
/-- The release path starts of itself: a lease expired, or the holder is gone. -/
def fenceOwn (s : State) (i f : Nat) (expired : Bool) : State :=
  let (ids, s) := reclaimLocks s (extGet s i)
  fence s i f expired ids none
/-- Every extent of a holder that is gone is fenced (R392). -/
def holderGone (s : State) (req : Nat) : State :=
  (s.ext.exts.filter (fun e => e.2.holder == req && 1 ≤ e.2.state && e.2.state ≤ 3)).foldl (fun s e => fenceOwn s e.1 s.time false) s
/-- The requester word of an agent of the domain at this hub. -/
def agentWord (s : State) (a : Nat) : Nat := if a < 16 then reqLd s (slotLd s a) else 0x20000000 + s.hubId * 256 + (a - 16)

/-- Agent a is lost, and what waited on it goes on (R301, R303). -/
def agentLost (s : State) (a : Nat) : State := pump (holderGone (declareLost s a true) (agentWord s a))
def agentBack (s : State) (a : Nat) : State := rejoin s a

end Sys2Proof.Machine
end

