-- ==== Sys2Proof/Machine/Bytes.lean ====
section
/-! DEFINITION. Machine/Bytes.lean: the meanings of the coherence rows, the CXL.mem rows, multicast stores, and the timers of
requests and of the directory (spec/07 R229, spec/10, spec/15 R413). -/

namespace Sys2Proof.Machine

open Sys2Proof

/-! ### Coherence cells -/

/-- A coherence request at its home; the requests it lets on follow. -/
def cohRow (ty inp : Nat) (c : Cell) (s : State) : State :=
  arriveHere (fun c s => if c.ty = ty then pump (acceptCell inp c s) else s) inp c s
def execCrdS (inp : Nat) (c : Cell) (s : State) : Out State := hubOnly (cohRow 0x40 inp c) s
def execCrdE (inp : Nat) (c : Cell) (s : State) : Out State := hubOnly (cohRow 0x41 inp c) s
def execCupg (inp : Nat) (c : Cell) (s : State) : Out State := hubOnly (cohRow 0x42 inp c) s
def execCwb (inp : Nat) (c : Cell) (s : State) : Out State := hubOnly (cohRow 0x43 inp c) s
/-- CSNP_RSP: matched by TXN and agent; a lost agent's answer, or one nothing waits for, is discarded (R289, R292, R304). -/
def csnpRsp (c : Cell) (s : State) : State :=
  match agentOfCell s c with
  | none => s
  | some a =>
    if isLost s a then s
    else match s.coh.snoops.find? (fun p => p.txn == c.txn && p.agent == a) with
      | none => s
      | some p => pump (snoopAnswer s p.line a (c.opx % 4 == 1 && !p.inv) (if bitOf c.opx 2 then some c.payload else none))
/-- The line an LD's device physical address names. -/
def ldLine (s : State) (i dpa : Nat) : Option Nat :=
  match xlate s (ldTenant s i) (s.fld (F.HOST_LD_MAP_VABASE i) + dpa / 64 * 64) 0 none with
  | (st, x) => if st = St.ok ∧ homedHere s x.tile then some (lineOf (localTile x.tile) x.off) else none
/-- BIRspI, BIRspS, BIRspE (Table 10-3): modified data has come before as a MemWr. -/
def birsp (ld dpa : Nat) (k : BiRsp) (s : State) : State :=
  match (ldLine s ld dpa).bind (fun l => s.coh.snoops.find? (fun p => p.line == l && (slotsOfLd s ld).contains p.agent)) with
  | some p =>
    let l := p.line
    let a := p.agent
    if isLost s a then s
    else
      let e := dirGet s l
      let s := match k with
        | .e => if e.owner = a ∧ e.state = .pend then dirSet s l { e with keepX := true } else s
        | .i => s
        | .s => s
      pump (snoopAnswer s l a (match k with | .s => true | .i => false | .e => false) none)
  | none => s
/-- BIConflict: acknowledged once every earlier snoop of the line to this host is answered (R290). -/
def execBiconflict (ld dpa : Nat) (s : State) : Out State :=
  hubOnly (fun s => match ldLine s ld dpa with
    | some l => ackConflicts (cohSet s { s.coh with conflicts := s.coh.conflicts ++ [(ld, dpa, l)] })
    | none => s.emit (.event "BIConflictAck" [ld, dpa])) s
/-- A line's hold window ends (R297). -/
def execHoldWindowEnd (line : Nat) (s : State) : Out State :=
  hubOnly (fun s => let e := dirGet s line
    if e.valid then pump (s.upTo ((e.holdEnd * 2 + 4) / 5)) else s) s
/-- R294: once per snoop. -/
def execCohSnoopSlow (line agent : Nat) (s : State) : Out State :=
  hubOnly (fun s => match s.coh.snoops.find? (fun p => p.line == line && p.agent == agent && !p.warned) with
    | some p =>
      let s := s.upTo (p.since + us (s.fld F.COH_CTL_SNP_WARN))
      (cohSet s { s.coh with snoops := s.coh.snoops.map (fun q => if q.line = line ∧ q.agent = agent then { q with warned := true } else q) }).notice 0x0503 [line, agent]
    | none => s) s
def execPredDecay (s : State) : Out State := hubOnly predDecay s
/-- The walks of every declaration have ended (R306). -/
def execLostWalkDone (s : State) : Out State := hubOnly (fun s => s.coh.decls.foldl walkDone s) s
/-- LOST_WRITES: entries of the issuer's tenant's record; cleared once every entry has been read (R305, Table 15-5). -/
def lostBytes (e : LostE) : List Byte := natLe 8 (e.agent * 2 ^ 48 + e.addr) ++ natLe 8 (b2n e.linkLoss * 2 ^ 48 + e.tick)
def execLostWrites (mb : Mbx) (start count : Nat) (s : State) : Out State :=
  mbxOnly mb (vendor mb .ten (fun s => match mbxTenant s mb with
    | none => s.reply mb St.rights
    | some n =>
      let r := smGet (fun _ => []) s.coh.recs n
      let out := (r.drop start).take count
      let s := s.reply mb St.ok (out.flatMap lostBytes)
      let seen := smGet (fun _ => 0) s.coh.readTo n
      let seen := if start ≤ seen then max seen (start + count) else seen
      if r.length ≤ seen then
        cohSet s { s.coh with recs := smSet (fun _ => []) s.coh.recs n [], readTo := smSet (fun _ => 0) s.coh.readTo n 0, ovfEp := s.coh.ovfEp.filter (· != n) }
      else cohSet s { s.coh with readTo := smSet (fun _ => 0) s.coh.readTo n seen })) s

/-! ### CXL.mem (R413, Table 10-3) -/

def execMemRd (ld dpa : Nat) (ms : MetaState) (tag : Nat) (s : State) : Out State :=
  hubOnly (fun s => pump (acceptLd ld (match ms with | .i => 0x01 | .s => 0x40 | .a => 0x41) dpa tag ms [] s)) s
def execMemWr (ld dpa : Nat) (ms : MetaState) (tag : Nat) (data : List (Option Byte)) (s : State) : Out State :=
  hubOnly (fun s => pump (acceptLd ld 0x02 dpa tag ms data s)) s
def execMemInv (ld dpa tag : Nat) (s : State) : Out State := hubOnly (fun s => pump (acceptLd ld 0x42 dpa tag .a [] s)) s

/-! ### Multicast stores (R173, R228, R229) -/

/-- MCAST_STORE: replicated by its group (R229); any other cell goes its own way. -/
def execMcastStore (inp : Nat) (c : Cell) (s : State) : Out State :=
  hubOnly (fun s => match ingress s inp c with
    | (none, s) => s
    | (some c, s) => sendFrom s inp c) s

end Sys2Proof.Machine
end

