-- ==== Sys2Proof/Machine/Faults.lean ====
section
/-! DEFINITION. Machine/Faults.lean: a fault of a job: its record, the ABORT it floods, the stop boundary, health points, and what
every member does at an ABORT (R208, R441 to R445, R457). -/

namespace Sys2Proof.Machine

open Sys2Proof

def herdGet (s : State) (j : Nat) : Herd := smGet (fun _ => {}) s.herd.herds j
def herdSet (s : State) (j : Nat) (h : Herd) : State := { s with herd := { s.herd with herds := smSet (fun _ => {}) s.herd.herds j h } }
def herdSlots (s : State) : List Nat := jobSlots.filter (fun j => (herdGet s j).state != 0)
def hasHerd (s : State) (j : Nat) : Bool := (herdGet s j).state != 0
/-- The leader: the lowest member index among the current members (R440). -/
def leaderOf (h : Herd) : Option Member :=
  (h.members.filter (fun m => !m.lost)).foldl (fun (b : Option Member) m => match b with
    | none => some m
    | some x => if m.idx < x.idx then some m else b) none
def isLeader (s : State) (h : Herd) : Bool := ((leaderOf h).map Member.hub) == some s.hubId
/-- Points of Table 16-1 by class and status: 6 stands for a tick step, which has none, and 7 for a refused checkpoint. -/
def faultPoints (cls st : Nat) : Nat :=
  if cls = 1 then (if st = St.overrun then 16 else 0)
  else if cls = 2 ∨ cls = 7 then 64 else if cls = 3 then 256 else if cls = 4 then 1024 else 0
def addScore (h : Herd) (hub n : Nat) : Herd :=
  { h with members := h.members.map (fun m => if m.hub = hub then { m with score := satAdd 16 m.score n } else m) }
/-- The points an ABORT's REASON may stand for at another member: the ABORT names no class (log 25, DESIGN CHOICE). -/
def reasonPoints (st : Nat) : List Nat :=
  if st = St.overrun then [16] else if st = St.checksum ∨ st = St.busy then [64] else if st = St.aborted then [256, 0]
  else if st = St.link then [256, 64, 0] else [0, 64]
def pickPoints (n st : Nat) : Nat := let l := reasonPoints st; l.getD (Config.freeNat n % l.length) 0
/-- Hub ports that are UP (R208, R442). -/
def hubPortsUp (s : State) : List Nat := (List.range 26).filter (fun n => portUp s n && hubPort s n)
/-- An ABORT cell's payload (Table 06-8). -/
def abortPayload (s : State) (origin id tick reason off : Nat) : List Byte :=
  natLe 2 (s.fld F.TICK_TREE_DOMAIN) ++ natLe 2 origin ++ natLe 4 id ++ natLe 6 tick ++ natLe 1 reason ++ natLe 1 0 ++ natLe 4 off
def abortCell (s : State) (pl : List Byte) : Cell := { cell0 s 0x33 with tag := 0xFFFF, payload := pl }
/-- The first boundary at or after d, counted in this hub's own boundaries from T(k) = t. -/
def boundaryFrom (s : State) : Nat → Nat → Nat → Nat → Nat
  | 0, k, _, _ => k
  | fuel + 1, k, t, d => if d ≤ t then k else boundaryFrom s fuel (k + 1) (t + lenAt s k) d
/-- The stop boundary for a detection at an offset of a tick, in this hub's own boundaries (R443): ticks from the present one
keep the level in force, or the announced one from its tick on. -/
def stopBoundary (s : State) (tick off : Nat) : Nat :=
  let d := tickTime s tick + off + 4000
  boundaryFrom s (4000 / 2500 + 4) (tick + 1) (tickTime s (tick + 1)) d
/-- A stop boundary is set for a job of a herd: the earlier one stands (R445). -/
def setStop (s : State) (j k origin reason : Nat) : State :=
  let h := herdGet s j
  let x := jobGet s j
  let earlier : Bool := match h.stop with | some (k', _, _) => decide (k' ≤ k) | none => false
  if earlier then s else jobSet (herdSet s j { h with stop := some (k, origin, reason) }) j { x with stopAt := some k }
/-- The origin floods an ABORT and takes its own stop boundary (R442, R443). -/
def flood (s : State) (j reason cls : Nat) : State :=
  let h := herdGet s j
  if h.state = 0 ∨ h.active then s
  else
    let off := s.time - s.tk.start
    let pl := abortPayload s s.hubId h.id s.tk.num reason off
    let s := { s with fab := { s.fab with aborts := (s.hubId, h.id, s.tk.num, off) :: s.fab.aborts } }
    let s := (hubPortsUp s).foldl (fun s n => sendPort s 33 n (abortCell s pl)) s
    let s := if cls = 4 then s else herdSet s j (addScore (herdGet s j) s.hubId (faultPoints cls reason))
    setStop s j (stopBoundary s s.tk.num off) s.hubId reason
/-- A fault of a job detected here: it stops the job at the coming boundary and aborts it at every member (R441, R442). -/
def raiseFault (s : State) (j status cls : Nat) : State :=
  if takesFault (jobGet s j) cls then flood (markFault s j status cls) j status cls else s
/-- A hub fault reaches every job of the domain at this hub (class 3). -/
def faultAllJobs (s : State) (status cls : Nat) : State := jobSlots.foldl (fun s j => raiseFault s j status cls) s
/-- The slot that runs a herd job. -/
def slotOfHerd (s : State) (id : Nat) : Option Nat := jobSlots.find? (fun j => (herdGet s j).state != 0 && (herdGet s j).id == id)
/-- ABORT: forwarded once, then acted on (R208, R443 to R445). -/
def abortTake (inp : Nat) (c : Cell) (s : State) : State :=
  let dom := getLE c.payload 0 2
  let origin := getLE c.payload 2 2
  let id := getLE c.payload 4 4
  let tick := getLE c.payload 8 6
  let reason := getLE c.payload 14 1
  let off := getLE c.payload 16 4
  if c.ty ≠ 0x33 ∨ dom ≠ s.fld F.TICK_TREE_DOMAIN ∨ s.fab.aborts.contains (origin, id, tick, off) then s
  else
    let s := { s with fab := { s.fab with aborts := (origin, id, tick, off) :: s.fab.aborts } }
    let s := ((hubPortsUp s).filter (· != inp)).foldl (fun s n => sendPort s 33 n { c with ack := 0 }) s
    match slotOfHerd s id with
    | none => s
    | some j =>
      let x := jobGet s j
      let k := stopBoundary s tick off
      let (n, s) := s.draw
      let s := herdSet s j (addScore (herdGet s j) origin (pickPoints n reason))
      if (herdGet s j).active then setStop s j (max k (s.tk.num + 1)) origin reason
      else if x.state ≠ .running ∧ x.state ≠ .armed then s
      else if k ≤ s.tk.num then setStop ((s.bump F.HERD_ABORT_LATE_COUNT).notice 0x0903 [origin, reason, k] x.tenant (some j)) j (s.tk.num + 1) origin reason
      else setStop s j k origin reason
def execAbort (inp : Nat) (c : Cell) (s : State) : Out State := hubOnly (arrive (abortTake inp) inp c) s

/-! ### Herd messages (Table 16-3, R462) -/

def herdPayload (msg status sender id seq epoch tick a0 a1 a2 : Nat) : List Byte :=
  natLe 1 msg ++ natLe 1 status ++ natLe 2 sender ++ natLe 4 id ++ natLe 4 seq ++ natLe 4 epoch ++ natLe 8 tick ++ natLe 8 a0 ++ natLe 8 a1 ++ natLe 8 a2 ++ natLe 16 0
def herdInbox : Nat := 0x2E05CE00000
/-- A message about the herd of slot j. BEAT and DIGEST are sent once, the others until they are answered. -/
def herdSend (s : State) (j dst msg status epoch tick a0 a1 a2 : Nat) : State :=
  let h := herdGet s j
  let seq := (h.seq + 1) % 2 ^ 32
  let s := herdSet s j { h with seq := seq }
  let pl := herdPayload msg status s.hubId h.id seq epoch tick a0 a1 a2
  if msg = 0x01 ∨ msg = 0x06 then (issue s 33 (msgCell s { id := 0, herd := true, dst := dst, addr := herdInbox, payload := pl, sent := s.time }) none none).2
  else msgSend s true j dst herdInbox pl
/-- Members that have neither departed nor been declared lost. -/
def current (h : Herd) : List Member := h.members.filter (fun m => !m.lost)

end Sys2Proof.Machine
end

