-- ==== Sys2Proof/Machine/ChurnCore.lean ====
section
/-! DEFINITION. Machine/ChurnCore.lean: what every engine step does with its operands, and the churn's own state: events of the
arithmetic, frames, images, shadows that wait for the directory (spec/04 R147 to R149, spec/05 R150 to R163, R322 to R325). -/

namespace Sys2Proof.Machine

open Sys2Proof

/-! ### Notices once per tenant per tick, and arithmetic events -/

/-- A notice of a tenant raised once per code and index per tick. -/
def onceTickTen (s : State) (code idx ten : Nat) (job : Option Nat) (args : List Nat) : State :=
  if s.fab.raised.contains (code, idx) then s
  else ({ s with fab := { s.fab with raised := (code, idx) :: s.fab.raised } }).notice code args ten job
/-- An event's place: hub-local tile and element. -/
abbrev EvPlace := Nat × Nat
/-- R149: scheduled work raises a code once per job per body repetition, other work once per tenant per tick. -/
def arithNotice (s : State) (x : Step) (code : Nat) (p : EvPlace) : State :=
  match x.job with
  | some j =>
    if s.chrn.arith.contains (code, j, x.rep) then s
    else ({ s with chrn := { s.chrn with arith := (code, j, x.rep) :: s.chrn.arith } }).notice code [x.phase, x.imgTick, p.1, p.2] x.tenant (some j)
  | none => onceTickTen s code (code * 1024 + x.tenant) x.tenant none [p.1, p.2]
/-- Saturation events are counted at the engine, one for each element a function clamped, and the first of each code is reported
(R147, R149). -/
def arithEvents (s : State) (x : Step) (sats clamps : List EvPlace) : State :=
  let s := if x.cls = 1 then (s.bump (F.CHRN_SAT_COUNT_SATURATED x.inst) sats.length).bump (F.CHRN_SAT_COUNT_CLAMPED x.inst) clamps.length
    else if x.cls = 2 then (s.bump (F.ROWE_SAT_COUNT_SATURATED x.inst) sats.length).bump (F.ROWE_SAT_COUNT_CLAMPED x.inst) clamps.length else s
  let s := match sats.head? with | some p => arithNotice s x 0x0301 p | none => s
  match clamps.head? with | some p => arithNotice s x 0x0302 p | none => s

/-! ### Operands of a step (R87, R88, R322, R324, R325, R564) -/

/-- A step that stands for a command: a checkpoint's copy, or the reads of an open. -/
def quietStep (x : Step) : Bool := x.job.isNone && (x.kind == 4 || (x.kind == 0x20 && x.mb.isNone))
/-- The translation of a step's access from check 2; a refusal is recorded, but for one of a command's own (HERD_CKPT, STRN_OPEN): that is in its completion alone (R324). -/
def stepXlate (s : State) (x : Step) (va need : Nat) : (Nat × Xl) × State :=
  let st := tenantCheck s x.tenant
  if st ≠ St.ok then ((st, ⟨0, 0, x.tenant, 0⟩), s)
  else
    let r := xlate s x.tenant va need none
    (r, if r.1 = St.ok ∨ quietStep x then s else fault s x.tenant va r.1 need (stepReq x))
/-- An unscheduled step is served from a far tile: counted, and its completion carries SLOW_PATH (R14, R101). -/
def slowStep (s : State) (x : Step) (t : Nat) : State :=
  if x.job.isSome then s
  else
    let (slow, s) := slowUse s t
    match stepGet s x.id with | some y => if slow then stepPut s { y with slow := true } else s | none => s
/-- Who reads for a step (R89). -/
def stepReader (x : Step) : Reader := { word := stepReq x, job := x.job, phase := x.phase }
/-- A whole-tile read of an operand: its status, bytes and translation. A step that meets a tile in cut-over is put off (R81); a
command's own read finds the contents the cut-over hands on (log 10, DEDUCED). -/
def readOp (s : State) (x : Step) (va : Nat) (fmt : Option Nat) (need : Nat) : (Nat × List Byte × Xl) × State :=
  let ((st, t), s) := stepXlate s x va need
  let l := tileId s t.tile
  if st ≠ St.ok then ((st, [], t), s)
  else if x.id ≠ 0 ∧ inCutover s l then ((St.ok, [], t), markStuck s)
  else
    let ((st, d), s) := engineRead s l fmt t.ten t.key (stepReader x)
    let s := if st = St.key ∧ !quietStep x then fault s x.tenant va st need (stepReq x) else s
    ((st, d, t), if st = St.ok then slowStep s x l else s)
/-- The class of Table 16-1 of a step's failure. -/
def failClass (st : Nat) : Nat := if st = St.checksum then 2 else 1
/-- A step completes with a status other than OK (R159, R325, R342, R368). -/
def stepFail (s : State) (x : Step) (st cls : Nat) : State :=
  let s := x.locks.foldl lockDrop s
  match x.job with
  | some j => raiseFault (stepDrop s x.id) j st cls
  | none => endUnsched s { x with status := st, data := [] }
/-- A shadow for an operand of a step; none while agents still hold lines of the tile (R274) or it is in its cut-over (R81). -/
def stepShadow (s : State) (t : Nat) (x : Xl) (eng : Nat) (job : Option Nat) : Option Nat × State :=
  if inCutover s t then (none, s)
  else if (cohWin s t).isSome ∧ !(linesHeld s t 1).isEmpty then (none, backInvalidate s (linesHeld s t 1))
  else
    let y := tileGet s t
    if !keyOk y x.ten x.key then (some St.key, s)
    else let (st, s) := takeShadow s t x.ten x.key eng job; (some st, s)
/-- Cells a job's step sends enter the job's EGRESS_D of the tick: one CRC over all of the step's cells (R459). -/
def egressDigest (s : State) (x : Step) (cells : List Cell) : State :=
  match x.job with
  | none => s
  | some j =>
    let old := smGet (fun _ => 0) s.herd.stepDig x.id
    let d := (cells.flatMap (fun c => natLe 8 c.addr ++ slice c.payload 0 256)).foldl crc64Byte old
    { s with herd := { s.herd with stepDig := smSet (fun _ => 0) s.herd.stepDig x.id d, egress := smSet (fun _ => 0) s.herd.egress j (Nat.xor (Nat.xor (smGet (fun _ => 0) s.herd.egress j) old) d) } }
/-- The job runs as a shadow: what its steps would send is digested and discarded (R460). -/
def asShadow (s : State) (x : Step) : Bool := match x.job with | some j => (herdGet s j).active | none => false
/-- The cell colour of a step: scheduled work sends green. -/
def stepColour (x : Step) : Nat := if x.job.isSome then 0 else 1
def chrnSet (s : State) (c : Churn) : State := { s with chrn := c }
/-- Posted pages of a pail in use: frames and assemblies (R151, R164, R176). -/
def postPages (s : State) (e : Nat) : Nat :=
  s.chrn.posts.foldl (fun n p => if p.tile % 16 = e then n + fmtPages p.fmt else n) 0 + (s.chrn.asms.filter (fun a => a.tile % 16 == e)).length
def postLimit (s : State) : Nat := s.fld F.CHRN_POST_CTL_PAGES
/-- Pages a scheduled step may use: those below the posted pages. -/
def schedPages (s : State) : Nat := 64 - postLimit s

/-! ### The reduction step (R156 to R163) -/

/-- The fields of Table 05-4. -/
structure Red where
  tva : Nat
  tiles : Nat
  sources : Nat
  rid : Nat
  ifmt : Nat
  ofmt : Nat
  t : Int
  u : Int
  auto : Bool
  sto : Bool
  accum : Bool
  pail : Bool
  accBase : Nat
  accPages : Nat
  outBase : Nat
deriving DecidableEq, Repr
def redOf (b : List Byte) : Red :=
  let f := getLE b 22 1
  { tva := getLE b 0 8, tiles := getLE b 8 4, sources := getLE b 12 4, rid := getLE b 16 2, ifmt := getLE b 18 1, ofmt := getLE b 19 1, t := toSigned 8 (getLE b 20 1), u := toSigned 8 (getLE b 21 1),
    auto := bitOf f 0, sto := bitOf f 1, accum := bitOf f 2, pail := bitOf f 3, accBase := getLE b 23 1, accPages := getLE b 24 1, outBase := getLE b 25 1 }
def Red.frames (r : Red) : Nat := if fmtPages r.ofmt = 0 then 0 else r.accPages / fmtPages r.ofmt
/-- Blocks of the contribution format in one target tile. -/
def Red.blocks (r : Red) : Nat := fmtElems r.ofmt / fmtBlock r.ifmt
/-- R158 and R159. -/
def redOk (s : State) (r : Red) (expect len : Nat) : Bool :=
  len == 32 && r.tva % 65536 == 0 && r.tva < 2 ^ 52 && 1 ≤ r.tiles && r.tiles ≤ 65536 && 1 ≤ r.sources && 1 ≤ r.rid
  && 1 ≤ r.ifmt && r.ifmt ≤ 3 && 1 ≤ r.ofmt && r.ofmt ≤ 4 && decide (-127 ≤ r.t) && decide (-127 ≤ r.u)
  && 1 ≤ r.frames && r.accBase + r.accPages ≤ schedPages s
  && (!r.pail || (r.outBase + r.tiles ≤ schedPages s && !overlaps r.outBase r.tiles r.accBase r.accPages))
  && r.sources + b2n r.accum ≤ 65536
  && expect * fmtBlock r.ifmt == r.sources * r.tiles * fmtElems r.ofmt
def frameGet (x : Step) (i : Nat) : Option Frame := x.frames.find? (fun f => f.idx == i)
def framePut (x : Step) (f : Frame) : Step := { x with frames := x.frames.filter (fun g => g.idx != f.idx) ++ [f] }
/-- The reduction step of a tenant with a RID that runs at a timestamp (R156). -/
def redStep (s : State) (ten rid time : Nat) : Option Step :=
  s.seq.steps.find? (fun x => x.cls == 1 && x.kind == 1 && x.tenant == ten && !x.waiting && decide (x.start ≤ time) && (redOf x.body).rid == rid)
/-- The pages of a frame are taken: an image that lay there is gone (R154). -/
def takePages (s : State) (eng page n : Nat) : State :=
  chrnSet s { s.chrn with images := s.chrn.images.filter (fun i => !(i.eng == eng && page ≤ i.page && i.page < page + n)) }
/-- A contribution added to an accumulator (R134). -/
def accAdd (m : SMap Int) (e : Nat) (v : Int) : SMap Int := smSet (fun _ => 0) m e (smGet (fun _ => 0) m e + v)
/-- The contributions of a stored tile at target scale t: accumulators and clamped elements. -/
def accTile (f : Nat) (tile : List Byte) (t : Int) : SMap Int × List Nat :=
  let l := (List.range (fmtElems f)).zip (tileAligned f tile t)
  (l.filterMap (fun e => if e.2.1 = 0 then none else some (e.1, e.2.1)), (l.filter (fun e => e.2.2)).map Prod.fst)
/-- Contributions of the blocks of a reduction cell: element, aligned value, clamp. -/
def cellAligned (c : Cell) (t : Int) : List (Nat × Int × Bool) :=
  let f := getLE c.payload 8 1
  let b := fmtBlock f
  let e0 := getLE c.payload 4 4
  let a := c.payload.toArray
  (List.range (getLE c.payload 9 1 * b)).map (fun k =>
    let sc := toSigned 8 (getLE c.payload (16 + k / b) 1)
    (e0 + k, align (elemAt f a (32 + k / b * fmtBytes f) (k % b)) sc t))
/-- R161's form, for a tile of `elems` elements. -/
def cellForm (c : Cell) (elems : Nat) : Bool :=
  let f := getLE c.payload 8 1
  let n := getLE c.payload 9 1
  let e0 := getLE c.payload 4 4
  1 ≤ f && f ≤ 3 && 1 ≤ n && n ≤ (if f = 1 then 14 else 7) && e0 % fmtBlock f == 0 && e0 + n * fmtBlock f ≤ elems
/-- A tile of converted accumulators: its bytes and the elements that saturated (R138, R162). -/
def convTile (f : Nat) (acc : SMap Int) (t : Int) (auto : Bool) (u : Int) (sto : Bool) (z : Nat → Nat) : List Byte × List Nat :=
  let n := fmtBlock f
  let bs := (List.range (fmtBlocks f)).map (fun b => convBlock f ((List.range n).map (fun i => smGet (fun _ => 0) acc (b * n + i))) t auto u sto (fun i => z (b * n + i)))
  (tileBytes f bs, (((List.range (fmtElems f)).zip (bs.flatMap Blk.sat)).filter Prod.snd).map Prod.fst)
def frameFull (r : Red) (f : Frame) : Bool := (List.range r.blocks).all (fun b => smGet (fun _ => 0) f.got b == r.sources)
/-- The hub-local number of target tile i, for notices. -/
def redTile (s : State) (x : Step) (r : Red) (i : Nat) : Nat := localTile (xlate s x.tenant (r.tva + 65536 * i) 0 none).2.tile
/-- A complete frame is converted and written, or waits for the directory (R162). -/
def convFrame (s : State) (x : Step) (r : Red) (f : Frame) : State :=
  let vt := (r.tva / 65536 + f.idx) % 2 ^ 36
  let (d, sat) := convTile r.ofmt f.acc r.t r.auto r.u r.sto (fun e => dither64 x.seed x.rep 0x08 vt e)
  let t := redTile s x r f.idx
  let done := fun (s : State) =>
    let s := arithEvents s x (sat.map (fun e => (t, e))) []
    let x' := framePut { x with saturated := x.saturated || !sat.isEmpty } { idx := f.idx, done := true }
    let fin := (x'.frames.filter Frame.done).length == r.tiles && x'.got == x'.expect
    stepPut s { x' with done := fin, blocked := false }
  if r.pail then
    done (chrnSet s { s.chrn with images := s.chrn.images.filter (fun i => !(i.eng == x.inst && i.page == r.outBase + f.idx)) ++ [{ eng := x.inst, page := r.outBase + f.idx, job := x.job.getD 0, fmt := r.ofmt, data := d }] })
  else
    let ((st, xl), s) := stepXlate s x (r.tva + 65536 * f.idx) (if r.accum then Need.rw else Need.w)
    if st ≠ St.ok then stepFail s x st 1
    else match stepShadow s (tileId s xl.tile) xl (engOf x) x.job with
      | (none, s) => stepPut s { x with blocked := true }
      | (some st, s) =>
        if st = St.ok then done (shadowWrite s (tileId s xl.tile) r.ofmt d)
        else stepFail (if st = St.key then fault s x.tenant (r.tva + 65536 * f.idx) st (if r.accum then Need.rw else Need.w) (stepReq x) else s) x st 1
/-- Every complete frame of a step is converted. -/
def convFrames (s : State) (id : Nat) : State :=
  match stepGet s id with
  | none => s
  | some x =>
    let r := redOf x.body
    (x.frames.filter (fun f => !f.done && frameFull r f)).foldl (fun s f => match stepGet s id with
      | some x => convFrame s x r f
      | none => s) s
/-- CHURN_STRAY (R156). -/
def stray (s : State) (ten rid : Nat) : State := onceTickTen (s.bump F.CHRN_STRAY_COUNT) 0x0310 ten ten none [rid]
/-- A malformed or excess cell reached a running step (R161). -/
def badCell (s : State) (x : Step) : State :=
  let s := onceTickTen s 0x0311 (0x100000 + x.job.getD 0) x.tenant x.job [x.inst, x.phase]
  stepFail s x St.badDesc 1
/-- What a reduction cell meets at its step: taken (true) or held back, and the state. -/
def takeCell (s : State) (x : Step) (c : Cell) : Bool × State :=
  let s0 := s
  let r := redOf x.body
  let i := getLE c.payload 2 2
  let n := getLE c.payload 9 1
  let b0 := getLE c.payload 4 4 / fmtBlock r.ifmt
  if getLE c.payload 8 1 ≠ r.ifmt ∨ r.tiles ≤ i ∨ !cellForm c (fmtElems r.ofmt) then (true, badCell s x)
  else
    let opened := frameGet x i
    if (opened.map Frame.done) = some true then (true, badCell s x)
    else if (List.range (i / r.frames)).any (fun k => ((frameGet x (i % r.frames + k * r.frames)).map Frame.done) != some true) then (false, s)
    else
      let ((st, f), s) := match opened with
        | some f => ((St.ok, f), s)
        | none =>
          let s := takePages s x.inst (r.accBase + i % r.frames * fmtPages r.ofmt) (fmtPages r.ofmt)
          if r.accum then
            let ((st, d, _), s) := readOp s x (r.tva + 65536 * i) (some r.ofmt) Need.rw
            let (acc, cl) := accTile r.ofmt d r.t
            ((st, { idx := i, acc := acc, clamped := cl }), arithEvents s x [] (cl.map (fun e => (redTile s x r i, e))))
          else ((St.ok, { idx := i }), s)
      if s.st.stuck then (false, stSet s0 { s0.st with stuck := false })
      else if st ≠ St.ok then (true, stepFail s x st (failClass st))
      else if (List.range n).any (fun k => r.sources ≤ smGet (fun _ => 0) f.got (b0 + k)) then (true, badCell s x)
      else
        let l := cellAligned c r.t
        let cl := (l.filter (fun e => e.2.2)).map Prod.fst
        let f' : Frame := { f with acc := l.foldl (fun m e => accAdd m e.1 e.2.1) f.acc, got := (List.range n).foldl (fun m k => smSet (fun _ => 0) m (b0 + k) (smGet (fun _ => 0) m (b0 + k) + 1)) f.got, clamped := f.clamped ++ cl }
        let x' := framePut { x with got := x.got + n, saturated := x.saturated || !cl.isEmpty || !f.clamped.isEmpty } f'
        let s := arithEvents (stepPut s x') x [] (cl.map (fun e => (redTile s x r i, e)))
        (true, convFrames s x.id)
/-- The internal port of a step's engine (Table 07-1). -/
def stepPort (x : Step) : Nat := if x.cls = 1 then churnPort x.inst else if x.cls = 2 then 29 else 30
/-- A cell that W assigns to a step goes to its shadower as a yellow copy. One that finds no buffer entry is dropped, and the shadowing
fails: W sends no further DIGEST (R460, R461; log 24, DESIGN CHOICE). -/
def shadowCopy (s : State) (x : Step) (c : Cell) : State := match x.job with
  | some j => match (herdGet s j).shadower with
    | some h =>
      let c := { c with dst := h, colour := 1 }
      if !s.fab.unsent.any (fun u => u.unit == stepPort x) && hasEntry s (stepPort x) c then sendPlain s (stepPort x) c
      else herdSet s j { (herdGet s j) with shadower := none }
    | none => s
  | none => s
/-- A reduction cell of a tenant: to its step, or discarded (R156). -/
def reduceCell (s : State) (ten : Nat) (c : Cell) (time : Nat) (first : Bool) : Bool × State :=
  match redStep s ten (getLE c.payload 0 2) time with
  | none => (true, stray s ten (getLE c.payload 0 2))
  | some x => takeCell (if first then shadowCopy s x c else s) x c

end Sys2Proof.Machine
end

