-- ==== Sys2Proof/Machine/Churn.lean ====
section
/-! DEFINITION. Machine/Churn.lean: the churn's steps, posted reductions, checkpoint copies and their rows (spec/05 R164 to R178,
R447, R448). -/

namespace Sys2Proof.Machine

open Sys2Proof

/-! ### The optimiser step (R167 to R171) -/

structure Opt where
  algo : Nat
  sto : Bool
  gsrc : Nat
  auto : Nat
  count : Nat
  wva : Nat
  mva : Nat
  vva : Nat
  gva : Nat
  fw : Nat
  fm : Nat
  fv : Nat
  fg : Nat
  tw : Int
  tm : Int
  tv : Int
  td : Int
  te : Int
  uw : Int
  um : Int
  uv : Int
  b1 : Nat
  b1c : Nat
  b2 : Nat
  b2c : Nat
  lr : Nat
  lrSc : Int
  wdSc : Int
  lrwd : Nat
  eps : Int
  lrt : Nat
  rmode : Nat
deriving DecidableEq, Repr
/-- The body of an optimiser step by its fields (R167; its coefficient table: log 48, DEDUCED). -/
def optOf (b : List Byte) : Opt :=
  let i8 := fun o => toSigned 8 (getLE b o 1)
  { algo := getLE b 0 1, rmode := getLE b 1 1, sto := getLE b 1 1 == 1, gsrc := getLE b 2 1, auto := getLE b 3 1, count := getLE b 4 4, wva := getLE b 8 8, mva := getLE b 16 8, vva := getLE b 24 8, gva := getLE b 32 8,
    fw := getLE b 40 1, fm := getLE b 41 1, fv := getLE b 42 1, fg := getLE b 43 1, tw := i8 44, tm := i8 45, tv := i8 46, td := i8 47, te := i8 48, uw := i8 49, um := i8 50, uv := i8 51,
    b1 := getLE b 52 2, b1c := getLE b 54 2, b2 := getLE b 56 2, b2c := getLE b 58 2, lr := getLE b 60 2, lrSc := i8 62, wdSc := i8 63, lrwd := getLE b 64 2, eps := toSigned 32 (getLE b 68 4), lrt := getLE b 72 8 }
def isMoment (o : Opt) : Bool := o.algo == 2
/-- Tiles of n elements in a format. -/
def tilesOf (f n : Nat) : Nat := if fmtElems f = 0 then 0 else (n + fmtElems f - 1) / fmtElems f
/-- A virtual address of a tile, and of a range of n tiles, within the 52 bits of Table 00-4 (R8; log 107, DEDUCED). -/
def tileVa (va n : Nat) : Bool := va % 65536 == 0 && va + 65536 * n ≤ 2 ^ 52
/-- R167 and R168, but for the images of the gradient. -/
def optOk (o : Opt) (len : Nat) : Bool :=
  let n := 32 * o.count
  let fmt := fun f => 1 ≤ f && f ≤ 4
  let ok8 := fun (v : Int) => decide (-127 ≤ v)
  len == 88 && 1 ≤ o.algo && o.algo ≤ 3 && o.rmode ≤ 1 && o.gsrc ≤ 1 && o.auto < 8 && 1 ≤ o.count && o.count ≤ 2 ^ 26
  && fmt o.fw && fmt o.fm && fmt o.fg && (if isMoment o then fmt o.fv && o.fg ≤ 3 else o.fv == 0 && o.vva == 0)
  && n % fmtElems o.fw == 0 && n % fmtElems o.fm == 0 && (!isMoment o || n % fmtElems o.fv == 0)
  && tileVa o.wva (tilesOf o.fw n) && tileVa o.mva (tilesOf o.fm n) && (!isMoment o || tileVa o.vva (tilesOf o.fv n)) && (o.gsrc == 1 || tileVa o.gva (tilesOf o.fg n))
  && o.lrt % 8 == 0 && o.lrt < 2 ^ 52
  && [o.tw, o.tm, o.tv, o.td, o.te, o.uw, o.um, o.uv, o.lrSc, o.wdSc].all ok8 && decide (0 ≤ o.eps)
/-- The gradient's images (R168): of this job, in format G, in the pages below the posted ones. -/
def optImages (s : State) (x : Step) (o : Opt) : Bool :=
  let n := tilesOf o.fg (32 * o.count)
  o.gsrc == 0 || (o.gva < 64 && o.gva + n ≤ schedPages s
    && (List.range n).all (fun k => s.chrn.images.any (fun i => i.eng == x.inst && i.page == o.gva + k && some i.job == x.job && i.fmt == o.fg)))
/-- cb of R171 for group n: the 32 written elements, their scales, blocks, and saturated elements. -/
structure Cb where
  q : List Int
  u : List Int
  blks : List Blk
  sat : List Nat
deriving DecidableEq, Repr
def cb (x : Step) (o : Opt) (acc : List Int) (t : Int) (f va bit : Nat) (u : Int) (stream n : Nat) : Cb :=
  let e := fmtElems f
  let z := fun i => let k := 32 * n + i; dither64 x.seed x.rep stream ((va / 65536 + k / e) % 2 ^ 36) (k % e)
  let b := fmtBlock f
  let blks := (List.range (32 / b)).map (fun j => convBlock f ((acc.drop (j * b)).take b) t (bitOf o.auto bit) u o.sto (fun i => z (j * b + i)))
  { q := blks.flatMap Blk.q, u := blks.flatMap (fun k => List.replicate b k.u), blks := blks,
    sat := ((List.range 32).zip (blks.flatMap Blk.sat)).filterMap (fun p => if p.2 then some (32 * n + p.1) else none) }
/-- The operand into which an accumulator is converted. -/
inductive Opd where
  | w | m | v
deriving DecidableEq, Repr
/-- A saturation event's place: operand and element (R147, R149). -/
abbrev Ev := Opd × Nat
/-- A value with the clamps that went into it, in the order in which they occurred. -/
abbrev Cl := Int × List Ev
def clOf (o : Opd) (k : Nat) (r : Int × Bool) : Cl := (r.1, if r.2 then [(o, k)] else [])
def clAdd (a b : Cl) : Cl := (a.1 + b.1, a.2 ++ b.2)
def clSub (a b : Cl) : Cl := (a.1 - b.1, a.2 ++ b.2)
/-- What one group writes: blocks of W, M and V, and its events. -/
structure Grp where
  w : Cb
  m : Cb
  v : Option Cb
  sats : List Ev
  clamps : List Ev
deriving DecidableEq, Repr
/-- One of sgdm_group, moment_group and sign_group of R171; g, w, m, v give element k of each operand. A clamp of SIGN's step or of its
c is an event of W, which it goes into (R149; log 107, DEDUCED). -/
def optGroup (x : Step) (o : Opt) (g w m v : Nat → Int × Int) (n : Nat) : Grp :=
  let ks := (List.range 32).map (32 * n + ·)
  let wal := fun k => clOf .w k (align (w k).1 (w k).2 o.tw)
  let wdec := fun k => clOf .w k (term (w k).1 (w k).2 o.lrwd o.wdSc o.tw)
  let blend := fun (p : Opd) (b b' k : Nat) => clAdd (clOf p k (term (m k).1 (m k).2 b (-16) o.tm)) (clOf p k (term (g k).1 (g k).2 b' (-16) o.tm))
  let vals := fun (l : List Cl) => l.map Prod.fst
  let evs := fun (l : List Cl) => l.flatMap Prod.snd
  let sat := fun (p : Opd) (c : Cb) => c.sat.map (fun k => (p, k))
  if o.algo = 3 then
    let step := clOf .w (32 * n) (term o.lr o.lrSc 1 0 o.tw)
    let l := ks.map (fun k =>
      let c := blend .w o.b1 o.b1c k
      let wa := clSub (clSub (wal k) (c.1.sign * step.1, [])) (wdec k)
      ((wa.1, c.2 ++ wa.2), blend .m o.b2 o.b2c k))
    let cm := cb x o (vals (l.map Prod.snd)) o.tm o.fm o.mva 1 o.um 0x02 n
    let cw := cb x o (vals (l.map Prod.fst)) o.tw o.fw o.wva 0 o.uw 0x01 n
    { m := cm, w := cw, v := none, sats := sat .m cm ++ sat .w cw, clamps := step.2 ++ l.flatMap (fun p => p.1.2 ++ p.2.2) }
  else
    let ma := ks.map (fun k => if o.algo = 1 then clAdd (clOf .m k (term (m k).1 (m k).2 o.b1 (-16) o.tm)) (clOf .m k (align (g k).1 (g k).2 o.tm)) else blend .m o.b1 o.b1c k)
    let va := if !isMoment o then ks.map (fun _ => ((0, []) : Cl))
      else ks.map (fun k => clAdd (clOf .v k (term (v k).1 (v k).2 o.b2 (-16) o.tv)) (clOf .v k (term ((g k).1 * (g k).1) (2 * (g k).2) o.b2c (-16) o.tv)))
    let cm := cb x o (vals ma) o.tm o.fm o.mva 1 o.um 0x02 n
    let cv := cb x o (vals va) o.tv o.fv o.vva 2 o.uv 0x03 n
    let upd := fun k =>
      let i := k - 32 * n
      if o.algo = 1 then clOf .w k (term (cm.q.getD i 0) (cm.u.getD i 0) o.lr o.lrSc o.tw)
      else
        let dn := clOf .w k (align (cv.q.getD i 0) (cv.u.getD i 0) o.te)
        let (r, sr) := rsqrt (max 0 (dn.1 + o.eps)) o.te
        let d := clOf .w k (term (cm.q.getD i 0) (cm.u.getD i 0) r sr o.td)
        let t := clOf .w k (term d.1 o.td o.lr o.lrSc o.tw)
        (t.1, dn.2 ++ d.2 ++ t.2)
    let wa := ks.map (fun k => let u := upd k; let y := clSub (clSub (wal k) (u.1, [])) (wdec k); (y.1, u.2 ++ y.2))
    let cw := cb x o (vals wa) o.tw o.fw o.wva 0 o.uw 0x01 n
    { m := cm, w := cw, v := if isMoment o then some cv else none,
      sats := sat .m cm ++ (if isMoment o then sat .v cv else []) ++ sat .w cw, clamps := (ma.zip va).flatMap (fun p => p.1.2 ++ p.2.2) ++ evs wa }
/-- Several operand tiles read: their bytes and translations, or the status that failed. -/
def readTiles (s : State) (x : Step) (va f need : Nat) : Nat → (Nat × List (List Byte × Xl)) × State
  | 0 => ((St.ok, []), s)
  | n + 1 =>
    let ((st, l), s) := readTiles s x va f need n
    if st ≠ St.ok then ((st, l), s)
    else
      let ((st, d, t), s) := readOp s x (va + 65536 * n) (some f) need
      ((st, l ++ [(d, t)]), s)
def elemOf (f : Nat) (tiles : List (Array Byte)) (k : Nat) : Int × Int :=
  rdElem f (tiles.getD (k / fmtElems f) #[]) (k % fmtElems f)
/-- The operand tiles as indexed bytes. -/
def tileArrays (l : List (List Byte × Xl)) : List (Array Byte) := l.map (fun p => p.1.toArray)
/-- Shadows of an operand written whole from its blocks (R72): the status, none while the directory holds a tile back. -/
def writeTiles (s : State) (x : Step) (f : Nat) (tiles : List (List Byte × Xl)) (bs : List Blk) : Option Nat × State :=
  ((List.range tiles.length).zip tiles).foldl (fun (r : Option Nat × State) p =>
    if r.1 ≠ some St.ok then r
    else
      let t := tileId r.2 p.2.2.tile
      match stepShadow r.2 t p.2.2 (engOf x) x.job with
        | (some st, s) => if st = St.ok then (some st, shadowWrite s t f (tileBytes f ((bs.drop (p.1 * fmtBlocks f)).take (fmtBlocks f)))) else (some st, s)
        | (none, s) => (none, s)) (some St.ok, s)
/-- The place of an operand's element, for notices (R149). -/
def placeOf (f : Nat) (tiles : List (List Byte × Xl)) (k : Nat) : EvPlace :=
  (localTile ((tiles.getD (k / fmtElems f) ([], ⟨0, 0, 0, 0⟩)).2.tile), k % fmtElems f)
/-- No line of the tiles is held by an agent; otherwise they are back-invalidated first (R274). -/
def tilesClear (s : State) (ts : List Nat) : Bool := ts.all (fun t => (cohWin s t).isNone || (linesHeld s t 1).isEmpty)
def clearTiles (s : State) (ts : List Nat) : State := ts.foldl (fun s t => if (cohWin s t).isSome then backInvalidate s (linesHeld s t 1) else s) s
/-- The work of an optimiser step. -/
def runOpt (s : State) (x : Step) : State :=
  let o := optOf x.body
  if !optOk o x.body.length ∨ !optImages s x o then stepFail s x St.badDesc 1
  else
    let n := 32 * o.count
    let nw := tilesOf o.fw n
    let nm := tilesOf o.fm n
    let nv := if isMoment o then tilesOf o.fv n else 0
    let ((st, w), s) := readTiles s x o.wva o.fw Need.rw nw
    if st ≠ St.ok then stepFail s x st (failClass st) else
    let ((st, m), s) := readTiles s x o.mva o.fm Need.rw nm
    if st ≠ St.ok then stepFail s x st (failClass st) else
    let ((st, v), s) := readTiles s x o.vva o.fv Need.rw nv
    if st ≠ St.ok then stepFail s x st (failClass st) else
    let ((st, g), s) := if o.gsrc = 1 then
        ((St.ok, (List.range (tilesOf o.fg n)).map (fun k => (((s.chrn.images.find? (fun i => i.eng == x.inst && i.page == o.gva + k)).map PailImg.data).getD [], (⟨0, 0, 0, 0⟩ : Xl)))), s)
      else readTiles s x o.gva o.fg Need.r (tilesOf o.fg n)
    if st ≠ St.ok then stepFail s x st (failClass st) else
    let ((st, o), s) := if o.lrt = 0 then ((St.ok, o), s) else
        let a := o.lrt + 8 * x.rep
        let ((st, d, t), s) := readOp s x (a / 65536 * 65536) none Need.r
        let _ := t
        let e := slice d (a % 65536) 8
        let o' := { o with lr := getLE e 0 2, lrSc := toSigned 8 (getLE e 2 1), wdSc := toSigned 8 (getLE e 3 1), lrwd := getLE e 4 2 }
        ((if st = St.ok ∧ (o'.lrSc = -128 ∨ o'.wdSc = -128) then St.badDesc else st, o'), s)
    if st ≠ St.ok then stepFail s x st (failClass st) else
    let outs := (w ++ m ++ v).map (fun p => tileId s p.2.tile)
    if !tilesClear s outs then stepPut (clearTiles s outs) { x with blocked := true }
    else
      let ga := tileArrays g
      let wr := tileArrays w
      let mr := tileArrays m
      let vr := tileArrays v
      let gs := (List.range o.count).map (optGroup x o (elemOf o.fg ga) (elemOf o.fw wr) (elemOf o.fm mr) (elemOf o.fv vr))
      let (r, s) := writeTiles s x o.fw w (gs.flatMap (fun p => p.w.blks))
      if r ≠ some St.ok then stepFail s x (r.getD St.busy) 1 else
      let (r, s) := writeTiles s x o.fm m (gs.flatMap (fun p => p.m.blks))
      if r ≠ some St.ok then stepFail s x (r.getD St.busy) 1 else
      let (r, s) := writeTiles s x o.fv v (gs.flatMap (fun p => (p.v.map Cb.blks).getD []))
      if r ≠ some St.ok then stepFail s x (r.getD St.busy) 1 else
      let place := fun (e : Ev) => match e.1 with | .w => placeOf o.fw w e.2 | .m => placeOf o.fm m e.2 | .v => placeOf o.fv v e.2
      let sats := (gs.flatMap Grp.sats).map place
      let cls := (gs.flatMap Grp.clamps).map place
      stepPut (arithEvents s x sats cls) { x with done := true, blocked := false, saturated := !sats.isEmpty || !cls.isEmpty }

/-! ### Multicast and checkpoint steps (R172 to R175, R447) -/

/-- The 256 data cells of a tile. -/
def tileCells (s : State) (x : Step) (ty dst tag txn va : Nat) (d : List Byte) : List Cell :=
  (List.range 256).map (fun k => { cell0 s ty with colour := stepColour x, dst := dst, tag := tag, txn := txn, addr := va + 256 * k, len := 255, payload := slice d (256 * k) 256 })
/-- Source tiles read one after another in rising order, each handed on as it is read. -/
def overTiles (s : State) (x : Step) (va n : Nat) (f : State → Nat → List Byte → Xl → State) : Nat × State :=
  (List.range n).foldl (fun (r : Nat × State) i =>
    if r.1 ≠ St.ok then r
    else
      let ((st, d, t), s) := readOp r.2 x (va + 65536 * i) none Need.r
      if st = St.ok then (st, f s i d t) else (st, s)) (St.ok, s)
/-- A multicast step: every tile leaves as cells; `aux` keeps the numbers of the cells' entries, first and after the last (R172). -/
def runMcast (s : State) (x : Step) : State :=
  let b := x.body
  let src := getLE b 0 8
  let n := getLE b 8 4
  let group := getLE b 12 2
  let tag := getLE b 14 2
  let dst := getLE b 16 8
  if b.length ≠ 24 ∨ x.expect ≠ 0 ∨ group = 0 ∨ tag = 0xFFFF ∨ !tileVa src n ∨ !tileVa dst n ∨ n = 0 ∨ 65536 < n then stepFail s x St.badDesc 1
  else
    let first := s.fab.nextId
    let (st, s) := overTiles s x src n (fun s i d _ =>
      let cs := tileCells s x 0x21 0 tag group (dst + 65536 * i) d
      let s := egressDigest s x cs
      if asShadow s x then s else cs.foldl (fun s c => sendFrom s (churnPort x.inst) c) s)
    if st ≠ St.ok then stepFail s x st (failClass st) else stepPut s { x with done := true, aux := [first, s.fab.nextId] }
/-- The fields of Table 05-7, with the epoch and destination of the repetition (R447). -/
structure Ckpt where
  src : Nat
  tiles : Nat
  partner : Nat
  tag : Nat
  dst : Nat
  epoch : Nat
  rid : Nat
deriving DecidableEq, Repr
def ckptOf (x : Step) : Ckpt :=
  let b := x.body
  let e := getLE b 24 4
  let ep := if x.job.isSome then (e + x.rep) % 2 ^ 32 else e
  let n := getLE b 8 4
  { src := getLE b 0 8, tiles := n, partner := getLE b 12 2 % 4096, tag := getLE b 14 2, dst := getLE b 16 8 + (if x.job.isSome ∧ ep % 2 = 1 then 65536 * n else 0), epoch := ep, rid := getLE b 28 2 }
def ckptOk (k : Ckpt) (x : Step) : Bool :=
  x.body.length == 32 && (x.job.isNone || x.expect == k.tiles) && k.tag != 0xFFFF && tileVa k.src k.tiles && tileVa k.dst k.tiles && 1 ≤ k.tiles && k.tiles ≤ 65536 && 1 ≤ k.rid
/-- The trailer of a tile (Table 05-8). -/
def trailer (s : State) (x : Step) (k : Ckpt) (i crcp : Nat) (t : Tile) : Cell :=
  { cell0 s 0x22 with colour := stepColour x, last := true, dst := k.partner, tag := k.tag, addr := k.dst + 65536 * i, len := 255, payload := natLe 1 t.format ++ natLe 1 0 ++ natLe 2 k.rid ++ natLe 4 i ++ natLe 8 crcp ++ natLe 2 t.version ++ natLe 6 0 ++ natLe 8 t.sealTick ++ natLe 4 k.epoch ++ natLe 2 s.hubId }
/-- The maintenance locks of a copy's source tiles: its locks and, unless they are all held, the status that ends a commanded copy; a
scheduled one waits for those it lacks (R121, R174). -/
def ckptLocks (s : State) (x : Step) (k : Ckpt) : (Nat × List Nat × Bool) × State :=
  if !x.locks.isEmpty then ((St.ok, x.locks, s.st.locks.all (fun l => l.held || !x.locks.contains l.id)), s)
  else
    let runs := tileRuns (rangeIds s x.tenant k.src k.tiles)
    if x.job.isNone then let (st, ids, s) := lockRuns s .checkpoint runs; ((st, ids, true), s)
    else runs.foldl (fun (r : (Nat × List Nat × Bool) × State) q =>
      let (go, id, s) := lockInternal r.2 .checkpoint q.1 q.2
      ((St.ok, r.1.2.1 ++ [id], r.1.2.2 && go), s)) ((St.ok, [], true), s)
/-- The cells of a copy, tile by tile, and one acknowledgement to come for each (R175, R177); a shadow's cells are discarded, and it
takes W's acknowledgements (R460). -/
def ckptSend (s : State) (x : Step) (k : Ckpt) : State :=
  let (st, s) := overTiles s x k.src k.tiles (fun s i d t =>
    let y := tileGet s (tileId s t.tile)
    let crcp := crc64 (slice d 0 65536)
    let cs := tileCells s x 0x22 k.partner k.tag 0 (k.dst + 65536 * i) d ++ [trailer s x k i crcp y]
    let s := match stepGet s x.id with
      | some z => stepPut s { z with acks := z.acks ++ [{ idx := i, left := if asShadow s x then some s.tk.num else none, vtile := (k.src / 65536 + i) % 2 ^ 36, version := y.version, crcp := crcp }] }
      | none => s
    let s := egressDigest s x cs
    if asShadow s x then s else cs.foldl (fun s c => sendFrom s (churnPort x.inst) c) s)
  match stepGet s x.id with
  | none => s
  | some z =>
    if st ≠ St.ok then stepFail s z st (failClass st)
    else stepPut s { z with blocked := false }
/-- A checkpoint copy (R174, R175, R177). -/
def runCkpt (s : State) (x : Step) : State :=
  let k := ckptOf x
  if !ckptOk k x then stepFail s x St.badDesc 1
  else
    let ((st, ids, go), s) := ckptLocks s x k
    if st ≠ St.ok then stepFail s x st 1
    else
      let x := { x with locks := ids, blocked := !go }
      let s := stepPut s x
      if go then orLater (fun s => ckptSend s x k) (fun s => stepPut s { x with blocked := true }) s else s

/-! ### Starting a churn step (R157, R159) -/

def runRed (s : State) (x : Step) : State :=
  let r := redOf x.body
  if s.seq.steps.any (fun y => y.id != x.id && y.kind == 1 && y.tenant == x.tenant && (redOf y.body).rid == r.rid) then
    stepFail (s.notice 0x0312 [r.rid, x.phase] x.tenant x.job) x St.badDesc 1
  else if !redOk s r x.expect x.body.length then stepFail s x St.badDesc 1
  else s
/-- The work of a churn step that has its record. -/
def runChurn (s : State) (x : Step) : State :=
  if x.kind = 1 then runRed s x
  else if x.kind = 2 then runOpt s x
  else if x.kind = 3 then runMcast s x
  else runCkpt s x

/-! ### Posted reductions (R164 to R166) -/

/-- CHURN_POST_DROP. -/
def postDrop (s : State) (ten : Nat) : State := onceTickTen (s.bump F.CHRN_POST_DROP_COUNT) 0x0313 ten ten none []
/-- The cutoff of the tick in progress. -/
def postCut (s : State) : Nat := s.tk.start + tickLen s - s.fld F.CHRN_POST_CTL_CUTOFF
def postSet (s : State) (p : Post) : State :=
  chrnSet s { s.chrn with posts := s.chrn.posts.filter (fun q => q.tile != p.tile) ++ [p] }
/-- The churn engine of a tile's posts, as a reader and an actor of no job (R164). -/
def postStep (tile ten : Nat) : Step := { id := 0, tenant := ten, cls := 1, inst := tile % 16 }
/-- The contributions of a post enter a frame, unless an element would have more than 65,536. -/
def postAdd (s : State) (p : Post) (c : Cell) : State :=
  let l := cellAligned c p.tscale
  let cl := (l.filter (fun e => e.2.2)).map Prod.fst
  let b0 := getLE c.payload 4 4 / 16
  let n := getLE c.payload 9 1 * fmtBlock (getLE c.payload 8 1) / 16
  if (List.range n).any (fun k => 65536 ≤ smGet (fun _ => 0) p.got (b0 + k)) then postDrop s p.tenant
  else
    postSet (arithEvents s (postStep p.tile p.tenant) [] (cl.map (fun e => (p.tile, e)))) { p with
      acc := l.foldl (fun m e => accAdd m e.1 e.2.1) p.acc,
      got := (List.range n).foldl (fun m k => smSet (fun _ => 0) m (b0 + k) (smGet (fun _ => 0) m (b0 + k) + 1)) p.got, clamped := p.clamped ++ cl }
/-- The first post of a tile opens its frame: the stored tile enters as one contribution (R165). -/
def postOpen (s : State) (tile : Nat) (t : Xl) (c : Cell) : State :=
  let y := tileGet s tile
  let f := y.format
  let ts := toSigned 8 (getLE c.payload 10 1)
  let ((st, d), s) := engineRead s tile (some f) t.ten t.key { word := reqEngine 1 (tile % 16) false 0 }
  if st ≠ St.ok then postDrop s t.ten
  else
    let s := (slowUse s tile).2
    let (acc, cl) := accTile f d ts
    let s := arithEvents s (postStep tile t.ten) [] (cl.map (fun e => (tile, e)))
    let p : Post := { tile := tile, tenant := t.ten, key := t.key, fmt := f, tscale := ts, tick := s.tk.num, cut := postCut s, acc := acc, clamped := cl,
                      got := (List.range (fmtElems f / 16)).map (fun k => (k, 1)) }
    postAdd (postSet s p) p c
/-- A post of a tenant, stamped `time`: taken or dropped (true), or held back (log 47, DEDUCED). -/
def postCell (s : State) (w : Ent3) (c : Cell) (time : Nat) : Bool × State :=
  let ten := w.winTenant
  let (st, t) := xlate (s.asAt time) ten c.addr Need.w (some w)
  if !s.flag F.CHRN_POST_CTL_EN then (true, postDrop s ten)
  else if st ≠ St.ok then (true, postDrop (fault s ten c.addr st Need.w (reqFabric c)) ten)
  else
    let tile := localTile t.tile
    let y := tileGet s tile
    let ts := toSigned 8 (getLE c.payload 10 1)
    if !keyOk y t.ten t.key then (true, postDrop (fault s ten c.addr St.key Need.w (reqFabric c)) ten)
    else match s.chrn.posts.find? (fun p => p.tile == tile) with
      | some p =>
        if p.over time then (false, s)
        else if y.state = .free ∨ y.state = .opened ∨ y.state = .shadowed ∨ ts ≠ p.tscale ∨ !cellForm c (fmtElems p.fmt) then (true, postDrop s ten)
        else (true, postAdd s p c)
      | none =>
        let f := y.format
        if y.state = .free ∨ y.state = .opened ∨ y.state = .shadowed ∨ f = 0 ∨ 4 < f ∨ ts = -128 ∨ !cellForm c (fmtElems f) then (true, postDrop s ten)
        else if postCut s ≤ s.time ∨ inCutover s tile ∨ postLimit s < postPages s (tile % 16) + fmtPages f then (false, s)
        else match takeSlot s tile (locFar y.loc) none true with
          | (none, s) => (true, postDrop s ten)
          | (some _, _) => (true, postOpen s tile t c)
/-- A closed frame is converted into a shadow of its tile in engine time that no job reserves; where that, the tile's cut-over or its
lines stand in the way, the conversion waits (R165, R274). -/
def postConvert (s : State) (p : Post) : State :=
  if !p.over s.time ∨ p.converted then s
  else
    let later := fun (s : State) => postSet s { p with asked := true }
    if inReserved s 1 (p.tile % 16) then later s
    else match stepShadow s p.tile ⟨p.tile, 0, p.tenant, p.key⟩ (0x100 + p.tile % 16) none with
      | (none, s) => later s
      | (some st, s) =>
        if st ≠ St.ok then later s
        else
          let (d, sat) := convTile p.fmt p.acc p.tscale true 0 false (fun _ => 0)
          let s := arithEvents s (postStep p.tile p.tenant) (sat.map (fun e => (p.tile, e))) []
          postSet (shadowWrite s p.tile p.fmt d) { p with closed := true, converted := true, asked := false, acc := [], got := [] }

/-! ### Checkpoint assembly at the partner (R176) -/

/-- A restore or rebalance copy of a virtual tile failed here (R451, R456) (log 66, DESIGN CHOICE). -/
def restoreNote (s : State) (vtile st : Nat) : State :=
  let s := (herdSlots s).foldl (fun s j =>
    let h := herdGet s j
    if h.restore.isSome ∧ h.wanted.any (fun w => w.1 == vtile) then herdSet s j { h with restoreSt := some (h.restoreSt.getD st), wanted := h.wanted.filter (fun w => w.1 != vtile) } else s) s
  (s.herd.rebals.filter (fun r => r.left.contains vtile)).foldl (fun s r =>
    let s := r.locks.foldl lockDrop s
    ({ s with herd := { s.herd with rebals := s.herd.rebals.filter (· != r) } }).replyBg r.mb st) s
/-- The acknowledgement of a trailer. -/
def ckptReply (s : State) (c : Cell) (st : Nat) (port : Nat := 26) : State :=
  let pl := natLe 2 (getLE c.payload 2 2) ++ natLe 1 st ++ natLe 1 0 ++ natLe 4 (getLE c.payload 4 4)
  let s := if st = St.ok then s else restoreNote ((s.bump F.CHRN_CKPT_FAIL_COUNT).notice 0x0314 [getLE c.payload 2 2, getLE c.payload 4 4, st]) (c.addr / 65536) st
  sendFrom s port { rspCell s c 0x14 st 0 pl with payload := pl }
def asmDrop (s : State) (t : Nat) : State := chrnSet s { s.chrn with asms := s.chrn.asms.filter (fun a => a.tile != t) }
/-- A complete assembly is checked, written and acknowledged; it waits while agents hold lines of its tile (R274). -/
def asmTry (s : State) (a : Asm) : State :=
  match a.trailer with
  | none => s
  | some c =>
    if a.seen.length < 256 then s
    else if crc64 (slice a.data 0 65536) ≠ getLE c.payload 8 8 then ckptReply (asmDrop s a.tile) c St.checksum (churnPort (a.tile % 16))
    else match stepShadow s a.tile ⟨a.tile, 0, a.tenant, a.key⟩ (0x100 + a.tile % 16) none with
      | (none, s) => s
      | (some st, s) =>
        if st = St.ok then ckptReply (asmDrop (shadowWrite s a.tile (getLE c.payload 0 1) a.data) a.tile) c St.ok (churnPort (a.tile % 16))
        else ckptReply (asmDrop s a.tile) c st (churnPort (a.tile % 16))
def ckptCell (s : State) (w : Ent3) (c : Cell) : State :=
  let ten := w.winTenant
  let refuse := fun (s : State) (st : Nat) => if c.last then ckptReply s c st else s
  let (st, t) := xlate s ten c.addr Need.w (some w)
  if st ≠ St.ok then refuse (fault s ten c.addr st Need.w (reqFabric c)) st
  else if !homedHere s t.tile then yokePass s (churnPort 0) c
  else
    let tile := localTile t.tile
    if !keyOk (tileGet s tile) t.ten t.key then refuse (fault s ten c.addr St.key Need.w (reqFabric c)) St.key
    else
      let a? := match s.chrn.asms.find? (fun a => a.tile == tile) with
        | some a => some a
        | none => if postPages s (tile % 16) < postLimit s then some { tile := tile, tenant := t.ten, key := t.key, tick := s.tk.num, data := List.replicate 65536 0, cell := c } else none
      match a? with
      | none => refuse s St.busy
      | some a =>
        let k := c.addr % 65536 / 256
        let a : Asm := if c.last then { a with trailer := some c } else { a with data := patch a.data (256 * k) (slice c.payload 0 256), seen := (k :: a.seen).eraseDups }
        asmTry (chrnSet s { s.chrn with asms := s.chrn.asms.filter (fun b => b.tile != tile) ++ [a] }) a

/-! ### Admission of VN2 cells, and what is held back (R156, R160, R165, R322, R323) -/

/-- A cell on VN2 admitted by its window, as its timestamp finds it: its window, or its refusal. -/
def admit2 (s : State) (time : Nat) (c : Cell) : Option Ent3 × State :=
  match winOf (s.asAt time) c with
  | none => (none, winRefused s c)
  | some w => if tenantCheck s w.winTenant = St.ok then (some w, s) else (none, s)
/-- A reduction or a post: taken, or its buffer withheld. -/
def takeVn2 (s : State) (h : Held2) (first : Bool) : Bool × State :=
  match admit2 s h.time h.cell with
  | (none, s) => (true, s)
  | (some w, s) =>
    if getLE h.cell.payload 0 2 ≠ 0 then reduceCell s w.winTenant h.cell h.time first
    else if homedHere s (xlate (s.asAt h.time) w.winTenant h.cell.addr Need.w (some w)).2.tile then postCell s w h.cell h.time
    else (true, yokePass s (churnPort 0) h.cell)
/-- ENG cycles a held cell waited go to its engine's counter when it is taken (R160). -/
def fitWait (s : State) (h : Held2) : State := match h.eng with
  | some e => s.bump (F.CHRN_FIT_WAIT_COUNT e) ((s.time - h.since) * 5)
  | none => s
/-- The engine whose frame a held reduction cell waits for. -/
def waitEngine (s : State) (c : Cell) (time : Nat) : Option Nat :=
  if getLE c.payload 0 2 = 0 then none
  else match winOf (s.asAt time) c with
    | some w => (redStep s w.winTenant (getLE c.payload 0 2) time).map Step.inst
    | none => none
/-- A cell arrives on VN2 at its home, with its timestamp. -/
def vn2Cell (s : State) (inp : Nat) (c : Cell) (time : Nat) : State :=
  let h : Held2 := { inp := inp, cell := c, time := time, since := s.time, eng := waitEngine s c time }
  match takeVn2 s h true with
  | (true, s) => giveBack s inp c.vn
  | (false, s) => chrnSet s { s.chrn with held := s.chrn.held ++ [h] }
/-- Every held cell is tried again, in arrival order. -/
def retryVn2 (s : State) : State :=
  let l := s.chrn.held
  l.foldl (fun s h => match takeVn2 s h false with
    | (true, s) => giveBack (fitWait s h) h.inp h.cell.vn
    | (false, s) => chrnSet s { s.chrn with held := s.chrn.held ++ [h] }) (chrnSet s { s.chrn with held := [] })

/-! ### Rows -/

/-- REDUCE with a RID (R156 to R163). -/
def execReduce (inp : Nat) (c : Cell) (s : State) : Out State :=
  hubOnly (fun s => match ingress s inp c with
    | (none, s) => s
    | (some c, s) => if routeOf s c = .here ∧ c.ty = 0x20 ∧ getLE c.payload 0 2 ≠ 0 then retryVn2 (vn2Cell s inp c s.time) else sendFrom s inp c) s
/-- REDUCE with RID 0 (R164 to R166). -/
def execPostedReduce (inp : Nat) (c : Cell) (s : State) : Out State :=
  hubOnly (fun s => match ingress s inp c with
    | (none, s) => s
    | (some c, s) => if routeOf s c = .here ∧ c.ty = 0x20 ∧ getLE c.payload 0 2 = 0 then vn2Cell s inp c s.time else sendFrom s inp c) s
/-- The cutoff before the boundary: every open frame closes. -/
def execPostCutoff (s : State) : Out State :=
  hubOnly (fun s => let s := s.upTo (postCut s); chrnSet s { s.chrn with posts := s.chrn.posts.map (fun p => { p with closed := p.over s.time }) }) s
def execPostConvert (tile : Nat) (s : State) : Out State :=
  hubOnly (fun s => match s.chrn.posts.find? (fun p => p.tile == tile) with | some p => postConvert s p | none => s) s
/-- A checkpoint cell at its home: one refused at its window is discarded (R323); a trailer refused for its tenant is answered. -/
def ckptDataTake (c : Cell) (s : State) : State := match admit2 s s.time c with
  | (none, s) => (match winOf s c with | some w => if c.last then ckptReply s c (tenantCheck s w.winTenant) else s | none => s)
  | (some w, s) => if homedHere s (xlate s w.winTenant c.addr Need.w (some w)).2.tile then ckptCell s w c else yokePass s (churnPort (localTile (xlate s w.winTenant c.addr Need.w (some w)).2.tile % 16)) c
def execCkptData (inp : Nat) (c : Cell) (s : State) : Out State := hubOnly (arriveHere (fun c s => if c.ty ≠ 0x22 then s else ckptDataTake c s) inp c) s
/-- TIMEOUT ticks after the first cell (R176). -/
def execCkptAssemblyTimeout (tile : Nat) (s : State) : Out State :=
  hubOnly (fun s => match s.chrn.asms.find? (fun a => a.tile == tile) with
    | none => s
    | some a =>
      if s.tk.num < a.tick + s.fld F.CHRN_CKPT_CTL_TIMEOUT then s
      else match a.trailer with
        | some c => ckptReply (asmDrop s tile) c St.link (churnPort (tile % 16))
        | none => asmDrop s tile) s
/-- The step of a running checkpoint copy with a RID, to a partner. -/
def ckptStep (s : State) (rid : Nat) (partner : Option Nat) : Option Step :=
  s.seq.steps.find? (fun x => x.cls == 1 && x.kind == 4 && (ckptOf x).rid == rid && (match partner with | some p => (ckptOf x).partner == p | none => true))
/-- A checkpoint copy ends when its last acknowledgement is in (R177, R447 to R449). -/
def ckptEnd (s : State) (x : Step) : State :=
  if !x.acks.all (fun a => a.status.isSome) ∨ x.acks.length < (ckptOf x).tiles then s
  else
    let bad := x.acks.foldl (fun (b : Option Ack) a => if a.status = some St.ok then b else match b with
      | none => some a
      | some y => if a.idx < y.idx then some a else b) none
    match bad with
    | some a => stepFail s x (a.status.getD St.link) 7
    | none =>
      let s := x.locks.foldl lockDrop s
      match x.job with
      | none => endUnsched s { x with status := St.ok }
      | some _ => stepPut s { x with done := true, got := x.expect, locks := [] }
/-- An acknowledgement is counted; with OK a herd's copy leaves a checkpoint record entry (R177, R448). -/
def ackTile (s : State) (x : Step) (i st : Nat) : State :=
  match x.acks.find? (fun a => a.idx == i && a.status.isNone) with
  | none => s
  | some a =>
    let k := ckptOf x
    let x := { x with acks := x.acks.map (fun b => if b.idx = i then { b with status := some st } else b), got := x.got + 1 }
    let s := stepPut s x
    let s := match x.job with
      | some j => if st = St.ok ∧ hasHerd s j then
          let h := herdGet s j
          herdSet s j { h with inProgress := k.epoch, recs := h.recs.filter (fun r => !(r.epoch == k.epoch && r.vtile == a.vtile)) ++ [{ epoch := k.epoch, vtile := a.vtile, version := a.version, partner := k.partner, tag := k.tag, dstVa := k.dst + 65536 * i, crcp := a.crcp }] } else s
      | none => s
    ckptEnd s x
/-- An acknowledgement: one with a STATUS outside Table 00-6 is ignored (R13; log 107, DESIGN CHOICE). -/
def ckptAckTake (c : Cell) (s : State) : State := match ckptStep s (getLE c.payload 0 2) (some c.src) with
  | none => s
  | some x => if 0x12 < getLE c.payload 2 1 then s else ackTile (shadowCopy s x c) x (getLE c.payload 4 4) (getLE c.payload 2 1)
def execCkptAck (inp : Nat) (c : Cell) (s : State) : Out State := hubOnly (arriveHere (fun c s => if c.ty ≠ 0x14 then s else ckptAckTake c s) inp c) s
/-- No acknowledgement TIMEOUT + 2 ticks after the tile's trailer left the sender (R177). -/
def ackLate (s : State) (a : Ack) : Bool :=
  a.status.isNone && (match a.left with | some k => decide (k + s.fld F.CHRN_CKPT_CTL_TIMEOUT + 2 ≤ s.tk.num) | none => false)
/-- CKPT_ACK_TIMEOUT: a tile whose acknowledgement is missing ends with E_LINK. -/
def execCkptAckTimeout (rid tile : Nat) (s : State) : Out State :=
  hubOnly (fun s => match ckptStep s rid none with
    | none => s
    | some x => if x.acks.any (fun a => a.idx == tile && ackLate s a) then ackTile s x tile St.link else s) s
/-- CKPT_COPY: a commanded copy; its mailbox is held until the last acknowledgement (R174, R177). -/
def execCkptCopy (mb : Mbx) (body : List Byte) (ups : List Upset) (s : State) : Out State :=
  mbxOnly mb (vendor mb .ten (fun s => match mbxTenant s mb with
    | none => s.reply mb St.rights
    | some n =>
      let (id, s) := stepAdd ((withUps s ups).hold mb) { id := 0, mb := some mb, tenant := n, kind := 4, cls := 1, inst := 0, body := body, expect := getLE body 8 4, start := s.time }
      match stepGet s id with
      | some x => runCkpt s x
      | none => s)) s

end Sys2Proof.Machine
end

