-- ==== Sys2Proof/Machine/Rows.lean ====
section
/-! DEFINITION. Machine/Rows.lean: row gathers and scatters of the row engines, and versioned row tables (spec/12). -/

namespace Sys2Proof.Machine

open Sys2Proof

/-! ### Row records (R336, R337, Table 12-2) -/

/-- The table part of a row body (Table 12-3). -/
structure RowT where
  tva : Nat
  rows : Nat
  d : Nat
  rlog : Nat
  wf : Nat
  sf : Nat
  algo : Nat
  vt : Nat
  dfl : Nat
  count : Nat
  idx : Nat
deriving DecidableEq, Repr
def rowOf (b : List Byte) : RowT :=
  { tva := getLE b 0 8, rows := getLE b 8 4, d := getLE b 12 2, rlog := getLE b 14 1, wf := getLE b 15 1, sf := getLE b 16 1, algo := getLE b 17 1, vt := getLE b 18 2, dfl := getLE b 20 4, count := getLE b 24 4, idx := getLE b 32 8 }
def RowT.rlen (r : RowT) : Nat := 2 ^ r.rlog
def ceil8 (x : Nat) : Nat := (x + 7) / 8 * 8
/-- Bytes of the weights, and of the weights and their scales. -/
def RowT.wb (r : RowT) : Nat := r.d * fmtWidth r.wf / 8
def RowT.wend (r : RowT) : Nat := r.wb + r.d / fmtBlock r.wf
def RowT.hasM (r : RowT) : Bool := r.algo != 0
def RowT.mo (r : RowT) : Nat := ceil8 r.wend
def RowT.ms (r : RowT) : Nat := r.mo + r.d * fmtWidth r.sf / 8
def RowT.mend (r : RowT) : Nat := r.ms + r.d / fmtBlock r.sf
def RowT.vo (r : RowT) : Nat := ceil8 r.mend
/-- Where the last section of a record ends. -/
def RowT.recEnd (r : RowT) : Nat := if r.algo = 0 then r.wend else if r.algo = 2 then r.vo + 8 else r.mend
/-- Element i of a section of a record: the section's blocks at `off`, their scales at `sc`. -/
def secElem (f : Nat) (d : List Byte) (off sc i : Nat) : Int × Int :=
  let b := i / fmtBlock f
  let s := toSigned 8 (getLE d (sc + b) 1)
  if s = -128 then (0, -128) else (elemAt f d.toArray (off + b * fmtBytes f) (i % fmtBlock f), s)
def RowT.w (r : RowT) (d : List Byte) (i : Nat) : Int × Int := secElem r.wf d 0 r.wb i
def RowT.m (r : RowT) (d : List Byte) (i : Nat) : Int × Int := secElem r.sf d r.mo r.ms i
def RowT.v (r : RowT) (d : List Byte) : Int × Int :=
  let s := toSigned 8 (getLE d (r.vo + 4) 1)
  if s = -128 then (0, -128) else (toSigned 32 (getLE d r.vo 4), s)
/-- A record built from its sections: everything else 0 (R337). -/
def RowT.build (r : RowT) (w m v : List Byte) : List Byte :=
  let a := slice w 0 r.wend
  let a := if r.algo = 0 then a else slice a 0 r.mo ++ slice m 0 (r.mend - r.mo)
  let a := if r.algo = 2 then slice a 0 r.vo ++ slice v 0 8 else a
  slice a 0 r.rlen
def secBytes (f : Nat) (bs : List Blk) : List Byte := bs.flatMap (fun b => blockBytes f b.q) ++ bs.map (fun b => BitVec.ofNat 8 (ofSigned 8 b.u))
/-- A section of a replacement record: blocks of scale -128 hold zero elements (R351). -/
def secClean (f n : Nat) (d : List Byte) (off sc : Nat) : List Byte :=
  let nb := n / fmtBlock f
  (List.range nb).flatMap (fun b => if getLE d (sc + b) 1 = 128 then List.replicate (fmtBytes f) 0 else slice d (off + b * fmtBytes f) (fmtBytes f)) ++ slice d sc nb
def RowT.clean (r : RowT) (d : List Byte) : List Byte :=
  r.build (secClean r.wf r.d d 0 r.wb) (if r.hasM then secClean r.sf r.d d r.mo r.ms else [])
    (if getLE d (r.vo + 4) 1 = 128 then natLe 4 0 ++ natLe 4 128 else slice d r.vo 5 ++ natLe 3 0)

/-! ### Judging a body (R342) -/

/-- The fields of a scatter beyond the table part (Table 12-5), with the coefficients as an optimiser's. -/
structure Scat where
  src : Nat
  op : Nat
  sto : Bool
  rmode : Nat
  gf : Nat
  tw : Int
  tm : Int
  tv : Int
  td : Int
  te : Int
  b1 : Nat
  b1c : Nat
  b2 : Nat
  b2c : Nat
  lr : Nat
  lrSc : Int
  wdSc : Int
  lrwd : Nat
  eps : Int
  lrt : Nat
  seed : Nat
  step : Nat
deriving DecidableEq, Repr
def scatOf (b : List Byte) : Scat :=
  let i8 := fun o => toSigned 8 (getLE b o 1)
  { src := getLE b 40 8, op := getLE b 48 1, rmode := getLE b 49 1, sto := getLE b 49 1 == 1, gf := getLE b 50 1, tw := i8 51, tm := i8 52, tv := i8 53, td := i8 54, te := i8 55,
    b1 := getLE b 56 2, b1c := getLE b 58 2, b2 := getLE b 60 2, b2c := getLE b 62 2, lr := getLE b 64 2, lrSc := i8 66, wdSc := i8 67, lrwd := getLE b 68 2, eps := toSigned 32 (getLE b 72 4), lrt := getLE b 80 8, seed := getLE b 88 8, step := getLE b 96 4 }
def tableOk (r : RowT) : Bool :=
  1 ≤ r.rows && r.rows ≤ 2 ^ 31 && 32 ≤ r.d && r.d % 32 == 0 && 6 ≤ r.rlog && r.rlog ≤ 10 && 1 ≤ r.wf && r.wf ≤ 3 && r.algo ≤ 3
  && (if r.algo = 0 then r.sf == 0 else 1 ≤ r.sf && r.sf ≤ 4) && r.recEnd ≤ r.rlen && (r.dfl < r.rows || r.dfl == 0xFFFFFFFF)
  && 1 ≤ r.count && r.count ≤ 65536 && r.idx % 4 == 0 && r.idx < 2 ^ 52
  && (r.vt != 0 || (r.tva % 65536 == 0 && r.tva + r.rows * r.rlen ≤ 2 ^ 52))
/-- Bytes [a, a + n) of the tenant's virtual space translate. -/
def rangeMapped (s : State) (ten a n : Nat) : Bool :=
  n == 0 || (List.range ((a + n - 1) / 65536 + 1 - a / 65536)).all (fun i => (xlate s ten ((a / 65536 + i) * 65536) 0 none).1 == St.ok)
/-- An endpoint of Table 06-6. -/
def outEpOk (e : Nat) : Bool := e ≤ 0x2F || (0xFE ≤ e && e ≤ 0xFF)
/-- Table 12-4; every output row lies within 52 bits of address (log 107, DEDUCED). -/
def gatherOk (r : RowT) (b : List Byte) : Bool :=
  b.length == 64 && getLE b 42 2 != 0xFFFF && outEpOk (getLE b 46 1) && getLE b 48 8 % 8 == 0 && getLE b 48 8 < 2 ^ 52 && getLE b 56 4 % 8 == 0 && r.wend ≤ getLE b 56 4
  && getLE b 48 8 + (r.count - 1) * getLE b 56 4 + r.wend ≤ 2 ^ 52
def scatterOk (s : State) (x : Step) (r : RowT) (c : Scat) : Bool :=
  x.body.length == 104 && c.src % 65536 == 0 && c.src < 2 ^ 52 && (c.op == 1 || c.op == 2) && c.rmode ≤ 1 && 1 ≤ c.gf && c.gf ≤ 3
  && [c.tw, c.tm, c.tv, c.td, c.te, c.lrSc, c.wdSc].all (fun v => decide (-127 ≤ v)) && (r.algo != 2 || decide (0 ≤ c.eps)) && c.lrt % 8 == 0
  && (c.lrt == 0 || (match x.job with
      | some j => rangeMapped s x.tenant c.lrt (8 * ((jobGet s j).image.repeats + 1))
      | none => rangeMapped s x.tenant (c.lrt + 8 * c.step) 8))
/-- The handle a row step names, as it binds it at its dispatch timestamp (R354): handle, version and base. -/
def rowBind (s : State) (x : Step) : Step :=
  if x.kind ≠ 0x10 ∧ x.kind ≠ 0x11 then x else
  let h := (rowOf x.body).vt
  if h = 0 then x
  else let v := vtGet s (h - 1); if v.isOpen ∧ v.tenant = x.tenant then { x with aux := [h - 1, v.version, v.cur] } else x
/-- The status of R342's three stages. -/
def rowJudge (s : State) (x : Step) : Nat :=
  let r := rowOf x.body
  if x.expect ≠ 0 ∨ !tableOk r ∨ !(if x.kind = 0x10 then gatherOk r x.body else scatterOk s x r (scatOf x.body)) then St.badDesc
  else if r.vt ≠ 0 ∧ !privileged s x.tenant then St.rights
  else if r.vt ≠ 0 ∧ x.aux.isEmpty then St.badDesc
  else St.ok
def rowBase (x : Step) (r : RowT) : Nat := if r.vt = 0 then r.tva else x.aux.getD 2 0

/-! ### Positions (R343 to R346) -/

/-- Operand tiles already read by the step: tile number in the operand, status, bytes. -/
abbrev Cache := List (Nat × Nat × List Byte)
/-- Tile n of an operand at `va`, read once. -/
def cached (s : State) (x : Step) (va : Nat) (fmt : Option Nat) (c : Cache) (n : Nat) : (Nat × List Byte) × Cache × State :=
  match c.find? (fun e => e.1 == n) with
  | some e => ((e.2.1, e.2.2), c, s)
  | none =>
    let ((st, d, _), s) := readOp s x (va + 65536 * n) fmt Need.r
    ((st, d), (n, st, d) :: c, s)
/-- The index list, read whole before any position is taken. -/
def readIdx (s : State) (x : Step) (r : RowT) : (Nat × List Nat) × State :=
  let a := r.idx
  let first := a / 65536
  let n := (a + 4 * r.count - 1) / 65536 + 1 - first
  let ((st, l), s) := readTiles s x (first * 65536) 0 Need.r 0
  let res := (List.range n).foldl (fun (q : (Nat × List (List Byte)) × State) i =>
    if q.1.1 ≠ St.ok then q
    else
      let ((st, d, _), s) := readOp q.2 x ((first + i) * 65536) none Need.r
      ((st, q.1.2 ++ [d]), s)) ((st, l.map Prod.fst), s)
  let ((st, ts), s) := res
  ((st, (List.range r.count).map (fun p => let o := a % 65536 + 4 * p; getLE (ts.getD (o / 65536) []) (o % 65536) 4)), s)
def badIndex (r : RowT) (i : Nat) : Bool := i == 0xFFFFFFFF || r.rows ≤ i
/-- An invalid position: counted, flagged, its notice once per job or tenant per tick (R343, R344). -/
def invalidPos (s : State) (x : Step) (p i : Nat) : State :=
  let s := s.bump (F.ROWE_DEFAULT_COUNT x.inst)
  let s := onceTickTen s 0x0701 (match x.job with | some j => 0x100000 + j | none => x.tenant) x.tenant x.job [p, i]
  match stepGet s x.id with | some y => stepPut s { y with defaultRow := true } | none => s
/-- The status of the first failing position stays (R346). -/
def posFail (s : State) (x : Step) (p st : Nat) : State :=
  match stepGet s x.id with
  | some y => stepPut s { y with acks := y.acks ++ [{ idx := p, due := 0x10000, status := some st }] }
  | none => s
def rowFormat (y : Tile) : Bool := y.format == 0 || y.format == 0x10
/-- One look-up of a row at a virtual address (R345, R346, Table 02-5). -/
def rowLook (s : State) (x : Step) (va n : Nat) : (Nat × List Byte) × State :=
  let ((st, t), s) := stepXlate s x va Need.r
  if st ≠ St.ok then ((st, []), s)
  else
    let l := tileId s t.tile
    let y := tileGet s l
    if inCutover s l then ((St.ok, []), markStuck s)
    else if !keyOk y t.ten t.key then ((St.key, []), fault s x.tenant va St.key Need.r (stepReq x))
    else
      let (ok, s) := eccRead s l (stepReader x)
      let (st, d) := if ok then byteRead s l t.off n else (St.checksum, [])
      if st ≠ St.ok then ((st, []), s)
      else if y.state ≠ .free ∧ y.loc ≠ noLoc ∧ !rowFormat y then ((St.badDesc, []), s)
      else ((St.ok, d), (touch (slowStep s x l) l).bump (F.ROWE_LOOKUPS_COUNT x.inst))

/-! ### Sending results (R347, R373) -/

/-- Bytes sent as WRITE cells that do not cross a 256-byte boundary. -/
def outCells (s : State) (x : Step) (hub ep tag : Nat) : Nat → Nat → List Byte → List Cell
  | 0, _, _ => []
  | fuel + 1, a, d =>
    if d.isEmpty then []
    else
      let n := min d.length (256 - a % 256)
      { cell0 s 0x02 with colour := stepColour x, dst := hub, dstEp := ep, tag := tag, addr := a, len := n - 1, payload := d.take n } :: outCells s x hub ep tag fuel (a + n) (d.drop n)
/-- The number under which a shadow's discarded request waits for W's response: no TXN. -/
def shadowDue : Nat := 0x10001
/-- One position's output: its cells leave and await their responses; a shadow's are discarded, and W's responses are awaited (R460). -/
def sendOut (s : State) (x : Step) (port hub ep tag p a : Nat) (d : List Byte) : State :=
  let cs := outCells s x hub ep tag (d.length + 1) a d
  let s := egressDigest s x cs
  if asShadow s x then match stepGet s x.id with
    | some y => stepPut s { y with acks := y.acks ++ cs.map (fun _ => { idx := p, due := shadowDue }) }
    | none => s
  else cs.foldl (fun s c =>
    let (t, s) := issue s port c (some x.id) none
    match stepGet s x.id with
    | some y => stepPut s { y with acks := y.acks ++ [{ idx := p, due := t }] }
    | none => s) s
/-- The step's own work has ended: it is done once no response is awaited, with the status of the lowest failing position. -/
def outDone (s : State) (id : Nat) : State :=
  match stepGet s id with
  | none => s
  | some y =>
    let bad := y.acks.filterMap (fun a => match a.status with | some st => if st = St.ok then none else some (a.idx, st) | none => none)
    let low := bad.foldl (fun (b : Option (Nat × Nat)) e => match b with | none => some e | some o => if e.1 < o.1 then some e else b) none
    stepPut s { y with done := y.acks.all (fun a => a.status.isSome), status := match low with | some e => e.2 | none => St.ok }
/-- A response to a WRITE cell of a step's results, or its timeout (R203, R347). -/
def stepWritten (s : State) (id txn st : Nat) : State :=
  match stepGet s id with
  | none => s
  | some y =>
    let y := { y with acks := y.acks.map (fun a => if a.due = txn ∧ a.status.isNone then { a with status := some st } else a) }
    outDone (stepPut s y) id

/-- A copy of W's response at a shadow: it answers the oldest request of one of the steps that wait for W's. The copy does not name the
step, so which one is a free value (R460; log 24, DESIGN CHOICE). -/
def shadowWritten (s : State) (st : Nat) : State :=
  let open' := fun (a : Ack) => a.due == shadowDue && a.status.isNone
  let l := s.seq.steps.filter (fun x => x.acks.any open')
  if l.isEmpty then s
  else
    let (n, s) := s.draw
    match l[Config.freeNat n % l.length]? with
    | none => s
    | some y =>
      let k := y.acks.findIdx open'
      outDone (stepPut s { y with acks := y.acks.modify k (fun a => { a with status := some st }) }) y.id

/-! ### Gather (R347) -/

/-- A row gather: each position looked up and sent or kept (R347; log 52, DEDUCED). -/
def runGather (s : State) (x : Step) : State :=
  let r := rowOf x.body
  let b := x.body
  let ((st, idx), s) := readIdx s x r
  if st ≠ St.ok then stepFail s x st (failClass st)
  else
    let base := rowBase x r
    let s := ((List.range r.count).zip idx).foldl (fun s e =>
      let p := e.1
      let bad := badIndex r e.2
      let s := if bad then invalidPos s x p e.2 else s
      let zero := List.replicate r.wend (0 : Byte)
      let ((st, d), s) :=
        if bad ∧ r.dfl = 0xFFFFFFFF then ((St.ok, zero), s)
        else rowLook s x (base + (if bad then r.dfl else e.2) * r.rlen) r.wend
      let s := if st = St.ok then s else posFail s x p st
      sendOut s x 29 (getLE b 44 2 % 4096) (getLE b 46 1) (getLE b 42 2) p (getLE b 48 8 + p * getLE b 56 4) (if st = St.ok then slice d 0 r.wend else zero)) s
    outDone s x.id

/-! ### Scatter (R348 to R351) -/

/-- cb over the D elements of a row's section. -/
def rowCb (x : Step) (c : Scat) (f stream vt e0 : Nat) (acc : List Int) (t : Int) : List Blk :=
  let b := fmtBlock f
  (List.range (acc.length / b)).map (fun n => convBlock f ((acc.drop (n * b)).take b) t true 0 c.sto (fun i => dither64 x.seed x.rep stream vt (e0 + n * b + i)))
def blkQ (bs : List Blk) : List Int := bs.flatMap Blk.q
def blkU (f : Nat) (bs : List Blk) : List Int := bs.flatMap (fun k => List.replicate (fmtBlock f) k.u)
/-- A row updated: its new bytes, and the elements of its saturation and clamp events in the order in which they occur (R147, R149). -/
structure RowUpd where
  rec' : List Byte
  sat : List Nat
  clamp : List Nat
deriving DecidableEq, Repr
/-- The update of one row (R350). `g i` is gradient element i of the position, `j` the record's number in its tile. A clamp of SIGN's step
or of ROWMOM's den, which every element takes part of, is an event of the row's first W element (log 107, DEDUCED). -/
def rowUpdate (x : Step) (r : RowT) (c : Scat) (vt j : Nat) (d : List Byte) (g : Nat → Int × Int) : RowUpd :=
  let ks := List.range r.d
  let e0 := j * r.d
  let wal := fun i => clOf .w (e0 + i) (align (r.w d i).1 (r.w d i).2 c.tw)
  let wdec := fun i => clOf .w (e0 + i) (term (r.w d i).1 (r.w d i).2 c.lrwd c.wdSc c.tw)
  let blend := fun (o : Opd) (b b' i : Nat) => clAdd (clOf o (e0 + i) (term (r.m d i).1 (r.m d i).2 b (-16) c.tm)) (clOf o (e0 + i) (term (g i).1 (g i).2 b' (-16) c.tm))
  let vals := fun (l : List Cl) => l.map Prod.fst
  let evs := fun (l : List Cl) => l.flatMap Prod.snd
  let sats := fun (bs : List Blk) => ((ks.zip (bs.flatMap Blk.sat)).filter Prod.snd).map (fun p => e0 + p.1)
  -- W from its three terms: the element, what the step takes from it, the decay
  let wOf := fun (u : Cl) (i : Nat) => let y := clSub (clSub (wal i) (u.1, [])) (wdec i); ((y.1, u.2 ++ y.2) : Cl)
  let fin := fun (wa : List Cl) (bm : List Blk) (vb : List Byte) (vs : List Nat) (cl : List Ev) =>
    let bw := rowCb x c r.wf 0x10 vt e0 (vals wa) c.tw
    ({ rec' := r.build (secBytes r.wf bw) (if r.hasM then secBytes r.sf bm else []) vb, sat := sats bm ++ vs ++ sats bw, clamp := cl.map Prod.snd } : RowUpd)
  if r.algo = 0 then
    let wa := ks.map (fun i => wOf (clOf .w (e0 + i) (term (g i).1 (g i).2 c.lr c.lrSc c.tw)) i)
    fin wa [] [] [] (evs wa)
  else if r.algo = 1 then
    let ma := ks.map (fun i => clAdd (clOf .m (e0 + i) (term (r.m d i).1 (r.m d i).2 c.b1 (-16) c.tm)) (clOf .m (e0 + i) (align (g i).1 (g i).2 c.tm)))
    let bm := rowCb x c r.sf 0x11 vt e0 (vals ma) c.tm
    let q := blkQ bm
    let u := blkU r.sf bm
    let wa := ks.map (fun i => wOf (clOf .w (e0 + i) (term (q.getD i 0) (u.getD i 0) c.lr c.lrSc c.tw)) i)
    fin wa bm [] [] (evs ma ++ evs wa)
  else if r.algo = 3 then
    let step := clOf .w e0 (term c.lr c.lrSc 1 0 c.tw)
    let l := ks.map (fun i => let cc := blend .w c.b1 c.b1c i; (wOf (cc.1.sign * step.1, cc.2) i, blend .m c.b2 c.b2c i))
    let bm := rowCb x c r.sf 0x11 vt e0 (vals (l.map Prod.snd)) c.tm
    fin (l.map Prod.fst) bm [] [] (step.2 ++ l.flatMap (fun p => p.1.2 ++ p.2.2))
  else
    let vi := 0x1FFFF - j
    let ma := ks.map (blend .m c.b1 c.b1c)
    let sq := ks.map (fun i => clOf .v vi (term ((g i).1 * (g i).1) (2 * (g i).2) c.b2c (-16) c.tv))
    let va := sq.foldl clAdd (clOf .v vi (term (r.v d).1 (r.v d).2 c.b2 (-16) c.tv))
    let bm := rowCb x c r.sf 0x11 vt e0 (vals ma) c.tm
    let bv := convBlock 4 [va.1] c.tv true 0 c.sto (fun _ => dither64 x.seed x.rep 0x11 vt vi)
    let dn := clOf .w e0 (align (bv.q.getD 0 0) bv.u c.te)
    let (rr, sr) := rsqrt (max 0 (dn.1 + c.eps)) c.te
    let q := blkQ bm
    let u := blkU r.sf bm
    let wa := ks.map (fun i =>
      let dd := clOf .w (e0 + i) (term (q.getD i 0) (u.getD i 0) rr sr c.td)
      let t := clOf .w (e0 + i) (term dd.1 c.td c.lr c.lrSc c.tw)
      wOf (t.1, dd.2 ++ t.2) i)
    let first := clOf .v vi (term (r.v d).1 (r.v d).2 c.b2 (-16) c.tv)
    fin wa bm (natLe 4 (ofSigned 32 (bv.q.getD 0 0)) ++ natLe 1 (ofSigned 8 bv.u) ++ natLe 3 0) (if bv.sat.any id then [vi] else [])
      (first.2 ++ (ma.zip sq).flatMap (fun p => p.1.2 ++ p.2.2) ++ dn.2 ++ evs wa)
/-- The tile and offset of each valid position of a scatter, for back-invalidation (R274, R349). -/
def rowLines (s : State) (x : Step) (r : RowT) (idx : List Nat) : List Nat :=
  (idx.filter (fun i => !badIndex r i)).flatMap (fun i =>
    let (st, t) := xlate s x.tenant (rowBase x r + i * r.rlen) Need.rw none
    if st ≠ St.ok then []
    else
      let l := tileId s t.tile
      if (cohWin s l).isNone then []
      else ((List.range (r.rlen / 64)).map (fun k => lineOf l t.off + k)).filter (fun n => (dirGet s n).valid))
/-- The coefficients with the table's entry in force (R169, R341). -/
def scatCoef (s : State) (x : Step) (c : Scat) : (Nat × Scat) × State :=
  if c.lrt = 0 then ((St.ok, c), s)
  else
    let a := c.lrt + 8 * (if x.job.isSome then x.rep else c.step)
    let ((st, d, _), s) := readOp s x (a / 65536 * 65536) none Need.r
    let e := slice d (a % 65536) 8
    let c' := { c with lr := getLE e 0 2, lrSc := toSigned 8 (getLE e 2 1), wdSc := toSigned 8 (getLE e 3 1), lrwd := getLE e 4 2 }
    ((if st = St.ok ∧ (c'.lrSc = -128 ∨ c'.wdSc = -128) then St.badDesc else st, c'), s)
/-- One position of a scatter. -/
def scatPos (x : Step) (r : RowT) (c : Scat) (q : Cache × State) (e : Nat × Nat) : Cache × State :=
  let (cache, s) := q
  let p := e.1
  if badIndex r e.2 then (cache, invalidPos s x p e.2)
  else
    let va := rowBase x r + e.2 * r.rlen
    let ((st, t), s) := stepXlate s x va Need.rw
    if st ≠ St.ok then (cache, posFail s x p st)
    else
      let l := tileId s t.tile
      let y := tileGet s l
      if inCutover s l then (cache, markStuck s)
      else if !keyOk y t.ten t.key then (cache, posFail (fault s x.tenant va St.key Need.rw (stepReq x)) x p St.key)
      else if y.state = .free then (cache, invalidPos s x p e.2)
      else if collTile s l ∨ y.state = .shadowed then (cache, posFail s x p St.busy)
      else if y.state = .retired then (cache, posFail s x p St.checksum)
      else if !rowFormat y then (cache, posFail s x p St.badDesc)
      else
        let (sva, fmt, tile, off) := if c.op = 1 then (c.src, some c.gf, p * r.d / fmtElems c.gf, 0) else (c.src, none, p * r.rlen / 65536, p * r.rlen % 65536)
        let last := if c.op = 1 then (p * r.d + r.d - 1) / fmtElems c.gf else tile
        let ((st, g0), cache, s) := cached s x sva fmt cache tile
        let ((st', g1), cache, s) := cached s x sva fmt cache last
        if st ≠ St.ok then (cache, posFail s x p st)
        else if st' ≠ St.ok then (cache, posFail s x p st')
        else
          let done := fun (s : State) (d : List Byte) => (rowStore s l t.off d).bump (F.ROWE_UPDATES_COUNT x.inst)
          let (ok, s) := if c.op = 1 then eccRead s l (stepReader x) else (true, s)
          let s := if ok then slowStep s x l else s
          if !ok then (cache, posFail s x p St.checksum)
          else if c.op = 1 then
            let ga := g0.toArray
            let gb := g1.toArray
            let g := fun i => let k := p * r.d + i; rdElem c.gf (if k / fmtElems c.gf = tile then ga else gb) (k % fmtElems c.gf)
            let u := rowUpdate x r c (va / 65536 % 2 ^ 36) (t.off / r.rlen) (byteRead s l t.off r.rlen).2 g
            let s := arithEvents (done s u.rec') x (u.sat.map (fun e => (l, e))) (u.clamp.map (fun e => (l, e)))
            (cache, if u.sat.isEmpty ∧ u.clamp.isEmpty then s else match stepGet s x.id with | some y => stepPut s { y with saturated := true } | none => s)
          else (cache, done s (r.clean (slice g0 off r.rlen)))
def runScatter (s : State) (x : Step) : State :=
  let r := rowOf x.body
  let ((st, idx), s) := readIdx s x r
  if st ≠ St.ok then stepFail s x st (failClass st)
  else
    let ((st, c), s) := scatCoef s x (scatOf x.body)
    if st ≠ St.ok then stepFail s x st (failClass st)
    else
      let held := rowLines s x r idx
      if !held.isEmpty then stepPut (backInvalidate s held) { x with blocked := true }
      else
        let s := match stepGet s x.id with | some y => stepPut s { y with blocked := false } | none => s
        outDone (((List.range r.count).zip idx).foldl (scatPos x r c) ([], s)).2 x.id
/-- The work of a row step that has its record. -/
def runRow (s : State) (x : Step) : State :=
  let st := rowJudge s x
  if st ≠ St.ok then stepFail s x st 1
  else if x.kind = 0x10 then runGather s x else runScatter s x

/-! ### Versioned tables (R353 to R355) -/

/-- VT_OPEN: the lowest free handle (log 28, DESIGN CHOICE). -/
def execVtOpen (mb : Mbx) (base : Nat) (s : State) : Out State :=
  mbxOnly mb (vendor mb .priv (fun s =>
    if base % 65536 ≠ 0 ∨ 2 ^ 52 ≤ base then s.reply mb St.badDesc
    else match (List.range 256).find? (fun h => !(vtGet s h).isOpen) with
      | none => s.reply mb St.busy
      | some h => (vtSet s h { isOpen := true, tenant := (mbxTenant s mb).getD 0, cur := base }).reply mb St.ok (natLe 2 h))) s
/-- The handle is open and of the issuer's tenant. -/
def vtMine (s : State) (mb : Mbx) (h : Nat) : Bool := h < 256 && (vtGet s h).isOpen && some (vtGet s h).tenant == mbxTenant s mb
def execVtSwitch (mb : Mbx) (h base : Nat) (s : State) : Out State :=
  mbxOnly mb (vendor mb .priv (fun s =>
    let v := vtGet s h
    if !vtMine s mb h ∨ base % 65536 ≠ 0 ∨ 2 ^ 52 ≤ base then s.reply mb St.badDesc
    else if v.next.isSome ∨ v.old.isSome then s.reply mb St.busy
    else (vtSet s h { v with next := some base }).reply mb St.ok)) s
/-- Steps bound to any version of a handle. -/
def vtSteps (s : State) (h : Nat) : Nat := (s.seq.steps.filter (fun x => x.cls == 2 && x.aux.head? == some h)).length
def execVtClose (mb : Mbx) (h : Nat) (s : State) : Out State :=
  mbxOnly mb (vendor mb .priv (fun s =>
    if !vtMine s mb h then s.reply mb St.badDesc
    else if 0 < vtSteps s h then s.reply mb St.busy
    else (vtSet s h {}).reply mb St.ok)) s
/-- Pending switches take effect at a boundary (R353, R355). -/
def vtBoundary (s : State) : State :=
  vtDrain (s.hnd.vts.foldl (fun s e => match e.2.next with
    | some b => (vtSet s e.1 { e.2 with cur := b, next := none, version := (e.2.version + 1) % 2 ^ 32, old := some e.2.version }).notice 0x0702 [e.1, (e.2.version + 1) % 2 ^ 32] e.2.tenant
    | none => s) s)

end Sys2Proof.Machine
end

