-- ==== Sys2Proof/Machine/Strainer.lean ====
section
/-! DEFINITION. Machine/Strainer.lean: collections, queries on their snapshots, and mutations (spec/13). -/

namespace Sys2Proof.Machine

open Sys2Proof

def collGet (s : State) (h : Nat) : Coll := smGet (fun _ => {}) s.hnd.colls h
def collSet (s : State) (h : Nat) (c : Coll) : State := { s with hnd := { s.hnd with colls := smSet (fun _ => {}) s.hnd.colls h c } }

/-! ### The record (Table 13-2) -/

def collRec (d : List Byte) : CollRec :=
  { dim := getLE d 0 2, vlog := getLE d 2 1, ncent := getLE d 4 4, nlist := getLE d 8 4, cent := getLE d 16 8, ctab := getLE d 24 8, list := getLE d 32 8, vec := getLE d 40 8, stmap := getLE d 48 8 }
def CollRec.vlen (c : CollRec) : Nat := 2 ^ c.vlog
def CollRec.nitems (c : CollRec) : Nat := c.nlist * 1024
/-- The five areas: address and whole tiles. -/
def CollRec.areas (c : CollRec) : List (Nat × Nat) :=
  let t := fun n => (n + 65535) / 65536
  [(c.cent, t (c.ncent * c.vlen)), (c.ctab, t (8 * c.ncent)), (c.list, c.nlist), (c.vec, t (c.nitems * c.vlen)), (c.stmap, t (c.nitems / 4))]
def CollRec.ok (c : CollRec) : Bool :=
  c.dim % 32 == 0 && 32 ≤ c.dim && c.dim ≤ 1024 && 5 ≤ c.vlog && c.vlog ≤ 10 && c.dim ≤ c.vlen && 1 ≤ c.ncent && c.ncent ≤ 65536 && 1 ≤ c.nlist && c.nlist ≤ 4194303
  && c.areas.all (fun a => a.1 % 65536 == 0 && a.1 + 65536 * a.2 ≤ 2 ^ 52)
/-- The posting lists of a centroid table: FIRST and NTILES (R362). -/
def listsOf (c : CollRec) (tab : List Byte) : List (Nat × Nat) := (List.range c.ncent).map (fun k => (getLE tab (8 * k) 4, getLE tab (8 * k + 4) 4))
def listsOk (c : CollRec) (l : List (Nat × Nat)) : Bool :=
  l.all (fun e => e.2 == 0 || e.1 + e.2 ≤ c.nlist)
  && (List.range l.length).all (fun i => (List.range i).all (fun j => let a := l.getD i (0, 0); let b := l.getD j (0, 0)
    a.2 == 0 || b.2 == 0 || !overlaps a.1 a.2 b.1 b.2))

/-! ### Snapshot reads (R369, R375) -/

/-- Tile `n` of the tenant's virtual space as a query's snapshot holds it, read once per step. -/
def snapTile (s : State) (x : Step) (fmt : Option Nat) (c : Cache) (n : Nat) : (Nat × List Byte) × Cache × State :=
  match c.find? (fun e => e.1 == n) with
  | some e => ((e.2.1, e.2.2), c, s)
  | none =>
    let (st, t) := xlate s x.tenant (n * 65536) Need.r none
    let kept := if st = St.ok then s.st.retained.find? (fun r => r.tile == tileId s t.tile && r.steps.contains x.id) else none
    match kept with
    | some r =>
      let d := slotBytes s r.loc
      let (ok, s) := if r.loc = noLoc then (true, s) else slotVerify s r.tile r.loc r.crc
      if ok then ((St.ok, d), (n, St.ok, d) :: c, s) else ((St.checksum, []), (n, St.checksum, []) :: c, slotFail s r.tile r.loc (stepReader x))
    | none =>
      let ((st, d, _), s) := readOp s x (n * 65536) fmt Need.r
      ((st, d), (n, st, d) :: c, s)
/-- A run of reads that stops at the first failure. -/
structure Rd where
  st : Nat
  cache : Cache
  s : State
/-- Bytes [va, va + n) of the snapshot, across tiles. -/
def snapBytes (x : Step) (fmt : Option Nat) (r : Rd) (va n : Nat) : List Byte × Rd :=
  let tiles := (List.range ((va + n - 1) / 65536 + 1 - va / 65536)).map (va / 65536 + ·)
  let q := tiles.foldl (fun (q : List Byte × Rd) t =>
    if q.2.st ≠ St.ok then q
    else
      let ((st, d), c, s) := snapTile q.2.s x fmt q.2.cache t
      (q.1 ++ slice d 0 65536, { st := st, cache := c, s := s })) ([], r)
  (slice (q.1.drop (va % 65536)) 0 n, q.2)
def areaBytes (x : Step) (r : Rd) (va n : Nat) : List Byte × Rd := snapBytes x (some 0x20) r va n

/-! ### Opening and closing (R365) -/

/-- The pseudo-step of a command that reads tiles as an engine does. -/
def cmdStep (ten : Nat) : Step := { id := 0, tenant := ten, cls := 3, inst := 0, kind := 0x20 }
/-- STRN_OPEN. -/
def execStrnOpen (mb : Mbx) (va : Nat) (ups : List Upset) (s : State) : Out State :=
  mbxOnly mb (vendor mb .ten (fun s =>
    let ten := (mbxTenant s mb).getD 0
    let x := cmdStep ten
    let (d, r) := snapBytes x none { st := St.ok, cache := [], s := withUps s ups } va 64
    let c := collRec d
    if r.st ≠ St.ok then r.s.reply mb r.st
    else if !c.ok then r.s.reply mb St.badDesc
    else
      let (tab, r) := areaBytes x r c.ctab (8 * c.ncent)
      if r.st ≠ St.ok then r.s.reply mb r.st
      else
        let s := r.s
        let runs := c.areas.flatMap (fun a => tileRuns (rangeIds s ten a.1 a.2))
        let bad := (c.areas.flatMap (fun a => (List.range a.2).map (fun i => (xlate s ten (a.1 + 65536 * i) Need.r none).1))).find? (· != St.ok)
        let meets := s.hnd.colls.any (fun e => e.2.taken && e.2.areas.any (fun a => runs.any (fun b => overlaps a.1 a.2 b.1 b.2)))
        let coh := (List.range 64).any (fun n => s.flag (F.COH_WIN_BASE_EN n) && runs.any (fun b => overlaps b.1 b.2 (s.fld (F.COH_WIN_BASE_BASE n)) (s.fld (F.COH_WIN_END_END n) - s.fld (F.COH_WIN_BASE_BASE n))))
        if !listsOk c (listsOf c tab) ∨ meets ∨ coh then s.reply mb St.badDesc
        else match bad with
          | some st => s.reply mb st
          | none => match (List.range 64).find? (fun h => !(collGet s h).taken) with
            | none => s.reply mb St.busy
            | some h => (collSet s h { taken := true, pend := true, tenant := ten, va := va, cr := c, areas := runs }).reply mb St.ok (natLe 2 h))) s
/-- Steps and mutations bound to a handle. -/
def collBound (s : State) (h : Nat) : Nat := (s.seq.steps.filter (fun x => x.cls == 3 && x.aux.head? == some h)).length
/-- STRN_CLOSE. -/
def execStrnClose (mb : Mbx) (h : Nat) (s : State) : Out State :=
  mbxOnly mb (vendor mb .ten (fun s =>
    let c := collGet s h
    if 64 ≤ h ∨ !c.taken ∨ some c.tenant ≠ mbxTenant s mb then s.reply mb St.badDesc
    else if c.pend ∨ 0 < collBound s h then s.reply mb St.busy
    else (collSet s h { c with pend := true }).reply mb St.ok)) s
/-- Opens and closes take effect at a boundary, in step 4 of R55. -/
def collBoundary (s : State) : State :=
  s.hnd.colls.foldl (fun s e => if !e.2.pend then s else if e.2.isOpen then collSet s e.1 {} else collSet s e.1 { e.2 with isOpen := true, pend := false }) s
/-- Before shadows are published: old slots that bound queries still need are retained (R375). -/
def retainBoundary (s : State) (drop : Option Nat → Bool) : State :=
  s.st.tiles.foldl (fun s e =>
    let y := e.2
    if !(y.state = .shadowed ∧ y.shFull) ∨ drop y.shJob then s
    else match s.hnd.colls.find? (fun c => c.2.isOpen && c.2.areas.any (fun a => a.1 ≤ e.1 && e.1 < a.1 + a.2)) with
      | none => s
      | some c =>
        let qs := (s.seq.steps.filter (fun x => x.kind == 0x20 && x.aux.head? == some c.1 && !s.st.retained.any (fun r => r.tile == e.1 && r.steps.contains x.id))).map Step.id
        if qs.isEmpty then s else stSet s { s.st with retained := s.st.retained ++ [{ tile := e.1, loc := y.loc, crc := y.crc, steps := qs }] }) s

/-! ### The query (R367 to R374) -/

/-- The body of Table 13-4. -/
structure Qry where
  h : Nat
  nq : Nat
  nprobe : Nat
  short : Nat
  topk : Nat
  tag : Nat
  hub : Nat
  ep : Nat
  qva : Nat
  out : Nat
deriving DecidableEq, Repr
def qryOf (b : List Byte) : Qry :=
  { h := getLE b 0 2, nq := getLE b 2 1, nprobe := getLE b 4 2, short := getLE b 6 2, topk := getLE b 8 2, tag := getLE b 10 2, hub := getLE b 12 2 % 4096, ep := getLE b 14 1, qva := getLE b 16 8, out := getLE b 24 8 }
/-- The open collection of a tenant behind a handle. -/
def collOf (s : State) (ten h : Nat) : Option Coll := let c := collGet s h; if h < 64 ∧ c.isOpen ∧ c.tenant = ten then some c else none
/-- A strainer step takes the handle it is bound to. -/
def strnBind (s : State) (x : Step) : Step :=
  if 0x20 ≤ x.kind ∧ x.kind ≤ 0x23 ∧ (collOf s x.tenant (getLE x.body 0 2)).isSome then { x with aux := [getLE x.body 0 2] } else x
/-- Table 13-4 and R368; the results lie within 52 bits of address (log 107, DEDUCED). -/
def qryOk (c : Coll) (q : Qry) (x : Step) : Bool :=
  x.body.length == 40 && x.expect == 0 && 1 ≤ q.nq && q.nq ≤ 8 && 1 ≤ q.nprobe && q.nprobe ≤ 256 && q.nprobe ≤ c.cr.ncent && 1 ≤ q.short && q.short ≤ 4096
  && 1 ≤ q.topk && q.topk ≤ 1024 && q.topk ≤ q.short && q.tag != 0xFFFF && outEpOk q.ep && q.qva % 16384 == 0 && q.qva < 2 ^ 52 && q.out % 8 == 0 && q.out + 8 * q.topk * q.nq ≤ 2 ^ 52
/-- Exact i32 dot product of two vectors of i8 (R141, R364). -/
def dot8 (a b : List Byte) (n : Nat) : Int :=
  ((a.take n).zip (b.take n)).foldl (fun t p => t + toSigned 8 p.1.toNat * toSigned 8 p.2.toNat) 0
def popcount8 (x : Nat) : Nat := (List.range 8).foldl (fun n i => n + b2n (bitOf x i)) 0
/-- Hamming distance of two sketches (R371). -/
def hamming (a b : List Byte) : Nat := (a.zip b).foldl (fun n p => n + popcount8 (Nat.xor p.1.toNat p.2.toNat)) 0
/-- An entry put into a list in rising order of key, then of item, of at most n entries. -/
def insTop (n : Nat) (l : List (Int × Nat)) (e : Int × Nat) : List (Int × Nat) :=
  let before := l.takeWhile (fun f => decide (f.1 < e.1 ∨ (f.1 = e.1 ∧ f.2 < e.2)))
  (before ++ e :: l.drop before.length).take n
/-- State bits of an item: occupancy, tombstone (R363). -/
def itemBits (d : List Byte) (i : Nat) : Bool × Bool := let b := getLE d 0 1; let k := 2 * (i % 4); (bitOf b k, bitOf b k && bitOf b (k + 1))
/-- One query of a batch: its results in order, or the failure in the run's status; comparisons, scores and skips counted. -/
def oneQuery (x : Step) (c : CollRec) (q : Qry) (qv qs : List Byte) (r : Rd) : List (Int × Nat) × Rd :=
  let go := fun {α : Type} (l : List Nat) (z : α) (f : α → Rd → Nat → α × Rd) => l.foldl (fun (p : α × Rd) k => if p.2.st ≠ St.ok then p else f p.1 p.2 k) (z, r)
  let (best, r) := go (List.range c.ncent) ([] : List (Int × Nat)) (fun l r k =>
    let (v, r) := areaBytes x r (c.cent + k * c.vlen) c.vlen
    (insTop q.nprobe l (-(dot8 qv v c.dim), k), r))
  let cont := fun {α : Type} (l : List Nat) (z : α) (r : Rd) (f : α → Rd → Nat → α × Rd) => l.foldl (fun (p : α × Rd) k => if p.2.st ≠ St.ok then p else f p.1 p.2 k) (z, r)
  let (short, r) := cont (best.map Prod.snd) ([] : List (Int × Nat)) r (fun l r k =>
    let (e, r) := areaBytes x r (c.ctab + 8 * k) 8
    cont ((List.range (getLE e 4 4 * 1024)).map (getLE e 0 4 * 1024 + ·)) l r (fun l r i =>
      let (b, r) := areaBytes x r (c.stmap + i / 4) 1
      if r.st ≠ St.ok ∨ !(itemBits b i).1 then (l, r)
      else
        let (sk, r) := areaBytes x r (c.list + 64 * i) 64
        (insTop q.short l ((hamming qs sk : Nat), i), { r with s := r.s.bump (F.STRN_COMPARES_COUNT x.inst) })))
  cont (short.map Prod.snd) ([] : List (Int × Nat)) r (fun l r i =>
    let (b, r) := areaBytes x r (c.stmap + i / 4) 1
    if r.st ≠ St.ok then (l, r)
    else if (itemBits b i).2 then (l, { r with s := r.s.bump (F.STRN_TOMB_SKIP_COUNT x.inst) })
    else
      let (v, r) := areaBytes x r (c.vec + i * c.vlen) c.vlen
      (insTop q.topk l (-(dot8 qv v c.dim), i), { r with s := r.s.bump (F.STRN_RERANK_COUNT x.inst) }))
/-- The result records of one query (R373). -/
def resultBytes (k : Nat) (l : List (Int × Nat)) : List Byte :=
  (List.range k).flatMap (fun i => match l[i]? with
    | some e => natLe 4 e.2 ++ natLe 4 (ofSigned 32 (-e.1))
    | none => natLe 4 0xFFFFFFFF ++ natLe 4 0x80000000)
/-- A query step performed. -/
def runQuery (s : State) (x : Step) : State :=
  let q := qryOf x.body
  match (if x.aux.isEmpty then none else collOf s x.tenant q.h) with
  | none => stepFail s x St.badDesc 1
  | some c =>
    if !qryOk c q x then stepFail s x St.badDesc 1
    else
      let (blk, r) := snapBytes x none { st := St.ok, cache := [], s := s } q.qva (2048 * q.nq)
      let (res, r) := (List.range q.nq).foldl (fun (p : List (List (Int × Nat)) × Rd) k =>
        if p.2.st ≠ St.ok then p
        else
          let (l, r) := oneQuery x c.cr q (slice blk (2048 * k) c.cr.dim) (slice blk (2048 * k + 1024) 64) p.2
          (p.1 ++ [l], r)) ([], r)
      if r.st ≠ St.ok then stepFail r.s x r.st (failClass r.st)
      else outDone (((List.range q.nq).zip res).foldl (fun s e => sendOut s x 30 q.hub q.ep q.tag e.1 (q.out + 8 * q.topk * e.1) (resultBytes q.topk e.2)) r.s) x.id

/-! ### Mutations (R376 to R380) -/

/-- The fields of Table 13-5. -/
structure Mut where
  h : Nat
  count : Nat
  src : Nat
  res : Nat
deriving DecidableEq, Repr
def mutOf (b : List Byte) : Mut := { h := getLE b 0 2, count := getLE b 4 4, src := getLE b 8 8, res := getLE b 16 8 }
def mutOk (c : CollRec) (m : Mut) (x : Step) : Bool :=
  x.body.length == 24 && x.expect == 0
  && (if x.kind = 0x23 then (m.count < c.ncent || m.count == 0xFFFFFFFF) && m.src == 0 && m.res == 0
      else 1 ≤ m.count && m.count ≤ 4096 && m.src < 2 ^ 52
        && (if x.kind = 0x21 then m.src % 65536 == 0 && m.res % 4 == 0 && m.res + 4 * m.count ≤ 2 ^ 52 else m.src % 4 == 0 && m.res == 0))
/-- A mutation's work: images of the tiles it has read, those it changed, the lists it changed. -/
structure Mw where
  st : Nat
  img : List (Nat × List Byte)
  dirty : List Nat
  lists : List Nat
  s : State
/-- A collection tile as it stands for a mutation: the shadow of an earlier one in this tick, or the sealed tile (R377). -/
def mutTile (x : Step) (w : Mw) (n : Nat) : List Byte × Mw :=
  match w.img.find? (fun e => e.1 == n) with
  | some e => (e.2, w)
  | none =>
    let (st, t) := xlate w.s x.tenant (n * 65536) Need.r none
    let l := tileId w.s t.tile
    let y := tileGet w.s l
    if st = St.ok ∧ keyOk y t.ten t.key ∧ y.state = .shadowed ∧ y.shFull then
      let d := slotBytes w.s y.alt
      let (ok, s) := slotVerify w.s l y.alt y.shCrc
      if ok then (d, { w with img := (n, d) :: w.img, s := s }) else ([], { w with st := St.checksum, s := slotFail s l y.alt (stepReader x) })
    else
      let ((st, d, _), s) := readOp w.s x (n * 65536) (some 0x20) Need.r
      if st = St.ok then (slice d 0 65536, { w with img := (n, slice d 0 65536) :: w.img, s := s }) else ([], { w with st := st, s := s })
/-- Bytes within one tile, read and written in the images. -/
def mutRead (x : Step) (w : Mw) (va n : Nat) : List Byte × Mw :=
  let (d, w) := mutTile x w (va / 65536)
  (slice d (va % 65536) n, w)
def mutWrite (x : Step) (w : Mw) (va : Nat) (d : List Byte) : Mw :=
  let (t, w) := mutTile x w (va / 65536)
  if w.st ≠ St.ok then w
  else { w with img := w.img.map (fun e => if e.1 = va / 65536 then (e.1, patch t (va % 65536) d) else e), dirty := if w.dirty.contains (va / 65536) then w.dirty else w.dirty ++ [va / 65536] }
/-- The posting list of a centroid. -/
def mutList (x : Step) (c : CollRec) (w : Mw) (k : Nat) : (Nat × Nat) × Mw :=
  let (e, w) := mutRead x w (c.ctab + 8 * k) 8
  ((getLE e 0 4, getLE e 4 4), w)
def mutBits (x : Step) (c : CollRec) (w : Mw) (i : Nat) : (Bool × Bool) × Mw :=
  let (b, w) := mutRead x w (c.stmap + i / 4) 1
  (itemBits b i, w)
/-- The state bits of an item set. -/
def mutSet (x : Step) (c : CollRec) (w : Mw) (i v : Nat) : Mw :=
  let (b, w) := mutRead x w (c.stmap + i / 4) 1
  mutWrite x { w with lists := if w.lists.contains (i / 1024) then w.lists else w.lists ++ [i / 1024] } (c.stmap + i / 4) [BitVec.ofNat 8 (setBits (getLE b 0 1) (2 * (i % 4) + 1) (2 * (i % 4)) v)]
/-- The first item of a run in a state. -/
def mutFind (x : Step) (c : CollRec) (p : Bool × Bool → Bool) (l : List Nat) (w : Mw) : Option Nat × Mw :=
  l.foldl (fun (q : Option Nat × Mw) i =>
    if q.1.isSome ∨ q.2.st ≠ St.ok then q
    else
      let (b, w) := mutBits x c q.2 i
      (if w.st = St.ok ∧ p b then some i else none, w)) (none, w)
/-- INSERT of one record: its item ID and status. -/
def insertOne (x : Step) (h : Nat) (c : CollRec) (rec' : List Byte) (w : Mw) : (Nat × Nat) × Mw :=
  let k := getLE rec' 0 4
  if c.ncent ≤ k then ((0xFFFFFFFF, St.badDesc), w)
  else
    let ((first, n), w) := mutList x c w k
    match mutFind x c (fun b => !b.1) ((List.range (n * 1024)).map (first * 1024 + ·)) w with
    | (some i, w) =>
      let w := mutWrite x w (c.list + 64 * i) (slice rec' 64 64)
      let w := mutWrite x w (c.vec + i * c.vlen) (slice rec' 128 c.dim ++ List.replicate (c.vlen - c.dim) 0)
      ((i, St.ok), mutSet x c w i 1)
    | (none, w) => if w.st ≠ St.ok then ((0xFFFFFFFF, w.st), w) else ((0xFFFFFFFF, St.busy), { w with s := onceTickTen w.s 0x0710 h x.tenant none [h, k] })
/-- What a mutation does to the images: IDs written back and the status of the lowest failing record. -/
def mutRun (x : Step) (m : Mut) (c : CollRec) (w : Mw) : (List Nat × Nat) × Mw :=
  if x.kind = 0x23 then
    let cs := if m.count = 0xFFFFFFFF then List.range c.ncent else [m.count]
    (([], St.ok), cs.foldl (fun w k =>
      if w.st ≠ St.ok then w
      else
        let ((first, n), w) := mutList x c w k
        ((List.range (n * 1024)).map (first * 1024 + ·)).foldl (fun w i =>
          if w.st ≠ St.ok then w
          else
            let (b, w) := mutBits x c w i
            if !b.2 then w
            else mutSet x c (mutWrite x (mutWrite x w (c.list + 64 * i) (List.replicate 64 0)) (c.vec + i * c.vlen) (List.replicate c.vlen 0)) i 0) w) w)
  else
    let n := if x.kind = 0x21 then 128 + c.vlen else 4
    let (src, r) := snapBytes x none { st := w.st, cache := [], s := w.s } m.src (m.count * n)
    let w := { w with st := r.st, s := r.s }
    (List.range m.count).foldl (fun (q : (List Nat × Nat) × Mw) k =>
      if q.2.st ≠ St.ok then q
      else if x.kind = 0x21 then
        let ((id, st), w) := insertOne x m.h c (slice src (n * k) n) q.2
        ((q.1.1 ++ [id], if q.1.2 = St.ok then st else q.1.2), w)
      else
        let i := getLE src (4 * k) 4
        if c.nitems ≤ i then (q.1, { q.2 with s := q.2.s.bump F.STRN_DEL_NOP_COUNT })
        else
          let (b, w) := mutBits x c q.2 i
          if b.1 ∧ !b.2 then (q.1, mutSet x c w i 3) else (q.1, { w with s := w.s.bump F.STRN_DEL_NOP_COUNT })) (([], St.ok), w)
/-- The commit: a shadow in a new slot for every changed tile, in one change; any failure leaves the tiles as they were (R377). -/
def mutCommit (x : Step) (w : Mw) : Nat × State :=
  let q := w.dirty.foldl (fun (q : Nat × State) n =>
    if q.1 ≠ St.ok then q
    else
      let ((st, t), s) := stepXlate q.2 x (n * 65536) Need.w
      let l := tileId s t.tile
      if st ≠ St.ok then (st, s)
      else if inCutover s l then (St.ok, markStuck s)
      else
        let y := tileGet s l
        if !keyOk y t.ten t.key then (St.key, fault s x.tenant (n * 65536) St.key Need.w (stepReq x))
        else match takeSlot s l (if y.loc = noLoc then placeFar y else locFar y.loc) none true with
          | (none, s) => (St.busy, s)
          | (some a, s) =>
            let s := if y.state = .inTransit then endCopy s l .sealed else s
            let y := tileGet s l
            let y : Tile := if y.state = .shadowed then { y with alt := a }
              else { (if y.state = .free then { y with tenant := t.ten, key := t.key, loc := noLoc } else y) with state := .shadowed, alt := a, oldOpen := y.state == .opened, oldLost := y.state == .retired, shJob := none, shStep := engOf x, shCharge := none }
            (St.ok, shadowWrite (tileSet s l y) l 0x20 (((w.img.find? (fun e => e.1 == n)).map Prod.snd).getD []))) (St.ok, w.s)
  if q.1 = St.ok then q else (q.1, { q.2 with st := { w.s.st with noSlot := q.2.st.noSlot, roomShort := q.2.st.roomShort }, mem := w.s.mem })
/-- STRN_DEAD_HIGH for the lists a mutation changed (R380). -/
def deadCheck (x : Step) (h : Nat) (c : CollRec) (w : Mw) : Mw :=
  if w.lists.isEmpty then w else
  (List.range c.ncent).foldl (fun w k =>
    let ((first, n), w) := mutList x c w k
    if !w.lists.any (fun l => first ≤ l && l < first + n) then w
    else
      let (dead, w) := ((List.range (n * 1024)).map (first * 1024 + ·)).foldl (fun (q : Nat × Mw) i => let (b, w) := mutBits x c q.2 i; (q.1 + b2n b.2, w)) (0, w)
      let co := collGet w.s h
      if n * w.s.fld F.STRN_CTL_DEAD_WARN < dead ∧ !co.warned.contains k then { w with s := (collSet w.s h { co with warned := k :: co.warned }).notice 0x0711 [h, k] x.tenant } else w) w
/-- A byte-path store of the tenant by the engine: the ID list (R378). -/
def resStore (x : Step) (s : State) (va v : Nat) : Nat × State :=
  let ((st, t), s) := stepXlate s x va Need.w
  let l := tileId s t.tile
  if st ≠ St.ok then (st, s)
  else if inCutover s l then (St.ok, markStuck s)
  else if !keyOk (tileGet s l) t.ten t.key then (St.key, fault s x.tenant va St.key Need.w (stepReq x))
  else byteStore s l t.off (natLe 4 v) t.ten t.key
/-- Lines of the ID list that agents hold: they are given back before the store (R295). -/
def resLines (s : State) (x : Step) (m : Mut) : List Nat :=
  if x.kind ≠ 0x21 then [] else
  (List.range m.count).flatMap (fun k =>
    let (st, t) := xlate s x.tenant (m.res + 4 * k) Need.w none
    let l := tileId s t.tile
    if st ≠ St.ok ∨ (cohWin s l).isNone then [] else [lineOf l t.off].filter (fun n => (dirGet s n).valid))
/-- Lines that agents hold of the tiles a mutation changes: they are given back before its shadows are taken (R274). -/
def mutLines (s : State) (x : Step) (w : Mw) : List Nat :=
  if w.st ≠ St.ok then [] else w.dirty.flatMap (fun n =>
    let (st, t) := xlate s x.tenant (n * 65536) Need.w none
    let l := tileId s t.tile
    if st ≠ St.ok ∨ (cohWin s l).isNone then [] else linesHeld s l 1)
/-- The oldest mutation of a handle, once its engine has it (log 51, DESIGN CHOICE). -/
def nextMut (s : State) (h : Nat) : Option Step :=
  (s.seq.steps.find? (fun x => 0x21 ≤ x.kind && x.kind ≤ 0x23 && x.aux.head? == some h && !x.done)).filter (fun x => !x.waiting && !x.suspended)
/-- A mutation builds its images and commits (R377 to R380). -/
def commitMut (h : Nat) (x : Step) (s : State) : State :=
  let m := mutOf x.body
  let c := (collGet s h).cr
  let r := mutRun x m c { st := St.ok, img := [], dirty := [], lists := [], s := s }
  let w := r.2
  if w.st ≠ St.ok then stepFail w.s x w.st 1
  else
    let mc := mutCommit x w
    if mc.1 ≠ St.ok then stepFail mc.2 x mc.1 1
    else
      let s := mc.2
      let co := collGet s h
      let s := if x.kind = 0x23 then collSet s h { co with warned := if m.count = 0xFFFFFFFF then [] else co.warned.filter (· != m.count) } else s
      let s := (deadCheck x h c { w with s := s }).s
      let e := ((List.range r.1.1.length).zip r.1.1).foldl (fun (q : Nat × State) e =>
        let a := resStore x q.2 (m.res + 4 * e.1) e.2
        (if q.1 = St.ok then a.1 else q.1, a.2)) (r.1.2, s)
      match stepGet e.2 x.id with
      | some y => stepPut e.2 { y with done := true, status := e.1 }
      | none => e.2
/-- MUTATION_COMMIT: nothing yet where a tile it needs is in cut-over or agents still hold lines of what it writes. -/
def execMutationCommit (h : Nat) (s : State) : Out State :=
  hubOnly (fun s => match nextMut s h with
    | none => s
    | some x =>
      let held := resLines s x (mutOf x.body) ++ mutLines s x (mutRun x (mutOf x.body) (collGet s h).cr { st := St.ok, img := [], dirty := [], lists := [], s := s }).2
      if held.isEmpty then orLater (commitMut h x) id s else backInvalidate s held) s
/-- A strainer step starts: a query is performed, a mutation is judged and waits for its commit. -/
def runStrn (s : State) (x : Step) : State :=
  if x.kind = 0x20 then runQuery s x
  else match (if x.aux.isEmpty then none else collOf s x.tenant (mutOf x.body).h) with
    | none => stepFail s x St.badDesc 1
    | some c => if !mutOk c.cr (mutOf x.body) x ∨ x.job.isSome then stepFail s x St.badDesc 1 else stepPut s x

end Sys2Proof.Machine
end

