-- ==== Sys2Proof/Machine/Barrow.lean ====
section
/-! DEFINITION. Machine/Barrow.lean: prefetch steps, hints, demand and scrub (spec/02 R91, spec/03 R102 to R107, R117 to R119). -/

namespace Sys2Proof.Machine

open Sys2Proof

/-! ### Prefetch steps (R117 to R119) -/

/-- Entries of a prefetch body, tile by tile: virtual address, promote or demote, preferred stack. -/
def prefTiles (b : List Byte) : List (Nat × Bool × Nat) :=
  (List.range (getLE b 0 4)).flatMap (fun i =>
    let o := 16 + 16 * i
    (List.range (getLE b (o + 8) 4)).map (fun k => (getLE b o 8 + 65536 * k, getLE b (o + 12) 1 == 1, getLE b (o + 13) 1)))
/-- Table 03-3; a step takes no input, so EXPECT is 0 (log 106, DESIGN CHOICE). -/
def prefOk (x : Step) : Bool :=
  let b := x.body
  let n := getLE b 0 4
  1 ≤ n && n ≤ 4096 && b.length == 16 + 16 * n && x.expect == 0 && getLE b 4 2 == x.layer
  && (List.range n).all (fun i =>
    let o := 16 + 16 * i
    let op := getLE b (o + 12) 1
    let st := getLE b (o + 13) 1
    getLE b o 8 % 65536 == 0 && getLE b o 8 < 2 ^ 52 && 1 ≤ getLE b (o + 8) 4 && getLE b (o + 8) 4 ≤ 1048576 && (op == 1 || op == 2)
    && (st == 255 || st < (if op = 1 then 8 else 16)))
/-- What the barrow finds when it takes a tile of a prefetch. -/
inductive Take where
  /-- nothing is left to do -/
  | done
  /-- the step completes with a status -/
  | fail (st : Nat)
  /-- the tile is to be copied -/
  | copy
  /-- the tile is tried again after the rest of the step -/
  | later
deriving DecidableEq, Repr
/-- One tile of a prefetch, by its state and its tier (R96, R97, R118). -/
def takeTile (s : State) (j t : Nat) (promote : Bool) : Take × State :=
  let y := tileGet s t
  match y.state with
  | .free => (.done, s)
  | .retired => (.fail St.checksum, s)
  | .sealed =>
    if promote then
      if locFar y.loc then (if nearRoom s (some j) then .copy else .fail St.busy, s)
      else if y.charges.contains j then (.done, s)
      else if nearRoom s (some j) then (.done, roomEnd (tileSet s t { y with charges := j :: y.charges })) else (.fail St.busy, s)
    else
      let rest := y.charges.filter (· != j)
      let s := tileSet s t { y with charges := rest }
      if rest.isEmpty ∧ isNear y.loc then (.copy, s) else (.done, if y.charges.isEmpty then s else applyHint s t)
  | _ => (.later, s)
/-- A tile of a prefetch is translated as for a churn read, then taken; the other half's barrow moves the tiles it homes. -/
def takeMove (s : State) (x : Step) (m : Move) : Take × State :=
  let ((st, t), s) := stepXlate s x m.va Need.r
  if st ≠ St.ok then (.fail st, s)
  else if !homedHere s t.tile then (.done, s)
  else if !keyOk (tileGet s m.tile) t.ten t.key then (.fail St.key, fault s x.tenant m.va St.key Need.r (stepReq x))
  else takeTile s (x.job.getD 0) m.tile m.promote
/-- A prefetch step ends early: its queued tiles are forgotten. -/
def prefFail (s : State) (x : Step) (st cls : Nat) : State := stepFail (movesEnd s [x.id]) x st cls
/-- The first of a step's tiles in the queue. -/
def firstMove (s : State) (id : Nat) : Option Move := s.st.queue.find? (fun m => m.step == some id)
/-- The barrow takes a step's tiles in order up to the next one it has to copy. -/
def takeMoves : Nat → Nat → State → State
  | 0, _, s => s
  | n + 1, id, s => match stepGet s id, firstMove s id with
    | some x, some m => match takeMove s x m with
      | (.done, s) => takeMoves n id (unqueue s m)
      | (.fail st, s) => prefFail s x st (failClass st)
      | (.copy, s) => s
      | (.later, s) => takeMoves n id (stSet s { s.st with queue := s.st.queue.erase m ++ [m] })
    | _, _ => s
/-- Every prefetch step goes on as far as it can without a further copy. -/
def prefGo (s : State) : State :=
  (s.seq.steps.filter (fun x => x.kind == 0x30)).foldl (fun s x => takeMoves (s.st.queue.filter (fun m => m.step == some x.id)).length x.id s) s
/-- A prefetch step is done once none of its tiles is queued or in a copy (R119). -/
def prefDone (s : State) (id : Nat) : Bool := !s.st.queue.any (fun m => m.step == some id) && !s.st.copies.any (fun c => c.step == some id)
/-- The work of a prefetch step: its tiles are queued in the order of its entries, and taken. -/
def runPrefetch (s : State) (x : Step) : State :=
  if !prefOk x then stepFail s x St.badDesc 1
  else
    let ms := (prefTiles x.body).map (fun e => ({ tile := tileId s (xlate s x.tenant e.1 0 none).2.tile, promote := e.2.1, step := some x.id, job := x.job, pref := e.2.2, va := e.1 } : Move))
    prefGo (stSet s { s.st with queue := s.st.queue ++ ms })

/-! ### Demand and hints (R102 to R107) -/

/-- DEMAND_DECAY: every count is halved, every DECAY ticks (R102). -/
def execDemandDecay (s : State) : Out State :=
  hubOnly (fun s =>
    if s.tk.num < s.st.decayed + s.fld F.MIG_DEMAND_DECAY then s
    else stSet s { s.st with decayed := s.tk.num, demand := s.st.demand.foldl (fun m e => smSet (fun _ => {}) m e.1 (if e.2.count / 2 = 0 then {} else { e.2 with count := e.2.count / 2 })) s.st.demand }) s
def pinCount (s : State) : Nat := ((ownTiles s).filter (fun e => e.2.hint == 3)).length
/-- A tile takes a hint: background demotions that an earlier one asked for are forgotten, and the new one acts (R105). -/
def setHint (hint : Nat) (s : State) (t : Nat) : State :=
  let s := tileSet s t { (tileGet s t) with hint := hint }
  applyHint (stSet s { s.st with queue := s.st.queue.filter (fun m => !(m.tile == t && m.step.isNone && moveStale s m)) }) t
/-- The tile of a MIG_HINT at an address, translated as for a byte-path load by the issuer: check 3 to check 7 (R104, R399; log 91,
DEDUCED). -/
def hintTile (s : State) (ten va req : Nat) : Nat × Nat :=
  match check3 s ten va 0 true false false with
  | .pass va =>
    let (st, t) := xlate s ten va Need.r none
    let l := tileId s t.tile
    if st ≠ St.ok then (st, l)
    else if !(check6 s ten va 65536 req Need.r).1 then (St.lease, l)
    else if !keyOk (tileGet s l) t.ten t.key then (St.key, l) else (St.ok, l)
  | _ => (St.unmapped, 0)
/-- MIG_HINT: every tile is translated before any is changed (R104 to R106); a failure is in the completion alone (R324). -/
def execMigHint (mb : Mbx) (va n hint : Nat) (s : State) : Out State :=
  mbxOnly mb (vendor mb .ten (fun s =>
    let ten := (mbxTenant s mb).getD 0
    let req := match mb with | .ld i => reqLd s i | _ => reqSys
    if va % 65536 ≠ 0 ∨ 2 ^ 52 ≤ va ∨ n = 0 ∨ 16777216 < n ∨ 4 < hint then s.reply mb St.badDesc
    else if tenantCheck s ten ≠ St.ok then s.reply mb (tenantCheck s ten)
    else
      let l := (List.range n).map (fun i => hintTile s ten (va + 65536 * i) req)
      match l.find? (fun e => e.1 != St.ok) with
      | some e => s.reply mb e.1
      | none =>
        let after := pinCount (l.foldl (fun s e => tileSet s e.2 { (tileGet s e.2) with hint := hint }) s)
        if hint = 3 ∧ s.fld F.MIG_PIN_MAX < after then (s.notice 0x0213 [after] ten).reply mb St.busy
        else (l.foldl (fun s e => setHint hint s e.2) s).reply mb St.ok)) s

/-! ### Scrub (R91) -/

/-- A SEALED tile read and verified by scrub. -/
def scrubOne (s : State) (t : Nat) : State := if (tileGet s t).state = .sealed then (verify s t { word := reqSys }).2 else s
/-- PERIOD of TILE_SCRUB_CTL in TBS cycles. -/
def scrubPeriod (s : State) : Nat := s.fld F.TILE_SCRUB_CTL_PERIOD * ms 3600000
/-- SCRUB_TILE: the next SEALED tile, or the end of the pass. A pass begins once in each period. -/
def execScrubTile (ups : List Upset) (s : State) : Out State :=
  hubOnly (fun s =>
    let s := withUps s ups
    if !s.flag F.TILE_SCRUB_CTL_EN ∨ s.damp.forced ∨ s.st.locks.any (fun l => l.act == .scrub) ∨ (!s.st.scrubOn ∧ s.time < s.st.scrubDue) then s
    else
      let s := if s.st.scrubOn then s else stSet s { s.st with scrubOn := true, scrubDue := s.time + scrubPeriod s }
      match (ownTiles s).find? (fun e => s.st.scrubNext ≤ e.1 && e.2.state == .sealed) with
      | none => stSet s { s.st with scrubNext := 0, scrubOn := false, scrubPasses := satAdd 32 s.st.scrubPasses 1 }
      | some e =>
        let s := stSet s { s.st with scrubNext := e.1 + 1 }
        let (go, id, s) := lockInternal s .scrub e.1 1
        if go then lockDrop (scrubOne s e.1) id else s) s

end Sys2Proof.Machine
end

