-- ==== Sys2Proof/Machine/Operands.lean ====
section
/-! DEFINITION. Machine/Operands.lean: the forms a command's operands take on the wire: the header of a cell and its CCRC (R191 to
R193), the 257-bit blocks of a port's stream, their scrambler (R183) and a lane's Reed-Solomon codeword (R184). -/

namespace Sys2Proof.Machine

open Sys2Proof

/-! ### The cell header (Table 06-4) -/

/-- The CTL byte: VN, COLOUR, CE, FWD, LAST; bit 0 reserved. -/
def cellCtl (c : Cell) : Nat := c.vn % 4 * 64 + c.colour % 4 * 16 + b2n c.ce * 8 + b2n c.fwd * 4 + b2n c.last * 2
/-- The LINK word: ACK, CVN, CCNT; bits 1:0 reserved (R192). -/
def cellLink (c : Cell) : Nat := c.ack % 4096 * 2 ^ 20 + c.cvn % 4 * 2 ^ 18 + c.ccnt % 65536 * 4
/-- Header bytes 0 to 27. -/
def cellHead (c : Cell) : List Byte :=
  natLe 1 c.ty ++ natLe 1 (cellCtl c) ++ natLe 2 c.dst ++ natLe 2 c.src ++ natLe 1 c.dstEp ++ natLe 1 c.srcEp ++ natLe 8 c.addr
    ++ natLe 2 c.tag ++ natLe 2 c.txn ++ natLe 2 c.epoch ++ natLe 1 c.opx ++ natLe 1 c.len ++ natLe 4 (cellLink c)
/-- The 256 payload bytes a cell carries: bytes beyond the list are 0. -/
def cellPay (c : Cell) : List Byte := slice c.payload 0 256
/-- CCRC: CRC-32C over header bytes 0 to 27 and the payload (R193). -/
def cellCcrc (c : Cell) : Nat := crc32c (cellHead c ++ cellPay c)
/-- The 288 bytes of a cell (R189). -/
def cellBytes (c : Cell) : List Byte := cellHead c ++ natLe 4 (cellCcrc c) ++ cellPay c
/-- The cell whose header bytes and payload bytes stand in a list (R189, R191). -/
def cellOfBytes (l : List Byte) : Cell :=
  let ctl := getLE l 1 1
  let lk := getLE l 24 4
  { ty := getLE l 0 1, vn := bits ctl 7 6, colour := bits ctl 5 4, ce := bitOf ctl 3, fwd := bitOf ctl 2, last := bitOf ctl 1, dst := getLE l 2 2, src := getLE l 4 2, dstEp := getLE l 6 1, srcEp := getLE l 7 1, addr := getLE l 8 8, tag := getLE l 16 2, txn := getLE l 18 2, epoch := getLE l 20 2, opx := getLE l 22 1, len := getLE l 23 1, ack := bits lk 31 20, cvn := bits lk 19 18, ccnt := bits lk 17 2, payload := slice l 32 256 }
/-- The received bytes pass their CCRC (R193). -/
def ccrcOk (l : List Byte) : Bool := getLE l 28 4 == crc32c (slice l 0 28 ++ slice l 32 256)

/-! ### Blocks and the scrambler (R183) -/

/-- The bits of bytes, byte 0 first, each byte least significant bit first. -/
def bytesBits (l : List Byte) : List Bool := l.flatMap (fun b => (List.range 8).map (fun i => b.getLsbD i))
/-- One bit of the self-synchronous scrambler 1 + x^39 + x^58: `h` holds the bits sent before, the latest first. -/
def scrBit (h : List Bool) (b : Bool) : Bool := Bool.xor b (Bool.xor (h.getD 38 false) (h.getD 57 false))
/-- Scrambled bits, and the history they leave. -/
def scramble (h : List Bool) : List Bool → List Bool × List Bool
  | [] => ([], h)
  | b :: l =>
    let y := scrBit h b
    let r := scramble ((y :: h).take 58) l
    (y :: r.1, r.2)
/-- Descrambled bits, and the history they leave. -/
def descramble (h : List Bool) : List Bool → List Bool × List Bool
  | [] => ([], h)
  | y :: l =>
    let r := descramble ((y :: h).take 58) l
    (scrBit h y :: r.1, r.2)
/-- One 257-bit block: the header bit unscrambled, then the 32 bytes' bits scrambled (log 14, DESIGN CHOICE). -/
def blockBits (h : List Bool) (data : Bool) (l : List Byte) : List Bool × List Bool :=
  let r := scramble h (bytesBits l)
  (data :: r.1, r.2)
/-- The lane block i of a port's stream goes to. -/
def blockLane (i : Nat) : Nat := i % 8
/-- The cells, 288 bytes each, in a received stream of blocks: header bit and 32 bytes. The first data block after link-up, after a
control block or after a ninth block begins a cell (R189); `part` holds the data blocks of the cell that is arriving. -/
def cellsOf : List (List Byte) → List (Bool × List Byte) → List (List Byte)
  | _, [] => []
  | _, (false, _) :: l => cellsOf [] l
  | part, (true, b) :: l => if part.length = 8 then (part ++ [b]).flatten :: cellsOf [] l else cellsOf (part ++ [b]) l

/-! ### The lane codeword RS(544,514) (R184) -/

/-- Product in GF(2^10) with the primitive polynomial x^10 + x^3 + 1: `n` bits of `b` remain. -/
def gfMulAux : Nat → Nat → Nat → Nat
  | 0, _, _ => 0
  | n + 1, a, b =>
    let a2 := if a * 2 / 1024 % 2 = 1 then Nat.xor (a * 2 % 1024) 9 else a * 2 % 1024
    Nat.xor (if b % 2 = 1 then a else 0) (gfMulAux n a2 (b / 2))
def gfMul (a b : Nat) : Nat := gfMulAux 10 a b
/-- α^n, with α = x. -/
def gfPow : Nat → Nat
  | 0 => 1
  | n + 1 => gfMul (gfPow n) 2
/-- The generator's coefficients below its leading 1, highest first: the product of (x − α^i), i from 0 to n − 1. -/
def rsGen : Nat → List Nat
  | 0 => []
  | n + 1 =>
    let g := rsGen n
    List.zipWith Nat.xor (g ++ [0]) ((1 :: g).map (gfMul (gfPow n)))
/-- One step of the division by the generator: the remainder after a message symbol. -/
def rsStep (g r : List Nat) (m : Nat) : List Nat :=
  let f := Nat.xor m (r.headD 0)
  List.zipWith Nat.xor (r.drop 1 ++ [0]) (g.map (gfMul f))
/-- The 30 parity symbols of 514 message symbols. -/
def rsParity (msg : List Nat) : List Nat := msg.foldl (rsStep (rsGen 30)) (List.replicate 30 0)
/-- The codeword: the parity symbols follow the message symbols. -/
def rsCodeword (msg : List Nat) : List Nat := msg ++ rsParity msg
/-- A received word's value at α^i: every one is 0 for a codeword. -/
def rsSyndrome (w : List Nat) (i : Nat) : Nat := w.foldl (fun a x => Nat.xor (gfMul a (gfPow i)) x) 0
/-- Inverse of a non-zero element. -/
def gfInv (a : Nat) : Nat := (List.range 1021).foldl (fun p _ => gfMul p a) a
/-- Value of a polynomial, lowest coefficient first. -/
def gfEval (p : List Nat) (x : Nat) : Nat := p.foldr (fun c v => Nat.xor c (gfMul v x)) 0
/-- a + k x^m b, as polynomials. -/
def gfAxpy (a : List Nat) (k m : Nat) (b : List Nat) : List Nat :=
  (List.range (max a.length (m + b.length))).map (fun i => Nat.xor (a.getD i 0) (if m ≤ i then gfMul k (b.getD (i - m) 0) else 0))
/-- The shortest recurrence of a list of syndromes, as the error locator: locator, last locator, length, steps since it grew, last
discrepancy. -/
def rsLocator (syn : List Nat) : List Nat × Nat :=
  let r := (List.range syn.length).foldl (fun (r : List Nat × List Nat × Nat × Nat × Nat) n =>
    let (c, b, l, m, bd) := r
    let d := (List.range (l + 1)).foldl (fun d i => Nat.xor d (gfMul (c.getD i 0) (syn.getD (n - i) 0))) 0
    if d = 0 then (c, b, l, m + 1, bd)
    else
      let c' := gfAxpy c (gfMul d (gfInv bd)) m b
      if 2 * l ≤ n then (c', c, n + 1 - l, 1, d) else (c', b, l, m + 1, bd)) ([1], [1], 0, 1, 1)
  (r.1, r.2.2.1)
/-- A received word corrected, with the number of symbols changed; none where more than 15 would have to be (R184). -/
def rsCorrect (w : List Nat) : Option (List Nat × Nat) :=
  let syn := (List.range 30).map (rsSyndrome w)
  let (loc, n) := rsLocator syn
  -- the error values: x Ω(1/x) / Λ'(1/x) at the locators x = α^e, of the symbol e from the end
  let om := (List.range 30).map (fun k => (List.range (k + 1)).foldl (fun v i => Nat.xor v (gfMul (loc.getD i 0) (syn.getD (k - i) 0))) 0)
  let der := (List.range loc.length).map (fun i => if i % 2 = 0 then loc.getD (i + 1) 0 else 0)
  let errs := (List.range w.length).filterMap (fun e =>
    let xi := gfPow ((1023 - e) % 1023)
    if gfEval loc xi = 0 then some (w.length - 1 - e, gfMul (gfPow e) (gfMul (gfEval om xi) (gfInv (gfEval der xi)))) else none)
  let w' := errs.foldl (fun w e => w.set e.1 (Nat.xor (w.getD e.1 0) e.2)) w
  if n ≤ 15 ∧ errs.length = n ∧ (List.range 30).all (fun i => rsSyndrome w' i == 0) then some (w', n) else none
/-- A lane's 10-bit symbols of a bit stream, the first bit being symbol bit 0; 20 blocks give 514. -/
def symbolsOf : Nat → List Bool → List Nat
  | 0, _ => []
  | n + 1, l => (List.range 10).foldl (fun a i => a + b2n (l.getD i false) * 2 ^ i) 0 :: symbolsOf n (l.drop 10)

end Sys2Proof.Machine
end

