-- ==== Sys2Proof/Machine/Ports.lean ====
section
/-! DEFINITION. Machine/Ports.lean: bring-up, recovery and the link layer of the optical ports (spec/06): the meanings of the port
rows. -/

namespace Sys2Proof.Machine

open Sys2Proof

/-! ### Going down, recovering (R185, R188, R210) -/

/-- Cells queued for a port are discarded and counted, with its replay buffer (R188, R223). -/
def discardQueued (s : State) (n : Nat) : State :=
  let gone := (s.fab.voq ++ s.fab.egress).filter (fun x => x.out == n)
  let s := { s with fab := { s.fab with voq := s.fab.voq.filter (fun x => x.out != n), egress := s.fab.egress.filter (fun x => x.out != n) } }
  let s := gone.foldl (fun s x => freeEntry (trailerLeft s x.c) x) s
  let p := portGet s n
  let s := s.bump (F.FAB_PORT_DISCARD_COUNT n) (gone.length + p.replay.length)
  portSet s n { p with replay := [] }
/-- A port enters a state, with the negotiation and the lanes of its last bring-up forgotten (Table 06-1). -/
def portEnter (s : State) (n : Nat) (st : PState) : State :=
  portSet s n { (portGet s n) with state := st, since := s.time, neg := none, negSame := 0, negAcked := false, lanes := 0, lanesSeen := [], nakWait := false, naks := [] }
/-- A port leaves UP or RECOVER for DOWN: notice, its agent lost, the yoke lost when both its ports are gone (R188, R210, R301). -/
def portLost (s : State) (n : Nat) (st : PState) : State :=
  let wasAgent := agentPort s n
  let s := portEnter (discardQueued s n) n st
  let s := (portSet s n { (portGet s n) with peer := none }).notice 0x0402 [n]
  let s := if wasAgent ∧ n < 24 then agentLost s (16 + n) else s
  if s.sup.yoked ∧ 24 ≤ n ∧ !([24, 25].any (fun k => (portGet s k).state == .up || (portGet s k).state == .recover)) then faultAllJobs s St.link 3 else s
/-- A port whose bring-up fails goes DOWN with a notice (Table 06-1). -/
def portFail (s : State) (n code : Nat) (args : List Nat) : State := (portEnter s n .down).notice code (n :: args)
/-- The lanes whose LANE blocks have not been received, as a mask. -/
def lanesMissing (p : Port) : Nat := (List.range 8).foldl (fun m l => if p.lanesSeen.any (fun e => e.1 == l) then m else m + 2 ^ l) 0
/-- A recovery cause (R188). -/
def recover (s : State) (n : Nat) : State :=
  let p := portGet s n
  if p.state = .up then (portSet s n { p with state := .recover, stage := .train, since := s.time, neg := none, negSame := 0, negAcked := false, lanes := 0, lanesSeen := [], naks := [], replay := p.replay.map (fun e => (e.1, 0)) }).notice 0x0403 [n]
  else s
/-- A recovery cause of this side's own: the peer learns of it by a RETRAIN block (R188, Table 06-2; log 108, DEDUCED). -/
def recoverOwn (s : State) (n : Nat) : State :=
  if (portGet s n).state = .up then recover (s.emit (.block n (ctlBlock (natLe 1 0x55)))) n else s
/-- The yoke ports of a hub that is neither yoked nor forming a yoke stay DISABLED (R210). -/
def mayEnable (s : State) (n : Nat) : Bool := n < 24 || s.sup.yoked || s.sup.stage == .yoke
/-- EN of FAB_PORT_CTL_n was written (R185). -/
def portEnable (s : State) (n : Nat) : State :=
  let p := portGet s n
  if s.flag (F.FAB_PORT_CTL_EN n) ∧ mayEnable s n then (if p.state = .disabled then portEnter s n .detect else s)
  else if p.state = .up ∨ p.state = .recover then portLost s n .disabled
  else portEnter s n .disabled
/-- A block that arrives on a port whose receiver runs: one whose CRC fails is discarded and counted, in whatever state; one of the
type named acts in the states it is sent in (R190). -/
def ctlOk (b : List Byte) : Bool := getLE b 28 4 == crc32c (slice b 0 28)
def receiving (p : Port) : Bool := p.state == .lock || p.state == .negotiate || p.state == .up || p.state == .recover
def withBlock (n ty : Nat) (when : Port → Bool) (b : List Byte) (f : State → State) (s : State) : State :=
  if n ≥ 26 ∨ !receiving (portGet s n) then s
  else if !ctlOk b then s.bump (F.FAB_PORT_ERR_CRC_ERR n)
  else if getLE b 0 1 = ty ∧ when (portGet s n) then f s else s
/-- A NEG block read (Table 06-3). -/
def negOf (b : List Byte) : Option Neg :=
  let k := getLE b 1 1
  if k = 1 ∨ k = 2 then
    some { hub := k == 1, node := getLE b 2 2 % 4096, port := getLE b 4 1, acked := bitOf (getLE b 5 1) 0, yoked := bitOf (getLE b 5 1) 1, domain := getLE b 6 2,
           cred := (List.range 4).map (fun v => getLE b (8 + 2 * v) 2), rxNext := getLE b 16 2 % 4096 }
  else none
/-- Two NEG blocks agree but for ACKED. -/
def sameNeg (a b : Neg) : Bool := { a with acked := false } == { b with acked := false }
/-- The peer fits PEER, and on a yoke port is a hub that announces the same yoke port (R187). -/
def peerFits (s : State) (n : Nat) (g : Neg) : Bool :=
  let k := s.fld (F.FAB_PORT_CTL_PEER n)
  (k == 0 || (k == 1 && g.hub) || (k == 2 && !g.hub)) && (n < 24 || (g.hub && g.port == 0xF0 + (n - 24)))
/-- Cells kept in the replay buffer are sent again with fresh LINK fields, each counted (R188, R192, R198). -/
def resend (s : State) (n : Nat) : State :=
  (portGet s n).replay.foldl (fun s e =>
    let p := portGet s n
    (portSet s n { p with cvn := (p.cvn + 1) % 4 }).emit (.cell n { e.1 with ack := p.rxNext, cvn := p.cvn, ccnt := nth4 p.freed p.cvn })) 
    (portSet s n { (portGet s n) with replay := (portGet s n).replay.map (fun e => (e.1, e.2 + 1)) })
/-- FAB_CRED_INIT as four grants (R200). -/
def credInit (s : State) : List Nat := [s.fld F.FAB_CRED_INIT_VN0, s.fld F.FAB_CRED_INIT_VN1, s.fld F.FAB_CRED_INIT_VN2, s.fld F.FAB_CRED_INIT_VN3]
/-- A NEGOTIATE from DOWN fixes the credits this hub grants on the link; a RECOVER keeps them (R200, R212). -/
def grantNow (s : State) (n : Nat) : State := portSet s n { (portGet s n) with inits := credInit s }
/-- The NEG block this hub sends on a port (R187, R209, R517). -/
def negBlock (s : State) (n : Nat) : List Byte :=
  let p := portGet s n
  ctlBlock (natLe 1 0x4B ++ natLe 1 1 ++ natLe 2 (if s.sup.yoked ∨ s.sup.stage = .yoke then s.sup.hdr.pairId else s.hubId)
    ++ natLe 1 (if n < 24 then (if s.sup.yoked ∧ s.sup.upper then n + 24 else n) else 0xF0 + (n - 24))
    ++ natLe 1 (b2n (2 ≤ p.negSame) + 2 * b2n (s.sup.yoked || s.sup.stage == .yoke)) ++ natLe 2 (s.fld F.TICK_TREE_DOMAIN)
    ++ p.inits.flatMap (natLe 2) ++ natLe 2 p.rxNext)
/-- The HELLO of a half over a yoke port (R517). -/
def helloBytes (s : State) : List Byte :=
  natLe 1 1 ++ natLe 1 (b2n s.sup.hdr.upper) ++ natLe 2 s.sup.hdr.pairId ++ natLe 4 0 ++ natLe 8 Config.serial ++ natLe 8 s.sup.hdr.pairDigest
  ++ natLe 2 s.sup.level ++ natLe 2 0 ++ natLe 4 (s.fld F.TICK_PERIOD_BASE) ++ List.replicate 32 0
def sendHello (s : State) (n : Nat) : State :=
  issueOn s 33 (some n) { cell0 s 0x02 with dst := s.sup.hdr.pairId, dstEp := if s.sup.hdr.upper then 0xFF else 0xFE, tag := 0xFFFF, addr := 0x2E05CF00000, len := 63, payload := helloBytes s } none none |>.2
/-- A port enters UP from NEGOTIATE (R187, R196, R200, R253). -/
def portUpFrom (s : State) (n : Nat) (g : Neg) : State :=
  let p := portGet s n
  let s := portSet s n { p with state := .up, since := s.time, peer := some g, neg := none, negSame := 0, negAcked := false, lanes := 255, txNext := 0, txAck := 0, rxNext := 0, replay := [], nakWait := false, sent := [0, 0, 0, 0], returned := [0, 0, 0, 0], freed := [0, 0, 0, 0], granted := g.cred, cvn := 0, naks := [] }
  let s := (List.range 16).foldl (fun s k => shaperReset s n k) s
  let s := s.notice 0x0401 [n]
  let s := if n < 24 ∧ !g.hub then agentBack s (16 + n) else s
  if 24 ≤ n ∧ s.sup.stage = .yoke then sendHello s n else s
/-- The stage of bring-up a port is in, in RECOVER the one it goes through again (R188). -/
def stageOf (p : Port) : PState := if p.state = .recover then p.stage else p.state
/-- The next stage of bring-up: in RECOVER, a stage of the recovery; its bound then is HOLD alone. -/
def toStage (s : State) (n : Nat) (st : PState) : State :=
  let p := portGet s n
  if p.state = .recover then portSet s n { p with stage := st } else portSet s n { p with state := st, since := s.time }
/-- A stage fails: the port goes DOWN, with the notice of a lost port where it was up before, and that of the stage (Table 06-1). -/
def stageFail (s : State) (n code : Nat) (args : List Nat) : State :=
  if (portGet s n).state = .recover then (let s := portLost s n .down; if code = 0x0405 then s.notice code (n :: args) else s) else portFail s n code args
/-- The negotiation ends (R187, R188). -/
def negotiateDone (s : State) (n : Nat) : State :=
  let p := portGet s n
  match p.neg with
  | none => s
  | some g =>
    if p.negSame < 2 ∨ !p.negAcked ∨ stageOf p ≠ .negotiate then s
    else if !peerFits s n g then stageFail s n 0x0405 []
    else if p.state = .negotiate then portUpFrom s n g
    else
      let s := portSet s n { ackPort p g.rxNext with state := .up, since := s.time, peer := some g, neg := none, negSame := 0, negAcked := false, nakWait := false }
      resend s n

def execPortDetectDone (n : Nat) (s : State) : Out State :=
  hubOnly (fun s => if n < 26 ∧ (portGet s n).state = .detect then toStage s n .train else s) s
/-- The first LANE block of each lane (R186); one block of a lane stands for its codewords (log 108, DESIGN CHOICE). -/
def laneBlock (l count : Nat) : List Byte := ctlBlock (natLe 1 0x33 ++ natLe 1 l ++ natLe 2 0 ++ natLe 4 count)
/-- A LANE block goes out on each lane. -/
def sendLanes (s : State) (n : Nat) : State := { s with out := (List.range 8).map (fun l => Emit.block n (laneBlock l 0)) ++ s.out }
def execPortTrainDone (n : Nat) (s : State) : Out State :=
  hubOnly (fun s =>
    if n < 26 ∧ stageOf (portGet s n) = .train then sendLanes (toStage s n .lock) n
    else s) s
/-- How far apart the lanes' codeword counters stand. -/
def counterSkew (p : Port) : Nat :=
  let l := p.lanesSeen.map Prod.snd
  l.foldl max 0 - l.foldl min (l.headD 0)
/-- R186: every lane has been identified by its LANE blocks; a skew above 8 codewords fails LOCK. -/
def execPortLockDone (n skew : Nat) (s : State) : Out State :=
  hubOnly (fun s =>
    let p := portGet s n
    if n ≥ 26 ∨ stageOf p ≠ .lock ∨ lanesMissing p ≠ 0 then s
    else if 8 < skew ∨ 8 < counterSkew p then stageFail s n 0x0404 [255]
    else
      let s := if p.state = .recover then s else grantNow s n
      let s := toStage (portSet s n { (portGet s n) with lanes := 255, neg := none, negSame := 0, negAcked := false }) n .negotiate
      s.emit (.block n (negBlock s n))) s
def execPortNegotiateDone (n : Nat) (s : State) : Out State := hubOnly (fun s => if n < 26 then negotiateDone s n else s) s
/-- A bring-up stage exceeded its bound; `lanes` names the lanes that failed (Table 06-1). -/
def execPortStageTimeout (n lanes : Nat) (s : State) : Out State :=
  hubOnly (fun s =>
    let p := portGet s n
    if n ≥ 26 then s else
    match p.state with
    | .detect => portFail (s.upTo (p.since + ms 100)) n 0x0404 [lanes]
    | .train => portFail (s.upTo (p.since + ms 20)) n 0x0404 [lanes]
    | .lock => portFail (s.upTo (p.since + ms 1)) n 0x0404 [lanes]
    | .negotiate => portFail (s.upTo (p.since + ms 1)) n 0x0405 []
    | _ => s) s
def execPortDownWait (n : Nat) (s : State) : Out State :=
  hubOnly (fun s => let p := portGet s n
    if n < 26 ∧ p.state = .down ∧ s.flag (F.FAB_PORT_CTL_EN n) ∧ mayEnable s n then portEnter (s.upTo (p.since + ms 100)) n .detect else s) s
/-- FAB_LINK_CTL.HOLD has passed in RECOVER. -/
def execRecoverTimeout (n : Nat) (s : State) : Out State :=
  hubOnly (fun s => let p := portGet s n
    if n < 26 ∧ p.state = .recover then portLost (s.upTo (p.since + ms (s.fld F.FAB_LINK_CTL_HOLD))) n .down else s) s
def execLaneLockLost (n lane : Nat) (s : State) : Out State := hubOnly (fun s => if n < 26 ∧ lane < 8 then recoverOwn s n else s) s
def isUp (p : Port) : Bool := p.state == .up
def execRetrain (n : Nat) (b : List Byte) (s : State) : Out State := hubOnly (fun s => withBlock n 0x55 isUp b (fun s => recover s n) s) s
/-- IDLE: acknowledgement and cumulative credits (R196, R200). -/
def execIdleBlock (n : Nat) (b : List Byte) (s : State) : Out State :=
  hubOnly (withBlock n 0x1E isUp b (fun s =>
      let p := ackPort (portGet s n) (getLE b 1 2 % 4096)
      portSet s n { p with returned := (List.range 4).map (fun v => getLE b (4 + 2 * v) 2) })) s
/-- NAK: resend from the named cell; too many replays of one cell, or too many NAKs, recover the port (R188, R198). -/
def execNak (n : Nat) (b : List Byte) (s : State) : Out State :=
  hubOnly (withBlock n 0x2D isUp b (fun s =>
      let p := ackPort (portGet s n) (getLE b 1 2 % 4096)
      let naks := s.time :: p.naks.filter (fun t => s.time < t + ms 1)
      let s := resend ((portSet s n { p with naks := naks }).bump (F.FAB_PORT_ERR_REPLAYS n)) n
      if (portGet s n).replay.any (fun e => s.fld F.FAB_LINK_CTL_NAK_LIMIT ≤ e.2) ∨ 16 ≤ naks.length then recoverOwn s n else s)) s
/-- LANE: a lane's number and codeword counter (R186). -/
def execLaneBlock (n : Nat) (b : List Byte) (s : State) : Out State :=
  hubOnly (withBlock n 0x33 (fun p => stageOf p == .lock) b (fun s =>
      let p := portGet s n
      let l := getLE b 1 1
      if l < 8 then portSet s n { p with lanesSeen := (l, getLE b 4 4) :: p.lanesSeen.filter (fun e => e.1 != l), lanes := p.lanes ||| 2 ^ l } else s)) s
/-- NEG: counted while it agrees with the one before, and answered (R187). -/
def execNegBlock (n : Nat) (b : List Byte) (s : State) : Out State :=
  hubOnly (withBlock n 0x4B (fun p => stageOf p == .negotiate) b (fun s =>
      match negOf b with
      | none => s
      | some g =>
        let p := portGet s n
        let same := match p.neg with | some o => sameNeg o g | none => false
        let s := portSet s n { p with neg := some g, negSame := if same then p.negSame + 1 else 1, negAcked := (same && p.negAcked) || g.acked }
        s.emit (.block n (negBlock s n)))) s
/-- A NAK naming the expected cell (R197). -/
def sendNak (s : State) (n : Nat) : State := s.emit (.block n (ctlBlock (natLe 1 0x2D ++ natLe 2 (portGet s n).rxNext)))
/-- A cell that arrives corrupt: discarded, counted, and asked for again (R197). -/
def cellFail (s : State) (n : Nat) : State :=
  sendNak (portSet (s.bump (F.FAB_PORT_ERR_CRC_ERR n)) n { (portGet s n) with nakWait := true }) n
/-- A lane's codeword at the receiver: corrected symbols are counted in FAB_PORT_FEC_n; one that cannot be corrected is a cell error
for the cells that have blocks in it (R184). No row of the table carries a codeword: its cells come by their own rows, and a failed
one as CELL_CRC_FAIL (log 108). -/
def codewordTake (s : State) (n : Nat) (w : List Nat) : Option (List Nat) × State := match rsCorrect w with
  | some (w, k) => (some w, s.bump (F.FAB_PORT_FEC_CORRECTED n) k)
  | none => (none, cellFail s n)
def execCellCrcFail (n : Nat) (s : State) : Out State := hubOnly (fun s => if n < 26 ∧ portUp s n then cellFail s n else s) s
def execNakRepeat (n : Nat) (s : State) : Out State :=
  hubOnly (fun s => if n < 26 ∧ portUp s n ∧ (portGet s n).nakWait then sendNak s n else s) s
def execCellEgress (q : Nat) (s : State) : Out State := hubOnly (fun s => egressCell s q) s
/-- R194 for a cell that breaks its form; a cell that keeps it is not this row's. -/
def execFabBadCell (inp : Nat) (c : Cell) (s : State) : Out State :=
  hubOnly (fun s => match ingress s inp c with | (none, s') => s' | (some _, _) => s) s

end Sys2Proof.Machine
end

