-- ==== Sys2Proof/Machine/Sched.lean ====
section
/-! DEFINITION. Machine/Sched.lean: schedule images, admission, job commands, the dispatch and the end of steps, and engine work in
unreserved time (spec/01 R38 to R58, spec/03 R99, spec/15 R566). -/

namespace Sys2Proof.Machine

open Sys2Proof

/-! ### Reading an image (R562) -/

/-- One byte-path load of a range within a tile, made for a tenant: its status and bytes. It is the hub's own, so no lease binds it
(log 56, DEDUCED). -/
def loadIn (s : State) (ten va n req : Nat) : (Nat × List Byte) × State :=
  match check3 s ten va 0 true false false with
  | .pass va =>
    let (st, t) := xlate s ten va Need.r none
    let l := tileId s t.tile
    if st ≠ St.ok then ((st, []), s)
    else if !keyOk (tileGet s l) t.ten t.key then ((St.key, []), s)
    else
      let (ok, s) := eccRead s l { word := req }
      if !ok then ((St.checksum, []), s)
      else
        let (st, d) := byteRead s l t.off n
        ((st, d), if st = St.ok then touch (slowUse s l).2 l else s)
  | _ => ((St.unmapped, []), s)
/-- Bytes [va, va + n) loaded tile by tile. -/
def loadBytes (s : State) (ten va n req : Nat) : (Nat × List Byte) × State :=
  (List.range ((va + n - 1) / 65536 + 1 - va / 65536)).foldl (fun r i =>
    if r.1.1 ≠ St.ok then r
    else
      let a := max va ((va / 65536 + i) * 65536)
      let e := min (va + n) ((va / 65536 + i + 1) * 65536)
      let ((st, d), s) := loadIn r.2 ten a (e - a) req
      if st = St.ok then ((st, r.1.2 ++ slice d 0 (e - a)), s) else ((st, []), s)) ((St.ok, []), s)
/-- The header's image length, then the image. -/
def loadImage (s : State) (ten va req : Nat) : (Nat × List Byte) × State :=
  let ((st, h), s) := loadBytes s ten va 128 req
  if st ≠ St.ok then ((st, []), s)
  else
    let n := getLE h 56 4
    if n < 128 ∨ 1073741824 < n then ((St.ok, h), s) else loadBytes s ten va n req

/-! ### Parsing and checks (R38 to R46) -/

/-- The step table: descriptors one after another, each on an 8-byte boundary (R43). -/
def parseSteps (d : List Byte) : Nat → Nat → Option (List (List Byte))
  | 0, _ => some []
  | n + 1, off =>
    let len := 16 + getLE d (off + 4) 4
    if d.length < off + 16 ∨ d.length < off + len then none
    else (parseSteps d n (off + (len + 7) / 8 * 8)).map (slice d off len :: ·)
def parseRes (d : List Byte) (o : Nat) : Resv := { cls := getLE d o 1, inst := getLE d (o + 1) 1, amount := getLE d (o + 4) 4 }
def parseSlot (d : List Byte) (o : Nat) : SlotE :=
  { tick := getLE d o 4, cls := getLE d (o + 4) 1, inst := getLE d (o + 5) 1, phase := getLE d (o + 8) 2, start := getLE d (o + 10) 2, fin := getLE d (o + 12) 2, step := getLE d (o + 16) 4 }
def imageOf (d : List Byte) (steps : List (List Byte)) : Image :=
  let tab := fun {α : Type} (off n size : Nat) (f : Nat → α) => (List.range n).map (fun i => f (off + size * i))
  { level := getLE d 6 2, tenant := getLE d 8 2, members := getLE d 10 2, index := getLE d 12 2, period := getLE d 16 4, pro := getLE d 20 4, body := getLE d 24 4, epi := getLE d 28 4, repeats := getLE d 32 4, seed := getLE d 48 8,
    res := tab (getLE d 60 4) (getLE d 36 4) 8 (parseRes d), slots := tab (getLE d 64 4) (getLE d 40 4) 24 (parseSlot d), steps := steps,
    phases := tab (getLE d 72 4) (getLE d 76 4) 8 (fun o => { phase := getLE d o 2, layer := getLE d (o + 2) 2, pkind := getLE d (o + 4) 1 }),
    memberIds := tab (getLE d 80 4) (getLE d 10 2) 2 (fun o => getLE d o 2) }
/-- Instances of a reservation class (Table 01-4). -/
def resInsts (c : Nat) : Nat := if c = 1 then 16 else if c = 2 then 8 else if c = 3 then 4 else if c = 4 then 1 else if c = 0x10 then 26 else if c = 0x11 then 2
  else if c = 0x12 then 8 else if c = 0x13 then 16 else if c = 0x20 then 1 else 0
def resAmountOk (r : Resv) : Bool :=
  if r.cls ≤ 3 then decide (r.amount / 65536 < r.amount % 65536) && r.amount % 65536 ≤ 1024 else if r.cls = 0x20 then true else r.amount ≤ 1024
/-- Check 1: the header and tables; the image. -/
def imageParse (d : List Byte) (ten : Nat) : Option Image :=
  let n := d.length
  let tabOk := fun (off count size : Nat) => off % 8 == 0 && off + count * size ≤ n
  let within := fun (x lo hi : Nat) => lo ≤ x && x ≤ hi
  let rc := getLE d 36 4
  let sc := getLE d 40 4
  let tc := getLE d 44 4
  let pc := getLE d 76 4
  let mc := getLE d 10 2
  if getLE d 0 4 ≠ 0x4843535A ∨ getLE d 4 2 ≠ 1 ∨ getLE d 56 4 ≠ n ∨ crc64 (patch d 120 (List.replicate 8 0)) ≠ getLE d 120 8 ∨ getLE d 8 2 ≠ ten
    ∨ !(within mc 1 1024 && getLE d 12 2 < mc && within (getLE d 20 4) 0 65536 && within (getLE d 24 4) 1 65536 && within (getLE d 28 4) 0 65536 && 1 ≤ getLE d 32 4
        && within rc 1 4096 && within sc 1 1048576 && within tc 1 1048576 && pc ≤ 65534
        && tabOk (getLE d 60 4) rc 8 && tabOk (getLE d 64 4) sc 24 && tabOk (getLE d 68 4) tc 16 && tabOk (getLE d 72 4) pc 8 && tabOk (getLE d 80 4) mc 2) then none
  else match parseSteps d tc (getLE d 68 4) with
    | none => none
    | some steps =>
      let g := imageOf d steps
      let resOk := (List.range rc).all (fun i => getLE d (getLE d 60 4 + 8 * i + 2) 2 == 0) && g.res.all (fun r => r.inst < resInsts r.cls && resAmountOk r)
      let phOk := g.phases.all (fun p => p.phase != 0 && p.phase != 0xFFFF && 1 ≤ p.pkind && p.pkind ≤ 7) && (g.phases.map PhaseE.phase).eraseDups.length == g.phases.length
      if resOk && phOk && g.memberIds.all (· < 4096) then some g else none
def kindClass (k : Nat) : Nat := if 1 ≤ k ∧ k ≤ 4 then 1 else if k = 0x10 ∨ k = 0x11 then 2 else if k = 0x20 then 3 else if k = 0x30 then 4 else 0
/-- Check 5 for one slot. -/
def slotOk (s : State) (g : Image) (x : SlotE) : Bool :=
  x.tick < g.pro + g.body + g.epi && 1 ≤ x.cls && x.cls ≤ 4 && x.inst < resInsts x.cls && x.start < x.fin && x.fin ≤ 1024
  && (if x.cls = 4 then g.res.any (fun r => r.cls == 4 && 0 < r.amount) && x.phase != 0
      else g.res.any (fun r => r.cls == x.cls && r.inst == x.inst && r.amount / 65536 ≤ x.start && x.fin ≤ r.amount % 65536))
  && s.fld F.TICK_GUARD_GUARD ≤ g.period * x.start / 1024
  && x.phase != 0xFFFF && (x.phase == 0 || g.phases.any (fun p => p.phase == x.phase))
  && (match g.steps[x.step]? with | some d => kindClass (getLE d 0 1) == x.cls && getLE d 1 1 == 1 | none => false)
def slotsOk (s : State) (g : Image) : Bool :=
  g.slots.all (slotOk s g)
  && (List.range g.slots.length).all (fun i => match g.slots[i]? with
    | none => true
    | some x => (g.slots.take i).all (fun y => y.tick != x.tick || y.cls != x.cls || y.inst != x.inst || !overlaps x.start (x.fin - x.start) y.start (y.fin - y.start)))
/-- R46. -/
def resFits (s : State) (g : Image) : Bool :=
  let held := heldRes s
  g.res.all (fun r =>
    if r.cls ≤ 3 then held.all (fun h => h.cls != r.cls || h.inst != r.inst || !overlaps (r.amount / 65536) (r.amount % 65536 - r.amount / 65536) (h.amount / 65536) (h.amount % 65536 - h.amount / 65536))
    else
      let sum := ((held ++ g.res).filter (fun h => h.cls == r.cls && h.inst == r.inst)).foldl (fun n h => n + h.amount) 0
      sum ≤ (if r.cls = 0x20 then 15728640 else 960))
/-- Checks 1, 2 and 4 to 7 in order: the status, and the image with OK. `hub` is the member at INDEX (check 4, R460). -/
def judgeImage (s : State) (ten hub : Nat) (d : List Byte) : Nat × Option Image :=
  match imageParse d ten with
  | none => (St.badDesc, none)
  | some g =>
    if g.level ≠ s.sup.level ∨ g.period ≠ s.fld F.TICK_PERIOD_BASE then (St.badDesc, none)
    else if g.memberIds[g.index]? ≠ some hub then (St.badDesc, none)
    else if !slotsOk s g then (St.badDesc, none)
    else if 32 ≤ (jobSlots.filter (fun j => (jobGet s j).state != .idle || (jobGet s j).clearing.isSome)).length then (St.busy, none)
    else if !resFits s g then (St.busy, none)
    else (St.ok, some g)
/-- Check 3 (R45). -/
def admitTenant (s : State) (ten : Nat) : Nat := match (tenantGet s ten).state with | .on => St.ok | .off => St.badDesc | _ => St.quiescing
/-- Read and judge an image for a tenant. -/
def readImageAs (s : State) (hub ten va req : Nat) : (Nat × Option Image) × State :=
  if admitTenant s ten ≠ St.ok then ((admitTenant s ten, none), s)
  else
    let ((st, d), s) := loadImage s ten va req
    (if st ≠ St.ok then (st, none) else judgeImage s ten hub d, s)
def readImage (s : State) (ten va req : Nat) : (Nat × Option Image) × State := readImageAs s s.hubId ten va req
def idleSlot (s : State) : Option Nat := jobSlots.find? (fun j => (jobGet s j).state == .idle && (jobGet s j).clearing.isNone)

/-! ### Admission and room clearing (R45, R47, R99) -/

def roomOver (s : State) : Bool := nearSlots - roomHeld s < roomUnsched s
/-- Unscheduled near tiles beyond the limit. -/
def roomExcess (s : State) : Nat := roomUnsched s - (nearSlots - roomHeld s)
/-- Demotions of the unscheduled pool whose copy has begun. -/
def demoting (s : State) : Nat := (s.st.copies.filter (fun c => !c.promote && c.job.isNone)).length
/-- Victims are queued, in their order, until those on their way out make up the excess (log 50, DEDUCED). -/
def clearMore : Nat → State → State
  | 0, s => s
  | n + 1, s => if roomExcess s ≤ (leaving s).length then s else match pickVictim s with
    | some v => clearMore n (queueMove s { tile := v, promote := false })
    | none => s
/-- Room clearing goes on while some admission waits for it. -/
def clearGo (s : State) : State := if jobSlots.any (fun j => (jobGet s j).clearing.isSome) then clearMore (roomExcess s) s else s
/-- Clearing has failed: no far slot is free for the next victim, or no tile may be one (R99). -/
def clearFailed (s : State) : Bool :=
  decide (demoting s < roomExcess s) && ((chooseSlot s 0 true 255).isNone || ((leaving s).isEmpty && (pickVictim s).isNone))
/-- The job is admitted: its reservations are held. -/
def admitJob (s : State) (j : Nat) (g : Image) : State := jobSet s j { state := .admitted, tenant := g.tenant, image := g, holds := true }
/-- An image that has passed its checks takes its slot; where U is then beyond its limit, the slot waits for room clearing, and HELD
counts its room already (R99; log 50, DESIGN CHOICE). -/
def admitRoom (s : State) (j : Nat) (g : Image) (mb : Mbx) : State :=
  let t := admitJob s j g
  if roomOver t then clearGo (jobSet (s.hold mb) j { tenant := g.tenant, image := g, holds := true, clearing := some mb }) else t.reply mb St.ok (natLe 1 j)
def ldReq (s : State) (mb : Mbx) : Nat := match mb with | .ld i => reqLd s i | _ => reqSys
/-- JOB_ADMIT. -/
def execJobAdmit (mb : Mbx) (va : Nat) (s : State) : Out State :=
  mbxOnly mb (vendor mb .ten (fun s =>
    match readImage s ((mbxTenant s mb).getD 0) va (ldReq s mb), idleSlot s with
    | ((_, some g), s), some j => admitRoom s j g mb
    | ((st, _), s), _ => s.reply mb st)) s
/-! ### Job commands (R50 to R53, R563) -/

/-- A job slot the issuer may name. -/
def jobMine (s : State) (mb : Mbx) (j : Nat) : Bool := j < 32 && (match mbxTenant s mb with | some n => (jobGet s j).state == .idle || (jobGet s j).tenant == n | none => true)
/-- The job is armed for start tick S at a job tick. -/
def armJob (s : State) (j start resume : Nat) : State := jobSet s j { (jobGet s j) with state := .armed, start := start, resume := resume, tick := resume, fault := none, stopAt := none }
/-- The first checkpoint step of an image: its epoch number (R447). -/
def epochBase (g : Image) : Option Nat := (g.steps.find? (fun d => getLE d 0 1 == 4)).map (fun d => getLE d 40 4)
/-- J_E: the first job tick of the body repetition after that of epoch E (R449). -/
def epochTick (g : Image) (e : Nat) : Nat :=
  match epochBase g with
  | some b => min (g.pro + g.body * ((e + 2 ^ 32 - b) % 2 ^ 32 + 1)) (g.pro + g.body * g.repeats)
  | none => 0
/-- The job tick a restart resumes at (R563): with a herd record that of its committed epoch, 0 where none is committed (log 30, DEDUCED). -/
def resumeTick (s : State) (j : Nat) : Nat :=
  if hasHerd s j then (match (herdGet s j).committed with | some e => epochTick (jobGet s j).image e | none => 0) else (jobGet s j).resume
def startCmd (mb : Mbx) (iss : Issuer) (job start : Nat) (restart : Bool) (s : State) : State :=
  vendor mb iss (fun s =>
    let x := jobGet s job
    if s.damp.forced then s.reply mb St.power
    else if !jobMine s mb job ∨ start < s.tk.num + 4 then s.reply mb St.badDesc
    else if x.clearing.isSome then s.reply mb St.badDesc
    else if restart then (if x.state = .faulted then (armJob s job start (resumeTick s job)).reply mb St.ok else s.reply mb St.badDesc)
    else if x.state = .admitted ∨ (x.state = .faulted ∧ !x.everRan) then (armJob s job start (if x.state = .admitted then 0 else x.resume)).reply mb St.ok
    else s.reply mb St.badDesc) s
def execJobStart (mb : Mbx) (job start : Nat) (s : State) : Out State := mbxOnly mb (startCmd mb .ten job start false) s
def execJobRestart (mb : Mbx) (job start : Nat) (s : State) : Out State := mbxOnly mb (startCmd mb .tenSys job start true) s
/-- The herd record of a slot goes. -/
def herdClear (s : State) (j : Nat) : State := { s with herd := { s.herd with herds := smSet (fun _ => {}) s.herd.herds j {}, egress := smSet (fun _ => 0) s.herd.egress j 0 } }
/-- The slot returns to IDLE: reservations, charges, energies, pages, herd record and steps of the job go. -/
def releaseJob (s : State) (j : Nat) : State :=
  let s := (s.seq.steps.filter (fun x => x.job == some j)).foldl (fun s x => x.locks.foldl lockDrop s) s
  let s := phaseClear (unchargeAll (dropJobSteps s j) j) j
  let s := chrnSet s { s.chrn with images := s.chrn.images.filter (fun i => i.job != j), arith := s.chrn.arith.filter (fun e => e.2.1 != j) }
  let start := (jobGet s j).start
  herdClear (jobSet s j { start := start }) j
def execJobRelease (mb : Mbx) (job : Nat) (s : State) : Out State :=
  mbxOnly mb (vendor mb .tenSys (fun s =>
    let x := jobGet s job
    if !jobMine s mb job then s.reply mb St.badDesc
    else match x.state with
      | .idle => s.reply mb St.ok
      | .running =>
        let s := s.hold mb
        let s := if hasHerd s job then raiseFault s job St.aborted 5 else s
        let y := jobGet s job
        jobSet s job { y with release := y.release ++ [mb], stopAt := some (y.stopAt.getD (s.tk.num + 1)) }
      | _ => (releaseJob (match x.clearing with | some m => s.replyBg m St.aborted | none => s) job).reply mb St.ok)) s

/-! ### Engine time (Table 01-4, R566) -/

/-- An engine free for unscheduled work now. -/
def engineFree (s : State) (cls inst : Nat) : Bool :=
  !inReserved s cls inst && !s.seq.steps.any (fun x => x.job.isNone && x.cls == cls && x.inst == inst && !x.waiting && x.kind != 4)
/-- The work of a step by its engine class (log 49, DESIGN CHOICE); a step that meets a tile in cut-over waits for its end (R81). -/
def runStep (s : State) (x : Step) : State :=
  orLater (fun s => if x.cls = 1 then runChurn s x else if x.cls = 2 then runRow s x else if x.cls = 3 then runStrn s x else runPrefetch s x)
    (fun s => stepPut s { x with blocked := true }) s
/-- The engine a waiting step could take now. -/
def engineFor (s : State) (x : Step) : Option Nat := (if x.inst = 255 then List.range (resInsts x.cls) else [x.inst]).find? (engineFree s x.cls)
/-- The arbiter instance of a class's unscheduled work, which no share reserves (Table 08-1). -/
def engArb (cls : Nat) : Nat := 60 + cls
/-- A step's request there, at a cost: the oldest of its tenant first (log 111, DEDUCED). -/
def engRq (s : State) (x : Step) (cost : Nat) : Rq :=
  { top := 1024, slot := x.tenant, inp := x.id, cost := cost, q := { id := x.id, c := cell0 s 0, inp := 0, out := 0, plane := 0 } }
/-- The waiting step of a class that the arbiter starts next; where no deficit has risen to 0 yet, it picks again. -/
def startPick (s : State) (cls : Nat) : Nat → Option Step × State
  | 0 => (none, s)
  | n + 1 =>
    let wait := s.seq.steps.filter (fun x => x.waiting && x.cls == cls)
    let can := wait.filter (fun x => (engineFor s x).isSome)
    if can.isEmpty then (none, s)
    else
      let (r, a) := arbPick s (engArb cls) 65536 (wait.map (engRq s · 0)) (can.map (engRq s · 0))
      let s := arbSet s (engArb cls) a
      match r.bind (fun r => can.find? (fun x => x.id == r.q.id)) with
      | some x => (some x, s)
      | none => startPick s cls n
/-- Waiting steps of a class take engines that have become idle. -/
def startClass (cls : Nat) : Nat → State → State
  | 0, s => s
  | n + 1, s => match startPick s cls 4096 with
    | (none, s) => s
    | (some x, s) =>
      let x := { x with waiting := false, inst := (engineFor s x).getD 0, start := s.time }
      startClass cls n (runStep (stepPut s x) x)
/-- Waiting steps take engines that have become idle, the tenants by their weights (R244, R246). -/
def startWaiting (s : State) : State :=
  if s.damp.forced then s else [1, 2, 3].foldl (fun s c => startClass c (s.seq.steps.filter (fun x => x.waiting && x.cls == c)).length s) s
/-- An unscheduled step is charged at completion, for the ENG cycles it held its engine (R246). -/
def chargeStep (s : State) (x : Step) : State := arbCharge s (engArb x.cls) (engRq s x ((s.time - x.start) * 5))
/-- Work that waited for agents to give lines back (R274), for the end of a cut-over (R81) or for a lock (R121) goes on. -/
def wake (s : State) : State :=
  let s := winApply (fenceGo s)
  let s := (s.seq.steps.filter (fun x => x.blocked)).foldl (fun s x => match stepGet s x.id with
    | some x => if x.kind = 1 ∧ x.cls = 1 then convFrames s x.id else runStep (stepPut s { x with blocked := false }) { x with blocked := false }
    | none => s) s
  let s := s.chrn.asms.foldl asmTry s
  prefGo ((s.chrn.posts.filter (fun p => p.asked)).foldl postConvert s)
/-- The cut-over of a tile has ended: what waited for it goes on, the requests held first, in their order (R113, R114). -/
def cutEnd (s : State) : State := clearGo (startWaiting (retryVn2 (wake (pump s))))
def execCsnpRsp (inp : Nat) (c : Cell) (s : State) : Out State :=
  hubOnly (arriveHere (fun c s => if c.ty = 0x4A then wake (csnpRsp c s) else s) inp c) s
def execBirsp (ld dpa : Nat) (k : BiRsp) (s : State) : Out State := hubOnly (fun s => wake (birsp ld dpa k s)) s

/-- SLOT_DISPATCH: a slot of the current image tick, at its start (R42). -/
def execSlotDispatch (job slot : Nat) (ups : List Upset) (s : State) : Out State :=
  hubOnly (fun s =>
    let x := jobGet s job
    let s := withUps s ups
    match x.image.slots[slot]?, x.image.slots[slot]?.bind (fun e => x.image.steps[e.step]?) with
    | some e, some d =>
      if x.state ≠ .running ∨ imageTick x.image x.tick ≠ some e.tick ∨ s.seq.dispatched.contains (job, slot) then s
      else
        let s := s.upTo (s.tk.start + unitAt s e.start)
        if s.tk.start + unitAt s e.fin ≤ s.time then s
        else
          let s := { s with seq := { s.seq with dispatched := (job, slot) :: s.seq.dispatched, steps := s.seq.steps.map (fun y => if y.job.isNone ∧ y.cls = e.cls ∧ y.inst = e.inst ∧ !y.waiting then { y with suspended := true } else y) } }
          let s := jobSet s job { x with phase := e.phase }
          let y : Step := { id := 0, job := some job, tenant := x.tenant, slot := slot, kind := getLE d 0 1, cls := e.cls, inst := e.inst, phase := e.phase, layer := ((x.image.phases.find? (fun p => p.phase == e.phase)).map PhaseE.layer).getD 0, imgTick := e.tick, flags := getLE d 2 2, body := d.drop 16, start := s.time, deadline := s.tk.start + unitAt s e.fin, seed := x.image.seed, rep := bodyRep x.image x.tick, expect := getLE d 8 4 }
          let (id, s) := stepAdd s (strnBind s (rowBind s y))
          match stepGet s id with | some y => runStep s y | none => s
    | _, _ => s) s
/-- A scheduled step has overrun: the engine stops it, and the overrun of a herd's job is flooded at its detection (R56, R57, R442). -/
def overrunStep (s : State) (x : Step) : State :=
  let s := movesEnd (x.locks.foldl lockDrop s) [x.id]
  let j := x.job.getD 0
  let s := { s with seq := { s.seq with overran := s.seq.overran ++ [(j, x.slot, x.imgTick, x.phase, x.cls, x.inst)] } }
  let s := stepDrop (txnsEnd s [x.id]) x.id
  if hasHerd s j ∧ !(herdGet s j).active then raiseFault s j St.overrun 1 else s
/-- Checkpoint slots of one body repetition that copy for the epoch of a copy with this EPOCH field. -/
def epochCopies (g : Image) (field : Nat) : Nat :=
  (g.slots.filter (fun e => g.pro ≤ e.tick && e.tick < g.pro + g.body && (match g.steps[e.step]? with | some d => getLE d 0 1 == 4 && getLE d 40 4 == field | none => false))).length
/-- A checkpoint copy of a herd's member has completed with OK; with the last one of its epoch the leader is told (R449). -/
def epochStep (s : State) (j : Nat) (x : Step) : State :=
  let h := herdGet s j
  if x.kind ≠ 4 ∨ h.state = 0 ∨ h.active then s
  else
    let e := (ckptOf x).epoch
    let n := ((h.copies.find? (fun c => c.1 == e)).map Prod.snd).getD 0 + 1
    let s := herdSet s j { h with copies := h.copies.filter (fun c => c.1 != e) ++ [(e, n)] }
    if n = epochCopies (jobGet s j).image (getLE x.body 24 4) then (match leaderOf h with | some m => herdSend s j m.hub 0x02 0 e 0 0 0 0 | none => s) else s
/-- Every input the step's EXPECT asks for has arrived; a reduction counts its own in its frames (R56). -/
def inputsIn (x : Step) : Bool := x.kind == 1 || decide (x.expect ≤ x.got)
/-- The work a step started outside its engine has ended: a prefetch's copies (R119), a multicast's cells, which have left egress
(R172). -/
def workOver (s : State) (x : Step) : Bool :=
  if x.kind = 0x30 then prefDone s x.id
  else if x.kind = 3 then !((s.fab.voq ++ s.fab.egress).map QCell.id ++ s.fab.unsent.map Unsent.id).any (fun id => x.aux.getD 0 0 ≤ id && id < x.aux.getD 1 0)
  else true
/-- STEP_COMPLETE, with the engine's measured energy (R56, R470). -/
def execStepComplete (step energy : Nat) (s : State) : Out State :=
  hubOnly (fun s => match stepGet s step with
    | none => s
    | some x =>
      if !(x.done || x.kind == 0x30) ∨ x.waiting ∨ x.suspended ∨ x.blocked ∨ !inputsIn x ∨ !workOver s x then s
      else match x.job with
        | none => startWaiting (endUnsched (chargeStep s x) x)
        | some j =>
          let s := phaseLearn s j x.phase x.cls energy
          -- cells held back for the step are strays from now on (R160)
          retryVn2 (if x.deadline ≤ s.time then overrunStep s x
            else if x.status ≠ St.ok then stepFail s x x.status (failClass x.status)
            else epochStep (x.locks.foldl lockDrop (stepDrop s x.id)) j x)) s
/-- STEP_DEADLINE: the end of the slot (R56). -/
def execStepDeadline (step energy : Nat) (s : State) : Out State :=
  hubOnly (fun s => match stepGet s step with
    | none => s
    | some x => match x.job with
      | none => s
      | some j => let s := s.upTo x.deadline; retryVn2 (overrunStep (phaseLearn s j x.phase x.cls energy) x)) s
/-- ENGINE_INTERVAL_END: frames and pail images of the job on the engine go (R152); a frame already written is no more than its
record. -/
def execEngineIntervalEnd (cls inst job : Nat) (s : State) : Out State :=
  hubOnly (fun s =>
    let s := if cls ≠ 1 then s else
      stepsSet (chrnSet s { s.chrn with images := s.chrn.images.filter (fun i => !(i.eng == inst && i.job == job)) })
        (s.seq.steps.map (fun x => if x.cls = 1 ∧ x.inst = inst ∧ x.job = some job then { x with frames := x.frames.filter Frame.done } else x))
    startWaiting s) s
def bodyLen (k : Nat) : Nat := if k = 0x10 then 64 else if k = 0x11 then 104 else if k = 0x20 then 40 else 24
/-- ENG_SUBMIT (R566). -/
def execEngSubmit (mb : Mbx) (cls inst : Nat) (desc : List Byte) (ups : List Upset) (s : State) : Out State :=
  mbxOnly mb (vendor mb .ten (fun s =>
    let s := withUps s ups
    let k := getLE desc 0 1
    if s.damp.forced then s.reply mb St.power
    else if (cls ≠ 2 ∧ cls ≠ 3) ∨ (inst ≠ 255 ∧ resInsts cls ≤ inst) ∨ !(if cls = 2 then k == 0x10 || k == 0x11 else 0x20 ≤ k && k ≤ 0x23)
      ∨ getLE desc 1 1 ≠ 1 ∨ getLE desc 8 4 ≠ 0 ∨ getLE desc 4 4 ≠ bodyLen k ∨ desc.length ≠ 16 + bodyLen k then s.reply mb St.badDesc
    else
      let b := desc.drop 16
      let x : Step := { id := 0, mb := some mb, tenant := (mbxTenant s mb).getD 0, kind := k, cls := cls, inst := if 0x21 ≤ k then getLE b 0 2 % 4 else inst, flags := getLE desc 2 2, body := b, start := s.time, seed := if k = 0x11 then (scatOf b).seed else 0, rep := if k = 0x11 then (scatOf b).step else 0, waiting := true }
      startWaiting (stepAdd (s.hold mb) (strnBind s (rowBind s x))).2)) s
/-- ENG_STEP_SUSPEND: a reserved interval of the engine begins. -/
def execEngStepSuspend (step : Nat) (s : State) : Out State :=
  hubOnly (fun s => match stepGet s step with
    | some x => if x.job.isNone ∧ !x.waiting then stepPut s { x with suspended := true } else s
    | none => s) s
/-- ENG_STEP_RESUME: the interval has ended. -/
def execEngStepResume (step : Nat) (s : State) : Out State :=
  hubOnly (fun s => match stepGet s step with
    | some x => if x.suspended ∧ !inReserved s x.cls x.inst then stepPut s { x with suspended := false } else s
    | none => s) s

end Sys2Proof.Machine
end

