-- ==== Sys2Proof/Machine/Leases.lean ====
section
/-! DEFINITION. Machine/Leases.lean: extents: their commands, leases and embers, fences, drains and release (spec/14 R384 to R395,
R206). -/

namespace Sys2Proof.Machine

open Sys2Proof

/-! ### CXL event records (R387, R424) -/

/-- An event record is logged for a mailbox: log 4 is the Dynamic Capacity log (log 31, PRESUMED). -/
def eventLog (s : State) (key log : Nat) (d : List Byte) : State :=
  let h := s.host.nextHandle
  { s with host := { s.host with nextHandle := h % 65535 + 1, events := s.host.events ++ [(key, log, h, d)] } }
/-- Dynamic capacity event: 0 add, 2 forced release, with its device physical address and length. -/
def dcEvent (s : State) (i ty : Nat) : State :=
  let x := extGet s i
  let ld := x.holder % 16
  eventLog s ld 4 (natLe 1 ty ++ natLe 8 (x.start - s.fld (F.HOST_LD_MAP_VABASE ld)) ++ natLe 8 x.len ++ natLe 4 (leaseId i x))

/-! ### Creation and release by command (R385, R392) -/

def rangesMeet (a n b m : Nat) : Bool := overlaps a n b m
/-- The range overlaps a composition piece of the tenant, in force or to come. -/
def meetsPiece (s : State) (ten a n : Nat) : Bool :=
  (s.ext.pieces ++ s.ext.next).any (fun e => e.2.state != 0 && e.2.tenant == ten && rangesMeet a n e.2.va (65536 * e.2.tiles))
/-- A DCD extent lies within its holder's Dynamic Capacity region (R385, R415). -/
def dcdOk (s : State) (x : ExtFields) : Bool :=
  let ld := x.holder % 16
  let base := s.fld (F.HOST_LD_MAP_VABASE ld)
  let b := s.fld (F.HOST_LD_DC_DC_BASE ld) * 65536
  x.start % 65536 == 0 && x.len % 65536 == 0 && x.holder / 2 ^ 28 == 3 && base ≤ x.start && b ≤ x.start - base
  && x.start - base + x.len ≤ b + s.fld (F.HOST_LD_DC_DC_LEN ld) * 65536
def extAddOk (s : State) (x : ExtFields) : Bool :=
  x.flags < 4 && x.tenant < 512 && 1 ≤ x.len && x.start + x.len ≤ 2 ^ 52 && (x.holder / 2 ^ 28 == 2 || x.holder / 2 ^ 28 == 3) && x.rights < 8
  && (x.period == 0 || (10000 ≤ x.period && x.period ≤ 60000000))
  && !s.ext.exts.any (fun e => e.2.state != 0 && e.2.tenant == x.tenant && e.2.holder == x.holder && rangesMeet x.start x.len e.2.start e.2.len)
  && !meetsPiece s x.tenant x.start x.len && (!bitOf x.flags 1 || dcdOk s x)
/-- EXT_ADD: the lowest FREE extent (log 53, DEDUCED). -/
def execExtAdd (mb : Mbx) (x : ExtFields) (s : State) : Out State :=
  mbxOnly mb (vendor mb .sys (fun s =>
    if !extAddOk s x then s.reply mb St.badDesc
    else match (List.range 16384).find? (fun i => (extGet s i).state == 0) with
      | none => s.reply mb St.busy
      | some i =>
        let dcd := bitOf x.flags 1
        let e : Ext := { state := if dcd then 1 else 2, zero := bitOf x.flags 0, dcd := dcd, tenant := x.tenant, gen := (extGet s i).gen, start := x.start, len := x.len, holder := x.holder, rights := x.rights, period := if x.period = 0 then s.fld F.EXT_CTL_PERIOD else x.period, renewed := if dcd then 0 else s.time, offered := s.time }
        let s := extSet s i e
        let s := if dcd then dcEvent s i 0 else s
        s.reply mb St.ok (natLe 4 (leaseId i e)))) s
/-- The release path started by command: locks first (R392), all or none (log 54, DEDUCED). -/
def releaseCmd (s : State) (i : Nat) (mb : Option Mbx) : Nat × State :=
  let x := extGet s i
  let ts := extTiles s x
  if x.zero ∧ ts.any (collTile s) then (St.busy, s)
  else
    let (st, ids, s) := lockRuns s .zeroise (tileRuns ts)
    if st ≠ St.ok then (st, s) else (St.ok, fence s i s.time false ids mb)
/-- The extent a command may release. -/
def leaseFor (s : State) (lease : Nat) (own : Option Nat) : Option Nat :=
  match leaseExt s lease with
  | some i => let x := extGet s i; if 1 ≤ x.state ∧ x.state ≤ 3 ∧ (own.isNone ∨ own = some x.holder) then some i else none
  | none => none
def execExtRevoke (mb : Mbx) (lease : Nat) (s : State) : Out State :=
  mbxOnly mb (vendor mb .sys (fun s => match leaseFor s lease none with
    | none => s.reply mb St.badDesc
    | some i =>
      let dcd := (extGet s i).dcd
      let (st, s) := releaseCmd s i none
      (if st = St.ok ∧ dcd then dcEvent s i 2 else s).reply mb st)) s
def execExtRelease (mb : Mbx) (lease : Nat) (s : State) : Out State :=
  mbxOnly mb (vendor mb .ten (fun s => match leaseFor s lease (some (ldReq s mb)) with
    | none => s.reply mb St.badDesc
    | some i => let (st, s) := releaseCmd s i none; s.reply mb st)) s

/-! ### CXL dynamic capacity (R387) -/

/-- An LD's DCD extents in a state. -/
def dcdExts (s : State) (ld st : Nat) : List (Nat × Ext) := s.ext.exts.filter (fun e => e.2.dcd && e.2.state == st && e.2.holder == reqLd s ld)
def extDpa (s : State) (ld : Nat) (x : Ext) : Nat := x.start - s.fld (F.HOST_LD_MAP_VABASE ld)
/-- An offer ends without acceptance. -/
def offerLapse (s : State) (i : Nat) : State :=
  let x := extGet s i
  (extSet s i { gen := x.gen }).notice 0x0805 [leaseId i x] x.tenant
/-- ADD_DC_RESPONSE: the offers named become LIVE, the others are rejected. -/
def execAddDcResponse (ld : Nat) (accepted : List DcRange) (s : State) : Out State :=
  hubOnly (cxlCmd (.ld ld) (fun s =>
    let off := dcdExts s ld 1
    let named := fun (x : Ext) => accepted.any (fun r => r.dpa == extDpa s ld x && r.len == x.len)
    if !accepted.all (fun r => off.any (fun e => r.dpa == extDpa s ld e.2 && r.len == e.2.len)) then s.cxl (.ld ld) .invalidInput
    else
      let s := off.foldl (fun s e => if named e.2 then extSet s e.1 { e.2 with state := 2, renewed := s.time } else offerLapse s e.1) s
      s.cxl (.ld ld) .success)) s
/-- RELEASE_DC: completes when the extent becomes FREE. -/
def execReleaseDc (ld : Nat) (r : DcRange) (s : State) : Out State :=
  hubOnly (cxlCmd (.ld ld) (fun s =>
    match (dcdExts s ld 2 ++ dcdExts s ld 3).find? (fun e => r.dpa == extDpa s ld e.2 && r.len == e.2.len) with
    | none => s.cxl (.ld ld) .invalidInput
    | some e =>
      let (st, s) := releaseCmd s e.1 (some (.ld ld))
      if st = St.ok then s.hold (.ld ld) else s.cxl (.ld ld) .busy)) s
/-- EXT_OFFER_LAPSED: no response within OFFER ms. -/
def execExtOfferLapsed (i : Nat) (s : State) : Out State :=
  hubOnly (fun s => if (extGet s i).state = 1 then offerLapse (s.upTo ((extGet s i).offered + ms (s.fld F.EXT_CTL_OFFER))) i else s) s

/-! ### Leases (R388 to R391) -/

/-- The first tick whose boundary is at or after an instant (R388). -/
def firstTickAt (s : State) (t : Nat) : Nat :=
  match (List.range 64).find? (fun i => t ≤ tickTime s (s.tk.num + i)) with
  | some i => s.tk.num + i
  | none =>
    let l := max 1 (lenAt s (s.tk.num + 64))
    s.tk.num + 63 + (t - tickTime s (s.tk.num + 63) + l - 1) / l
/-- A renewal of one extent (Table 14-2): its status, and the state. -/
def renewOne (s : State) (i req seq : Nat) : Nat × State :=
  let x := extGet s i
  if x.holder ≠ req ∨ (x.state ≠ 2 ∧ x.state ≠ 3) then (St.lease, s)
  else if !seqLater seq x.seq then (St.ok, s)
  else if 4 * (s.time - x.renewed) < x.p then (St.busy, s)
  else (St.ok, extSet s i { x with renewed := s.time, seq := seq, state := 2 })
/-- A renewal of a lease, or of every lease of a holder: status, PERIOD and EXPIRES (R389) (log 55, DEDUCED). -/
def renew (s : State) (ten req lease seq : Nat) : (Nat × Nat × Nat) × State :=
  let is := if lease = 0xFFFFFFFF then (s.ext.exts.filter (fun e => e.2.state != 0 && e.2.tenant == ten && e.2.holder == req)).map Prod.fst
    else match leaseExt s lease with
      | some i => if (extGet s i).tenant = ten ∧ (extGet s i).holder = req then [i] else []
      | none => []
  let r := is.foldl (fun (r : List Nat × State) i => let (st, s) := renewOne r.2 i req seq; (r.1 ++ [st], s)) ([], s)
  let s := r.2
  let live := is.filter (fun i => (extGet s i).state == 2 || (extGet s i).state == 3)
  let period := live.foldl (fun (p : Option Nat) i => some (match p with | some p => min p (extGet s i).period | none => (extGet s i).period)) none
  let exp := live.foldl (fun (p : Option Nat) i => let e := firstTickAt s ((extGet s i).renewed + 2 * (extGet s i).p); some (match p with | some p => min p e | none => e)) none
  (((if r.1.contains St.ok then St.ok else r.1.headD St.lease), period.getD 0, exp.getD 0), s)
/-- EMBER: a RENEW is answered with an ACK (R206, R389). -/
def emberTake (c : Cell) (s : State) : State :=
  if c.ty ≠ 0x31 ∨ getLE c.payload 0 1 ≠ 1 then s
  else match winOf s c with
    | none => winRefused s c
    | some w =>
      let lease := getLE c.payload 4 4
      let seq := getLE c.payload 8 4
      let ((st, p, e), s) := renew s w.winTenant (reqFabric c) lease seq
      sendFrom s 33 { cell0 s 0x31 with dst := c.src, dstEp := c.srcEp, tag := c.tag, payload := natLe 1 2 ++ natLe 1 st ++ natLe 2 0 ++ natLe 4 lease ++ natLe 4 seq ++ natLe 4 p ++ natLe 8 e }
def execEmber (inp : Nat) (c : Cell) (s : State) : Out State := hubOnly (arriveHere emberTake inp c) s
/-- LEASE_RENEW: the renewal of a logical device (R390). -/
def execLeaseRenew (mb : Mbx) (lease seq : Nat) (s : State) : Out State :=
  mbxOnly mb (vendor mb .ten (fun s =>
    let ((st, p, e), s) := renew s ((mbxTenant s mb).getD 0) (ldReq s mb) lease seq
    s.reply mb st (natLe 1 st ++ natLe 3 0 ++ natLe 4 p ++ natLe 8 e))) s
/-- A lease enters GRACE: its holder and the system context are told (R388). -/
def enterGrace (s : State) (i : Nat) : State :=
  let x := extGet s i
  if x.state = 2 then (extSet s i { x with state := 3 }).notice 0x0801 [leaseId i x] x.tenant none (reqDest s x.holder) else s
/-- EXT_GRACE: a period without renewal has passed. -/
def execExtGrace (i : Nat) (s : State) : Out State :=
  hubOnly (fun s =>
    let x := extGet s i
    if x.state = 2 then enterGrace (s.upTo (x.renewed + x.p)) i else s) s
/-- LEASE_EXPIRE: at the first boundary at or after r + 2P the extent is fenced and its holder declared lost (R388, R391). -/
def execLeaseExpire (i : Nat) (s : State) : Out State :=
  hubOnly (fun s =>
    let x := extGet s i
    if (x.state = 2 ∨ x.state = 3) ∧ x.renewed + 2 * x.p ≤ s.tk.start then
      let s := fenceOwn (enterGrace s i) i s.tk.start true
      let s := (reqAgents s x.holder).foldl (fun s a => declareLost s a false) s
      pump (s.notice 0x0802 [leaseId i x] x.tenant)
    else s) s

/-! ### Drain and zeroisation (R394, R395) -/

/-- The drain has ended: no request accepted under the extent, no snoop of its range outstanding. -/
def extDrained (s : State) (i : Nat) : Bool :=
  let ts := extTiles s (extGet s i)
  !s.reqs.any (fun r => r.ext == some i) && !queuedAny s (fun p => p.ext == some i) && !s.coh.snoops.any (fun p => ts.contains (lineTile p.line) && (reqAgents s (extGet s i).holder).contains p.agent)
  && (holderLines s (extGet s i)).isEmpty
def drainEnd (s : State) (i : Nat) : State :=
  let x := extGet s i
  let s := s.put F.EXT_DRAIN_LONGEST_CYCLES (max (s.fld F.EXT_DRAIN_LONGEST_CYCLES) (min (s.time - x.fence) 25000))
  extSet s i { x with state := 5 }
def execExtDrainDone (i : Nat) (s : State) : Out State :=
  hubOnly (fun s => if (extGet s i).state = 4 ∧ extDrained s i then drainEnd s i else s) s
/-- EXT_DRAIN_CUT: 50 µs after the fence. -/
def execExtDrainCut (i : Nat) (s : State) : Out State :=
  hubOnly (fun s =>
    let x := extGet s i
    if x.state ≠ 4 then s
    else
      let s := s.upTo (x.fence + 25000)
      if extDrained s i then drainEnd s i
      else
        let ts := extTiles s x
        let s := (s.coh.snoops.filter (fun p => ts.contains (lineTile p.line) && (reqAgents s x.holder).contains p.agent)).foldl (fun s p => lostEntry s p.agent false p.line) s
        let s := (holderLines s x).foldl (fun s l => (reqAgents s x.holder).foldl (fun s a => lostEntry s a false l) s) s
        let s := (s.reqs.filter (fun r => r.ext == some i)).foldl (fun s r => cutReq s r St.lease) s
        let s := cutQueued s (fun p => p.ext == some i) St.lease
        drainEnd (pump (s.notice 0x0806 [leaseId i x] x.tenant)) i) s
/-- Offsets of a tile's bytes that the extent covers and no other extent does, as runs. -/
def soleBytes (s : State) (i : Nat) (x : Ext) (va : Nat) : List (Nat × Nat) :=
  tileRuns ((List.range 65536).filter (fun o => let a := va + o
    x.start ≤ a && a < x.start + x.len && !s.ext.exts.any (fun e => e.1 != i && e.2.state != 0 && e.2.tenant == x.tenant && e.2.start ≤ a && a < e.2.start + e.2.len)))
/-- The tiles of an extent that translate: virtual address, translation, and number in this half's state. -/
def extPlaces (s : State) (x : Ext) : List (Nat × Xl × Nat) :=
  let a := x.start / 65536
  (List.range ((x.start + x.len - 1) / 65536 + 1 - a)).filterMap (fun k =>
    let (st, t) := xlate s x.tenant ((a + k) * 65536) 0 none
    if st = St.ok then some ((a + k) * 65536, t, tileId s t.tile) else none)
/-- Zeroisation waits for a tile that a store cannot reach now: SHADOWED, in its cut-over, or part of an open collection (R80, R81,
R366; log 54, DEDUCED). -/
def zeroWaits (s : State) (i : Nat) (x : Ext) : Bool := (extPlaces s x).any (fun p =>
  let runs := soleBytes s i x p.1
  !runs.isEmpty && (collTile s p.2.2 || inCutover s p.2.2 || (runs != [(0, 65536)] && (tileGet s p.2.2).state == .shadowed)))
/-- Zeroisation of an extent's own bytes. -/
def zeroExt (s : State) (i : Nat) : State :=
  let x := extGet s i
  (extPlaces s x).foldl (fun s p =>
    let runs := soleBytes s i x p.1
    if runs = [(0, 65536)] then releaseTile (dropLines s p.2.2) p.2.2
    else runs.foldl (fun s r => (byteStore s p.2.2 r.1 (List.replicate r.2 0) p.2.1.ten p.2.1.key).2) s) s
/-- Held lines of the bytes that zeroisation writes as zeros without a release: their holders give them back first (R295). -/
def zeroLines (s : State) (i : Nat) (x : Ext) : List Nat := (extPlaces s x).flatMap (fun p =>
  let runs := soleBytes s i x p.1
  if runs = [(0, 65536)] ∨ isPeer p.2.2 then []
  else (linesHeld s p.2.2 1).filter (fun l => runs.any (fun r => overlaps (lineOff l) 64 r.1 r.2)))
/-- EXT_RELEASED: zeroisation ends and the extent is FREE. -/
def execExtReleased (i : Nat) (s : State) : Out State :=
  hubOnly (fun s =>
    let x := extGet s i
    if x.state ≠ 5 ∨ x.locks.any (fun id => s.st.locks.any (fun l => l.id == id && !l.held)) ∨ (x.zero ∧ zeroWaits s i x) then s
    else if x.zero ∧ !(zeroLines s i x).isEmpty then backInvalidate s (zeroLines s i x)
    else
      let s := if x.zero then zeroExt s i else s
      let s := x.locks.foldl lockDrop s
      let s := (extSet s i { gen := (x.gen + 1) % 2 ^ 18 }).notice 0x0804 [leaseId i x] x.tenant
      let s := match x.mb with
        | some mb => { (s.cxl mb .success) with host := { s.host with busy := s.host.busy.filter (· != mbxKey mb) } }
        | none => s
      rejoinAll s) s

end Sys2Proof.Machine
end

