-- ==== Sys2Proof/Machine/Compose.lean ====
section
/-! DEFINITION. Machine/Compose.lean: the composition map's commands, hand-overs, their messages and timers (spec/14 R396 to R409). -/

namespace Sys2Proof.Machine

open Sys2Proof

/-! ### Inboxes (R409, R462) -/

/-- A cell that is a message of a code to the inbox at an address. -/
def isMsg (base msg : Nat) (c : Cell) : Bool := c.ty == 0x02 && c.tag == 0xFFFF && c.addr == base && c.len == 63 && getLE c.payload 0 1 == msg
/-- A message is taken and acknowledged. -/
def takeMsg (f : Cell → State → State) (c : Cell) (s : State) : State := respond (f c s) c 0x12 St.ok 0 []
/-- A row that takes one message of an inbox. -/
def inboxRow (base msg : Nat) (f : Cell → State → State) (inp : Nat) (c : Cell) (s : State) : State :=
  arriveHere (fun c s => if isMsg base msg c then takeMsg f c s else s) inp c s

/-! ### COMP_SET and COMP_CLEAR (R396, R397) -/

/-- Table 14-4. -/
def pieceImage (d : List Byte) : Piece :=
  { state := getLE d 0 1, home := bitOf (getLE d 1 1) 0, tenant := getLE d 2 2, tiles := getLE d 4 4, va := getLE d 8 8, owner := getLE d 16 2, ownerTag := getLE d 18 2, chgEpoch := getLE d 20 2, recHub := getLE d 22 2, ownerVa := getLE d 24 8, recIdx := getLE d 32 4, hoSeq := getLE d 36 4, newVa := getLE d 40 8, newOwner := getLE d 48 2, newTag := getLE d 50 2, ckpt := getLE d 52 4, hoStart := getLE d 56 8 }
def pieceBytes (x : Piece) : List Byte :=
  natLe 1 x.state ++ natLe 1 (b2n x.home) ++ natLe 2 x.tenant ++ natLe 4 x.tiles ++ natLe 8 x.va ++ natLe 2 x.owner ++ natLe 2 x.ownerTag ++ natLe 2 x.chgEpoch ++ natLe 2 x.recHub
  ++ natLe 8 x.ownerVa ++ natLe 4 x.recIdx ++ natLe 4 x.hoSeq ++ natLe 8 x.newVa ++ natLe 2 x.newOwner ++ natLe 2 x.newTag ++ natLe 4 x.ckpt ++ natLe 8 x.hoStart
/-- The entries of a tenant other than entry i, in force and to come. -/
def otherPieces (s : State) (ten i : Nat) : List Piece :=
  ((s.ext.next ++ s.ext.pieces.filter (fun e => !s.ext.next.any (fun n => n.1 == e.1))).filter (fun e => e.1 != i && e.2.state != 0 && e.2.tenant == ten)).map Prod.snd
/-- The range overlaps an enabled coherent window of the tenant. -/
def meetsWindow (s : State) (ten a n : Nat) : Bool :=
  (List.range 64).any (fun w => s.flag (F.COH_WIN_BASE_EN w) && s.fld (F.COH_WIN_BASE_TENANT w) == ten
    && overlaps a n (s.fld (F.COH_WIN_VA_VA w) * 65536) ((s.fld (F.COH_WIN_END_END w) - s.fld (F.COH_WIN_BASE_BASE w)) * 65536))
/-- A hub known to lie in another tick domain: the peer of a port whose NEG named one (log 33, DEDUCED). -/
def outsideDomain (s : State) (h : Nat) : Bool :=
  (List.range 26).any (fun n => match (portGet s n).peer with
    | some g => g.hub && g.node == h && g.domain != s.fld F.TICK_TREE_DOMAIN
    | none => false)
/-- The checks of COMP_SET (log 57, DEDUCED). -/
def compOk (s : State) (i : Nat) (x : Piece) (d : List Byte) : Bool :=
  i < 65536 && x.state == 1 && getLE d 1 1 < 2 && x.tenant < 512 && 1 ≤ x.tiles && x.tiles ≤ 16777216 && x.va % 65536 == 0 && x.va + 65536 * x.tiles ≤ 2 ^ 52
  && x.owner < 4096 && x.recHub < 4096 && x.ownerVa < 2 ^ 52
  && !(otherPieces s x.tenant i).any (fun y => overlaps x.va (65536 * x.tiles) y.va (65536 * y.tiles))
  && (extsOver s x.tenant x.va (65536 * x.tiles)).isEmpty
  && !meetsWindow s x.tenant x.va (65536 * x.tiles)
  && (otherPieces s x.tenant i).all (fun y => y.recHub == x.recHub) && !outsideDomain s x.recHub
def compNext (s : State) (i : Nat) (x : Piece) : State :=
  { s with ext := { s.ext with next := s.ext.next.filter (fun e => e.1 != i) ++ [(i, x)] } }
def execCompSet (mb : Mbx) (idx : Nat) (image : List Byte) (s : State) : Out State :=
  mbxOnly mb (vendor mb .sys (fun s =>
    let x := pieceImage image
    if !compOk s idx x image then s.reply mb St.badDesc
    else if (pieceGet s idx).state = 2 then s.reply mb St.busy
    else (compNext s idx x).reply mb St.ok)) s
def execCompClear (mb : Mbx) (idx : Nat) (s : State) : Out State :=
  mbxOnly mb (vendor mb .sys (fun s =>
    if 65536 ≤ idx then s.reply mb St.badDesc
    else if (pieceGet s idx).state = 2 then s.reply mb St.busy
    else (compNext s idx {}).reply mb St.ok)) s

/-! ### Hand-over messages (Table 14-6) -/

def extInbox : Nat := 0x2E05C900000
/-- The authoritative entry a piece names. -/
def recOf (s : State) (i : Nat) (x : Piece) : Nat × Nat := if x.home then (s.hubId, i) else (x.recHub, x.recIdx)
def hoPayload (msg status : Nat) (r : Nat × Nat) (seq epoch newOwner eff newVa newTag oldOwner ckpt : Nat) : List Byte :=
  natLe 1 msg ++ natLe 1 status ++ natLe 2 r.1 ++ natLe 4 r.2 ++ natLe 4 seq ++ natLe 2 epoch ++ natLe 2 newOwner ++ natLe 8 eff ++ natLe 8 newVa
  ++ natLe 2 newTag ++ natLe 2 oldOwner ++ natLe 4 ckpt ++ natLe 24 0
/-- A message about piece i to a hub; `owner` is the owner the message names. -/
def hoSend (s : State) (i : Nat) (dst msg status epoch owner eff : Nat) : State :=
  let x := pieceGet s i
  msgSend s false 0 dst extInbox (hoPayload msg status (recOf s i x) x.hoSeq epoch owner eff x.newVa x.newTag x.owner x.ckpt)
/-- This hub's entry of the piece a message names. -/
def pieceOfMsg (s : State) (c : Cell) : Option (Nat × Piece) :=
  let r := (getLE c.payload 2 2, getLE c.payload 4 4)
  s.ext.pieces.find? (fun e => e.2.state != 0 && recOf s e.1 e.2 == r)
def applied (s : State) (c : Cell) : Bool := s.ext.applied.contains (getLE c.payload 2 2, getLE c.payload 4 4, getLE c.payload 8 4)
def hoGet (s : State) (i : Nat) : Ho := (s.ext.hos.find? (fun h => h.idx == i)).getD { idx := i }
def hoSet (s : State) (h : Ho) : State := { s with ext := { s.ext with hos := s.ext.hos.filter (fun x => x.idx != h.idx) ++ [h] } }
/-- The hand-over of piece i is over here: its outcome is noted. -/
def hoDone (s : State) (i : Nat) : State :=
  let x := pieceGet s i
  let r := recOf s i x
  { s with ext := { s.ext with hos := s.ext.hos.filter (fun h => h.idx != i), applied := (r.1, r.2, x.hoSeq) :: s.ext.applied } }

/-! ### Outcomes (R403 step 5, R406, R408) -/

/-- The tenant's epoch advances at boundary k (R398). -/
def epochAdvance (s : State) (ten epoch hub k : Nat) : State :=
  (epochSet s ten (some (epoch, hub))).notice 0x0810 [epoch, k] ten none (.tenant ten)
/-- The new owner takes the piece. -/
def commitPiece (s : State) (i epoch : Nat) : State :=
  let x := pieceGet s i
  hoDone (pieceSet s i { x with state := 1, owner := x.newOwner, ownerTag := x.newTag, ownerVa := x.newVa, chgEpoch := epoch }) i
/-- The old owner keeps it. -/
def revertPiece (s : State) (i : Nat) : State :=
  let x := pieceGet s i
  pump (hoDone (pieceSet s i { x with state := 1 }) i)
/-- The record home reverts: both owners are told (R406). -/
def hoRevert (s : State) (i reason : Nat) : State :=
  let x := pieceGet s i
  let s := [x.owner, x.newOwner].eraseDups.foldl (fun s h => if h = s.hubId then s else hoSend s i h 0x05 0 0 x.owner 0) s
  revertPiece ((s.bump F.EXT_HO_REVERTED).notice 0x0811 [reason] x.tenant) i
/-- A revert at the time bound names a reason the spec does not give (log 59, DESIGN CHOICE). -/
def hoRevertLate (s : State) (i : Nat) : State := let (n, s) := s.draw; hoRevert s i (Config.freeNat n)
/-- Hubs that hold entries of a tenant, as the record home knows them. -/
def compHolders (s : State) (i : Nat) : List Nat :=
  let x := pieceGet s i
  ([x.owner, x.newOwner] ++ ((s.ext.pieces.filter (fun e => e.2.state != 0 && e.2.tenant == x.tenant)).map (fun e => e.2.owner)) ++ Config.compHubs x.tenant).eraseDups.filter (fun h => h != s.hubId)
/-- The record home decides once both results are in (R403 step 4, R406) (log 58, DEDUCED). -/
def hoDecide (s : State) (i : Nat) : State :=
  let x := pieceGet s i
  let h := hoGet s i
  match h.ready, h.release with
  | some a, some b =>
    if a ≠ St.ok then hoRevert s i a else if b ≠ St.ok then hoRevert s i b
    else
      let k := firstTickAt s (s.time + s.fld F.EXT_COMP_CTL_LEAD)
      if x.hoStart + 250000 ≤ tickTime s k then hoRevertLate s i
      else
        let e := (epochOf s x.tenant + 1) % 65536
        let s := hoSet s { h with commit := some (k, e) }
        (compHolders s i).foldl (fun s d => hoSend s i d 0x04 0 e x.newOwner k) s
  | some a, none => if a ≠ St.ok then hoRevert s i a else s
  | none, some b => if b ≠ St.ok then hoRevert s i b else s
  | none, none => s

/-! ### HANDOVER and the owners' checks (R403 to R405) -/

/-- HANDOVER at the record home. -/
def execHandover (mb : Mbx) (idx newOwner newTag newVa ckpt : Nat) (s : State) : Out State :=
  mbxOnly mb (vendor mb .sys (fun s =>
    let x := pieceGet s idx
    if 65536 ≤ idx ∨ x.state = 0 ∨ !x.home ∨ 4096 ≤ newOwner ∨ 0xFFFF ≤ newTag ∨ 2 ^ 52 ≤ newVa + 65536 * (x.tiles - 1) then s.reply mb St.badDesc
    else if s.ext.pieces.any (fun e => e.2.tenant == x.tenant && e.2.home && e.2.state == 2) ∨ s.ext.next.any (fun e => e.1 == idx) then s.reply mb St.busy
    else
      let s := pieceSet s idx { x with state := 2, hoSeq := (x.hoSeq + 1) % 2 ^ 32, newVa := newVa, newOwner := newOwner, newTag := newTag, ckpt := ckpt, hoStart := s.time }
      let s := hoSet s { idx := idx }
      ([x.owner, newOwner].eraseDups.foldl (fun s h => hoSend s idx h 0x01 0 (epochOf s x.tenant) newOwner 0) s).reply mb St.ok)) s
/-- The new owner's check of the tiles at NEW_VA for the tenant its windows give NEW_TAG (R405). -/
def readyStatus (s : State) (x : Piece) : Nat :=
  match (s.xlt.wins.map Prod.snd).find? (fun w => w.en && w.tag == x.newTag) with
  | none => St.window
  | some w => (List.range x.tiles).foldl (fun st k =>
      if st ≠ St.ok then st
      else
        let (st, t) := xlate s w.winTenant (x.newVa + 65536 * k) Need.rw none
        if st ≠ St.ok then st
        else
          let y := tileGet s (tileId s t.tile)
          if !keyOk y t.ten t.key then St.key else match y.state with
          | .sealed => St.ok
          | .opened => St.tileOpen
          | .retired => St.checksum
          | _ => St.busy) St.ok
/-- The old owner's check against its checkpoint of epoch CKPT (R404). -/
def releaseStatus (s : State) (x : Piece) : Nat :=
  let recs := (herdSlots s).flatMap (fun j => if (jobGet s j).tenant = x.tenant then (herdGet s j).recs.filter (fun r => r.epoch == x.ckpt) else [])
  if (List.range x.tiles).all (fun k =>
    let va := x.ownerVa + 65536 * k
    match xlate s x.tenant va 0 none with
    | (st, t) =>
      let y := tileGet s (tileId s t.tile)
      st == St.ok && y.state == .sealed && !y.rowWritten && recs.any (fun r => r.vtile == va / 65536 && r.version == y.version)) then St.ok else St.busy
/-- Requests to the piece that passed check 3 have completed (R403 step 2). -/
def pieceDrained (s : State) (x : Piece) : Bool :=
  !s.reqs.any (fun r => r.ten == x.tenant && x.ownerVa ≤ r.va && r.va < x.ownerVa + 65536 * x.tiles && (match r.wait with | .piece _ => false | _ => true))
  && !queuedAny s (fun p => p.ten == x.tenant && x.ownerVa ≤ p.va && p.va < x.ownerVa + 65536 * x.tiles)
/-- HO_BEGIN at the old owner or the new owner. -/
def hoBegin (c : Cell) (s : State) : State :=
  if applied s c then s
  else match pieceOfMsg s c with
    | none =>
      -- no entry of the piece here: the new owner answers that it cannot take it (log 34, DESIGN CHOICE)
      if getLE c.payload 14 2 = s.hubId then
        msgSend s false 0 (getLE c.payload 2 2) extInbox (patch (slice c.payload 0 64) 0 (natLe 1 0x02 ++ natLe 1 St.unmapped))
      else s
    | some (i, x) =>
      let h := hoGet s i
      if h.begun ∨ (x.owner ≠ s.hubId ∧ getLE c.payload 14 2 ≠ s.hubId) then s
      else
        let x : Piece := { x with state := 2, hoSeq := getLE c.payload 8 4, newOwner := getLE c.payload 14 2, newVa := getLE c.payload 24 8, newTag := getLE c.payload 32 2, ckpt := getLE c.payload 36 4, hoStart := if x.home then x.hoStart else s.time }
        let s := hoSet (pieceSet s i x) { h with begun := true }
        if x.newOwner = s.hubId then hoSend s i (recOf s i x).1 0x02 (readyStatus s x) 0 x.newOwner 0 else s
def execHoBegin (inp : Nat) (c : Cell) (s : State) : Out State := hubOnly (inboxRow extInbox 0x01 hoBegin inp c) s
/-- HO_RELEASE_CHECK: the drain at the old owner has ended. -/
def execHoReleaseCheck (idx : Nat) (s : State) : Out State :=
  hubOnly (fun s =>
    let x := pieceGet s idx
    let h := hoGet s idx
    if x.state = 2 ∧ x.owner = s.hubId ∧ h.begun ∧ !h.released ∧ pieceDrained s x then
      hoSend (hoSet s { h with released := true }) idx (recOf s idx x).1 0x03 (releaseStatus s x) 0 x.newOwner 0
    else s) s
/-- A result at the record home: `f` records it. -/
def hoResult (f : Ho → Nat → Ho) (c : Cell) (s : State) : State :=
  if applied s c then s
  else match pieceOfMsg s c with
    | none => s
    | some (i, x) =>
      if !x.home ∨ x.state ≠ 2 ∨ x.hoSeq ≠ getLE c.payload 8 4 ∨ (hoGet s i).commit.isSome then s
      else hoDecide (hoSet s (f (hoGet s i) (getLE c.payload 1 1))) i
def hoReady (c : Cell) (s : State) : State := hoResult (fun h st => { h with ready := some st }) c s
def hoRelease (c : Cell) (s : State) : State := hoResult (fun h st => { h with release := some st }) c s
def execHoReady (inp : Nat) (c : Cell) (s : State) : Out State := hubOnly (inboxRow extInbox 0x02 hoReady inp c) s
def execHoRelease (inp : Nat) (c : Cell) (s : State) : Out State := hubOnly (inboxRow extInbox 0x03 hoRelease inp c) s

/-! ### Outcomes at the other hubs (R406 to R408) -/

/-- HO_COMMIT: kept for its boundary, or applied at once when that has passed. -/
def hoCommit (c : Cell) (s : State) : State :=
  if applied s c then s
  else match pieceOfMsg s c with
    | none => s
    | some (i, x) =>
      let k := getLE c.payload 16 6
      let e := getLE c.payload 12 2
      let s := pieceSet s i { x with hoSeq := getLE c.payload 8 4, newOwner := getLE c.payload 14 2, newVa := getLE c.payload 24 8, newTag := getLE c.payload 32 2 }
      if k ≤ s.tk.num then
        let s := epochAdvance (commitPiece s i e) x.tenant e (recOf s i x).1 k
        pump ((s.bump F.EXT_HO_LATE).notice 0x0813 [] x.tenant)
      else hoSet s { (hoGet s i) with commit := some (k, e) }
def execHoCommit (inp : Nat) (c : Cell) (s : State) : Out State := hubOnly (inboxRow extInbox 0x04 hoCommit inp c) s
def hoReverted (c : Cell) (s : State) : State :=
  if applied s c then s
  else match pieceOfMsg s c with
    | none => s
    | some (i, x) => if x.hoSeq = getLE c.payload 8 4 ∧ x.state = 2 then revertPiece s i else s
def execHoRevert (inp : Nat) (c : Cell) (s : State) : Out State := hubOnly (inboxRow extInbox 0x05 hoReverted inp c) s
/-- HO_TIMEOUT: h0 + 500 µs at the record home with no commit sent. -/
def execHoTimeout (idx : Nat) (s : State) : Out State :=
  hubOnly (fun s =>
    let x := pieceGet s idx
    if x.home ∧ x.state = 2 ∧ (hoGet s idx).commit.isNone then hoRevertLate (s.upTo (x.hoStart + 250000)) idx else s) s

/-! ### Held requests (R407) -/

/-- OWN_QUERY: the record home answers with the outcome, or that it is pending. -/
def ownQuery (c : Cell) (s : State) : State :=
  match pieceOfMsg s c with
  | none => s
  | some (i, x) =>
    if !x.home then s
    else match (hoGet s i).commit, x.state with
      | some (k, e), 2 => hoSend s i c.src 0x07 St.ok e x.newOwner k
      | _, 2 => hoSend s i c.src 0x07 St.busy 0 x.owner 0
      | _, _ => hoSend s i c.src 0x07 St.ok (epochOf s x.tenant) x.owner 0
def execOwnQuery (inp : Nat) (c : Cell) (s : State) : Out State := hubOnly (inboxRow extInbox 0x06 ownQuery inp c) s
/-- OWN_ANSWER: applies as HO_COMMIT or HO_REVERT would; a pending one changes nothing. -/
def ownAnswer (c : Cell) (s : State) : State :=
  if getLE c.payload 1 1 ≠ St.ok then s
  else match pieceOfMsg s c with
    | none => s
    | some (_, x) => if getLE c.payload 14 2 = x.owner then hoReverted c s else hoCommit c s
def execOwnAnswer (inp : Nat) (c : Cell) (s : State) : Out State := hubOnly (inboxRow extInbox 0x07 ownAnswer inp c) s
/-- OWN_QUERY_TIMER: QUERY µs after a request began to wait, or after the last query, while no commit is known. -/
def execOwnQueryTimer (idx : Nat) (s : State) : Out State :=
  hubOnly (fun s =>
    let x := pieceGet s idx
    match s.reqs.find? (fun r => r.wait == .piece idx) with
    | some r =>
      if x.state = 2 ∧ (hoGet s idx).commit.isNone then
        let h := hoGet s idx
        let s := s.upTo (h.asked.getD r.time + us (s.fld F.EXT_COMP_CTL_QUERY))
        hoSend (hoSet s { h with asked := some s.time }) idx (recOf s idx x).1 0x06 0 0 0 0
      else s
    | none => s) s
/-- COMP_NO_OWNER: 1 ms after the request's timestamp. -/
def execCompNoOwner (req : Nat) (s : State) : Out State :=
  hubOnly (fun s => match s.reqs.find? (fun r => r.id == req) with
    | some r => match r.wait with
      | .piece i =>
        let s := s.upTo (r.time + 500000)
        let s := cutReq (s.bump F.EXT_NO_OWNER_COUNT) r St.noOwner
        pump (onceTickTen s 0x0812 i r.ten none [])
      | _ => s
    | none => s) s
/-- HO_MESSAGE_RETRY: every QUERY period until its WRITE_RSP returns OK (R409). -/
def execHoMessageRetry (msg : Nat) (s : State) : Out State :=
  hubOnly (fun s => match s.ext.msgs.find? (fun m => m.id == msg && !m.herd) with
    | some m => msgGive (s.upTo (m.sent + us (s.fld F.EXT_COMP_CTL_QUERY))) m
    | none => s) s
/-- A message to EXT_INBOX by its code. -/
def extMessage (c : Cell) (s : State) : State :=
  let m := getLE c.payload 0 1
  if m = 0x01 then hoBegin c s else if m = 0x02 then hoReady c s else if m = 0x03 then hoRelease c s else if m = 0x04 then hoCommit c s
  else if m = 0x05 then hoReverted c s else if m = 0x06 then ownQuery c s else if m = 0x07 then ownAnswer c s else s

/-! ### At a boundary (step 4 of R55) -/

/-- The changes of the map that take effect at boundary k. -/
def compBoundary (s : State) (k : Nat) : State :=
  let set := s.ext.next
  let due := s.ext.hos.filterMap (fun h => match h.commit with | some (k', e) => if k' ≤ k then some (h.idx, e) else none | none => none)
  let tens := (set.flatMap (fun e => (if e.2.state = 0 then [] else [(e.2.tenant, e.2.recHub)]) ++ (let o := pieceGet s e.1; if o.state = 0 then [] else [(o.tenant, o.recHub)])))
  let tens := tens.filter (fun t => !due.any (fun d => (pieceGet s d.1).tenant == t.1))
  let s := set.foldl (fun s e => pieceSet s e.1 e.2) { s with ext := { s.ext with next := [] } }
  let s := due.foldl (fun s d =>
    let x := pieceGet s d.1
    let s := if x.home then s.bump F.EXT_HO_COMMITTED else s
    epochAdvance (commitPiece s d.1 d.2) x.tenant d.2 (recOf s d.1 x).1 k) s
  ((tens.map Prod.fst).eraseDups).foldl (fun s t =>
    epochAdvance s t ((epochOf s t + 1) % 65536) (((tens.find? (fun e => e.1 == t)).map Prod.snd).getD s.hubId) k) s

end Sys2Proof.Machine
end

