-- ==== Sys2Proof/Machine/HostLink.lean ====
section
/-! DEFINITION. Machine/HostLink.lean: the host link, the CXL mailbox commands, the life of tenants and logical devices, subscribers
and the coalescing timer (spec/15 R412 to R434, spec/19 R528). -/

namespace Sys2Proof.Machine

open Sys2Proof

/-! ### CXL mailbox commands (Table 15-3) -/

/-- A payload whose content CXL 3.1 fixes and the spec does not: free bytes of a free length (log 36, PRESUMED). -/
def anyBytes (s : State) : List Byte × State :=
  let (n, s) := s.draw
  (Config.freeBytes n (Config.freeNat n % 2049), s)
def cxlAny (mb : Mbx) (s : State) : State := let (d, s) := anyBytes s; s.cxl mb .success d
/-- The records of a log of a mailbox (log 31, PRESUMED). -/
def mbxEvents (s : State) (mb : Mbx) (log : Nat) : List (Nat × List Byte) :=
  s.host.events.filterMap (fun e => if e.1 = mbxKey mb ∧ e.2.1 = log then some (e.2.2.1, e.2.2.2) else none)
def execGetEventRecords (mb : Mbx) (log : Nat) (s : State) : Out State :=
  mbxOnly mb (cxlCmd mb (fun s =>
    let l := mbxEvents s mb log
    s.cxl mb .success (natLe 2 l.length ++ l.flatMap (fun e => natLe 2 e.1 ++ e.2)))) s
def execClearEventRecords (mb : Mbx) (log : Nat) (handles : List Nat) (s : State) : Out State :=
  mbxOnly mb (cxlCmd mb (fun s =>
    if !handles.all (fun h => (mbxEvents s mb log).any (fun e => e.1 == h)) then s.cxl mb .invalidInput
    else ({ s with host := { s.host with events := s.host.events.filter (fun e => !(e.1 == mbxKey mb && e.2.1 == log && handles.contains e.2.2.1)) } }).cxl mb .success)) s
def execGetEventInterruptPolicy (mb : Mbx) (s : State) : Out State :=
  mbxOnly mb (cxlCmd mb (fun s => s.cxl mb .success (((s.host.policy.find? (fun p => p.1 == mbxKey mb)).map Prod.snd).getD []))) s
def execSetEventInterruptPolicy (mb : Mbx) (policy : List Byte) (s : State) : Out State :=
  mbxOnly mb (cxlCmd mb (fun s => ({ s with host := { s.host with policy := (mbxKey mb, policy) :: s.host.policy.filter (fun p => p.1 != mbxKey mb) } }).cxl mb .success)) s
/-- The host's reference time in ns: what was set, and the time since; 0 while none is set (R424; log 37, DESIGN CHOICE). -/
def hostTime (s : State) : Nat := match s.host.timestamp with | some (t, at') => t + 2 * (s.time - at') | none => 0
def execGetTimestamp (mb : Mbx) (s : State) : Out State := mbxOnly mb (cxlCmd mb (fun s => s.cxl mb .success (natLe 8 (hostTime s)))) s
def execSetTimestamp (mb : Mbx) (t : Nat) (s : State) : Out State :=
  mbxOnly mb (cxlCmd mb (fun s => ({ s with host := { s.host with timestamp := some (t, s.time) } }).cxl mb .success)) s
def execGetSupportedLogs (mb : Mbx) (s : State) : Out State := mbxOnly mb (cxlCmd mb (cxlAny mb)) s
/-- GET_LOG: the bytes of a log asked for. -/
def execGetLog (mb : Mbx) (uuid off len : Nat) (s : State) : Out State :=
  mbxOnly mb (cxlCmd mb (fun s => let (n, s) := s.draw; s.cxl mb .success (Config.freeBytes (n + uuid + off) len))) s
def execIdentifyMemoryDevice (mb : Mbx) (s : State) : Out State := mbxOnly mb (cxlCmd mb (cxlAny mb)) s
/-- One DC region per LD, of 64 KiB blocks (Table 15-1, R414; log 36, PRESUMED). -/
def execGetDcConfiguration (mb : Mbx) (s : State) : Out State :=
  mbxOnly mb (cxlCmd mb (fun s => match mb with
    | .ld i =>
      let n := s.fld (F.HOST_LD_DC_DC_LEN i) * 65536
      let r := natLe 8 (s.fld (F.HOST_LD_DC_DC_BASE i) * 65536) ++ natLe 8 n ++ natLe 8 n ++ natLe 8 65536 ++ natLe 8 0
      s.cxl mb .success (if n = 0 then natLe 8 0 else natLe 1 1 ++ natLe 1 1 ++ natLe 6 0 ++ r)
    | _ => s.cxl mb .success (natLe 8 0))) s
def execGetDcExtentList (mb : Mbx) (s : State) : Out State :=
  mbxOnly mb (cxlCmd mb (fun s => match mb with
    | .ld i =>
      let l := dcdExts s i 2 ++ dcdExts s i 3
      let (n, s) := s.draw
      s.cxl mb .success (natLe 4 l.length ++ natLe 4 l.length ++ natLe 4 (Config.freeNat n) ++ natLe 4 0
        ++ l.flatMap (fun e => natLe 8 (extDpa s i e.2) ++ natLe 8 e.2.len ++ natLe 4 (leaseId e.1 e.2) ++ natLe 20 0))
    | _ => s.cxl mb .success (natLe 16 0))) s
/-- A command outside the tables: Unsupported; a vendor opcode that is not defined, or too short an input: Invalid Input (R424, R425). -/
def unsupported (mb : Mbx) (op : Nat) (s : State) : State :=
  if mb = .gone then s
  else if s.host.busy.contains (mbxKey mb) then s.cxl mb .busy
  else if s.sup.stage = .recovery then s.reply mb St.busy
  else if 0xC000 ≤ op ∧ op ≤ 0xC0FF then (match ldRefusal s mb with | some st => s.reply mb st | none => s.cxl mb .invalidInput)
  else s.cxl mb .unsupported
/-- The FM-owned LD's commands 0x5400 to 0x5406: their answer is CXL 3.1's (log 36, PRESUMED). -/
def execMldManagement (mb : Mbx) (op : Nat) (input : List Byte) (s : State) : Out State :=
  let _ := input
  mbxOnly mb (fun s => if mb = .fm ∧ 0x5400 ≤ op ∧ op ≤ 0x5406 then cxlCmd mb (cxlAny mb) s else unsupported mb op s) s
def execMailboxUnsupported (mb : Mbx) (op : Nat) (input : List Byte) (s : State) : Out State :=
  let _ := input
  mbxOnly mb (unsupported mb op) s

/-! ### WIN_LIST (R417) -/

def insertPair (p : Nat × Nat) : List (Nat × Nat) → List (Nat × Nat)
  | [] => [p]
  | q :: l => if p.1 ≤ q.1 then p :: q :: l else q :: insertPair p l
/-- A range [a, b) clipped to [lo, hi), as first and last address. -/
def clip (a b lo hi : Nat) : List (Nat × Nat) := if max a lo < min b hi then [(max a lo, min b hi - 1)] else []
/-- The device physical addresses of LD i that lie in windows it may cache. -/
def winList (s : State) (i : Nat) : List (Nat × Nat) :=
  if (slotsOfLd s i).isEmpty then []
  else
    let base := s.fld (F.HOST_LD_MAP_VABASE i)
    let dc := s.fld (F.HOST_LD_DC_DC_BASE i) * 65536
    ((List.range 64).filter (fun n => s.flag (F.COH_WIN_BASE_EN n) && s.fld (F.COH_WIN_BASE_TENANT n) == ldTenant s i && (slotsOfLd s i).any (bitOf (s.fld (F.COH_WIN_AGENTS_MASK n))))).flatMap (fun n =>
      let va := s.fld (F.COH_WIN_VA_VA n) * 65536
      let e := va + (s.fld (F.COH_WIN_END_END n) - s.fld (F.COH_WIN_BASE_BASE n)) * 65536
      let cut := fun (lo hi : Nat) => (clip va e (base + lo) (base + hi)).map (fun p => (p.1 - base, p.2 - base))
      cut 0 (s.fld (F.HOST_LD_STATIC_STATIC i)) ++ cut dc (dc + s.fld (F.HOST_LD_DC_DC_LEN i) * 65536))
    |>.foldr insertPair []
def execWinList (mb : Mbx) (s : State) : Out State :=
  mbxOnly mb (vendor mb .ten (fun s => match mb with
    | .ld i => s.reply mb St.ok ((winList s i).flatMap (fun p => natLe 8 p.1 ++ natLe 8 p.2))
    | _ => s.reply mb St.rights)) s

/-! ### Tenants and logical devices (R418 to R422) -/

def fnGet (s : State) : Fn → FnRec
  | .tenant n => tenantGet s n
  | .ld i => ldGet s i
def fnSet (s : State) (f : Fn) (x : FnRec) : State := match f with
  | .tenant n => tenantSet s n x
  | .ld i => ldSet s i x
def fnValid : Fn → Bool
  | .tenant n => n < 512
  | .ld i => i < 16
/-- How a notice names a function: a tenant by its number, LD i by 0x10000 + i (log 35, DESIGN CHOICE). -/
def fnName : Fn → Nat
  | .tenant n => n
  | .ld i => 0x10000 + i
def fnTenant (s : State) : Fn → Nat
  | .tenant n => n
  | .ld i => ldTenant s i
/-- An enable (R422). -/
def enableFn (mb : Mbx) (f : Fn) (s : State) : State :=
  let x := fnGet s f
  if !fnValid f then s.reply mb St.badDesc
  else if (match f with | .ld i => !ldBound s i | _ => false) then s.reply mb St.badDesc
  else match x.state with
    | .on => s.reply mb St.ok
    | .off =>
      if s.tk.num < x.ready then s.reply mb St.quiescing
      else
        let s := fnSet s f { x with state := .on }
        let s := s.notice 0x0B41 [fnName f] (fnTenant s f)
        (rejoinAll s).reply mb St.ok
    | _ => s.reply mb St.quiescing
def execTenantEnable (mb : Mbx) (tenant : Nat) (s : State) : Out State := mbxOnly mb (vendor mb .sys (enableFn mb (.tenant tenant))) s
def execLdEnable (mb : Mbx) (ld : Nat) (s : State) : Out State := mbxOnly mb (vendor mb .sys (enableFn mb (.ld ld))) s
def tenantTiles (s : State) (n : Nat) : List Nat := (s.st.tiles.filter (fun e => e.2.state != .free && e.2.tenant == n)).map Prod.fst
/-- TENANT_DISABLE (R419): completes when the tenant is OFF. -/
def execTenantDisable (mb : Mbx) (tenant : Nat) (s : State) : Out State :=
  mbxOnly mb (vendor mb .sys (fun s =>
    let x := tenantGet s tenant
    if 512 ≤ tenant then s.reply mb St.badDesc
    else if x.state ≠ .on then s.reply mb St.ok
    else if !(tenantJobs s tenant).isEmpty then s.reply mb St.busy
    else
      let (st, ids, s) := lockRuns s .zeroise (tileRuns ((tenantTiles s tenant).filter (fun t => !isPeer t)))
      if st ≠ St.ok then s.reply mb st
      else tenantSet (s.hold mb) tenant { x with state := .draining, since := s.time, mb := some mb, locks := ids })) s
/-- LD_DISABLE: the LD is declared lost at once (R420). -/
def execLdDisable (mb : Mbx) (ld : Nat) (s : State) : Out State :=
  mbxOnly mb (vendor mb .sys (fun s =>
    let x := ldGet s ld
    if 16 ≤ ld then s.reply mb St.badDesc
    else if x.state ≠ .on then s.reply mb St.ok
    else
      let s := ldSet (s.hold mb) ld { x with state := .draining, since := s.time, mb := some mb }
      pump (holderGone ((slotsOfLd s ld).foldl (fun s a => declareLost s a true) s) (reqLd s ld)))) s
/-- FN_STATE: also for an LD that is not ON (R418, R427). -/
def execFnState (mb : Mbx) (fn : Fn) (s : State) : Out State :=
  mbxOnly mb (fun s =>
    if mb = .gone then s
    else if s.host.busy.contains (mbxKey mb) then s.cxl mb .busy
    else if s.sup.stage = .recovery then s.reply mb St.busy
    else
      let mine := match mbxTenant s mb, fn with
        | none, _ => true
        | some n, .tenant m => n == m
        | some n, .ld i => some (.ld i) == some mb || (ldBound s i && ldTenant s i == n)
      if !fnValid fn ∨ !mine then s.reply mb St.badDesc
      else
        let x := fnGet s fn
        s.reply mb St.ok (natLe 1 (match x.state with | .off => 0 | .on => 1 | .draining => 2 | .zeroising => 3) ++ natLe 6 x.ready)) s

/-! ### Drain and zeroisation of a function (R420, R421) -/

/-- Requests of a function in progress. -/
def fnReqs (s : State) (f : Fn) : List Req := s.reqs.filter (fun r => match f with
  | .tenant n => r.ten == n
  | .ld i => (r.ld.map Prod.fst) == some i)
/-- Requests of a tenant that the ingress stage has translated and the store has not performed; an LD's pass no switch core. -/
def fnQueued (f : Fn) (p : Place) : Bool := match f with
  | .tenant n => p.ten == n
  | .ld _ => false
/-- Engine steps a tenant submitted that have not ended. -/
def fnSteps (s : State) (f : Fn) : List Step := match f with
  | .tenant n => s.seq.steps.filter (fun x => x.job.isNone && x.tenant == n)
  | .ld i => s.seq.steps.filter (fun x => x.mb == some (.ld i))
def fnExts (s : State) (f : Fn) : List (Nat × Ext) := s.ext.exts.filter (fun e => e.2.state != 0 && (match f with
  | .tenant n => e.2.tenant == n
  | .ld i => e.2.holder == reqLd s i))
/-- ZEROISING begins: handles close and extents take the release path with ZERO set; a tenant's own lock covers its tiles (log 60, DEDUCED). -/
def zeroiseBegin (s : State) (f : Fn) : State :=
  let s := fnSet s f { (fnGet s f) with state := .zeroising }
  let s := match f with
    | .tenant n =>
      { s with hnd := { s.hnd with vts := s.hnd.vts.filter (fun e => e.2.tenant != n || !e.2.isOpen), colls := s.hnd.colls.filter (fun e => e.2.tenant != n || !e.2.taken) } }
    | .ld _ => s
  (fnExts s f).foldl (fun s e =>
    let s := extSet s e.1 { (extGet s e.1) with zero := true }
    if 4 ≤ e.2.state then s
    else match f with
      | .tenant _ => fence s e.1 s.time false [] none
      | .ld _ => fenceOwn s e.1 s.time false) s
def execFnDrainDone (fn : Fn) (s : State) : Out State :=
  hubOnly (fun s => if (fnGet s fn).state = .draining ∧ (fnReqs s fn).isEmpty ∧ !queuedAny s (fnQueued fn) ∧ (fnSteps s fn).isEmpty then zeroiseBegin s fn else s) s
/-- FN_DRAIN_CUT: 50 µs after f the remaining requests complete with E_LEASE (R394, R420). -/
def execFnDrainCut (fn : Fn) (s : State) : Out State :=
  hubOnly (fun s =>
    let x := fnGet s fn
    if x.state ≠ .draining then s
    else
      let s := s.upTo (x.since + 25000)
      let s := (fnReqs s fn).foldl (fun s r => cutReq s r St.lease) s
      let s := cutQueued s (fnQueued fn) St.lease
      let s := (fnSteps s fn).foldl (fun s x => endUnsched s { x with status := St.lease, data := [] }) s
      zeroiseBegin (pump s) fn) s
/-- What a tenant's zeroisation leaves (R421), but for its key. -/
def zeroiseTenant (s : State) (n : Nat) : State :=
  let s := { s with ext := { s.ext with pieces := s.ext.pieces.filter (fun e => e.2.tenant != n), next := s.ext.next.filter (fun e => e.2.tenant != n) } }
  let s := (tenantTiles s n).foldl (fun s t => releaseTile (dropLines s t) t) s
  let s := (tenantGet s n).locks.foldl lockDrop s
  let s := { s with host := { s.host with subs := s.host.subs.filter (fun x => x.1 != n) } }
  cohSet s { s.coh with recs := smSet (fun _ => []) s.coh.recs n [], readTo := smSet (fun _ => 0) s.coh.readTo n 0, ovfEp := s.coh.ovfEp.filter (· != n) }
/-- A logical device's: its ring registers, memory error registers and MSI-X table, which lies in its host's reach alone. -/
def zeroiseLd (s : State) (i : Nat) : State :=
  let s := [0x700120, 0x700128, 0x700130, 0x700138].foldl (fun s a => s.setReg (a + 0x40 * i) (regReset (a + 0x40 * i))) s
  let s := [0x700800, 0x700808].foldl (fun s a => s.setReg (a + 0x10 * i) (regReset (a + 0x10 * i))) s
  (sigSet s i {}).emit (.event "MSIX_TABLE_CLEAR" [i])
/-- The function enters OFF (R422). -/
def fnOff (s : State) (f : Fn) : State :=
  let x := fnGet s f
  let ready := s.tk.num + 1
  let s := fnSet s f { state := .off, ready := ready }
  let s := s.notice 0x0B40 [fnName f, ready] (fnTenant s f)
  let s := match f with
    | .ld i => eventLog s 16 0 (natLe 2 0x0B40 ++ natLe 2 i ++ natLe 6 ready)
    | .tenant _ => s
  match x.mb with | some mb => s.replyBg mb St.ok | none => s
/-- FN_OFF: everything is zeroised; a tenant's new key waits for the generator (R421, R513). -/
def execFnOff (fn : Fn) (s : State) : Out State :=
  supOn (fun s =>
    let x := fnGet s fn
    if x.state ≠ .zeroising ∨ !(fnExts s fn).isEmpty then s
    else match fn with
      | .tenant n =>
        if !s.sup.rngOk then s
        else
          let s := hubWork (fun s => zeroiseTenant s n) s
          hubWork (fun s => fnOff s fn) { s with sup := { s.sup with keyGen := smSet (fun _ => 0) s.sup.keyGen n ((smGet (fun _ => 0) s.sup.keyGen n + 1) % 2 ^ 32) } }
      | .ld i => hubWork (fun s => fnOff (zeroiseLd s i) fn) s) s

/-! ### Subscribers and the ring timer (R429, R434) -/

def execNoticeSub (mb : Mbx) (op hub ep : Nat) (s : State) : Out State :=
  mbxOnly mb (vendor mb .ten (fun s => match mbxTenant s mb with
    | none => s.reply mb St.rights
    | some n =>
      if 4096 ≤ hub ∨ epReserved ep ∨ 256 ≤ ep then s.reply mb St.badDesc
      else if op = 1 then
        (if s.host.subs.contains (n, hub, ep) then s.reply mb St.ok
         else if 8 ≤ (s.host.subs.filter (fun x => x.1 == n)).length then s.reply mb St.busy
         else ({ s with host := { s.host with subs := s.host.subs ++ [(n, hub, ep)] } }).reply mb St.ok)
      else if op = 2 then ({ s with host := { s.host with subs := s.host.subs.filter (· != (n, hub, ep)) } }).reply mb St.ok
      else s.reply mb St.badDesc)) s
/-- RING_COALESCE_TIMER: COAL_US µs after the first record no signal has covered. -/
def execRingCoalesceTimer (ld : Nat) (s : State) : Out State :=
  hubOnly (fun s => match (sigGet s ld).since with
    | some t => ringSignal (s.upTo (t + us (s.fld (F.HOST_RING_CTL_COAL_US ld)))) ld
    | none => s) s

/-! ### The link (R412, R437, R528) -/

/-- HOST_LINK_UP: while PERST_N is high and the start has reached ROM. -/
def execHostLinkUp (width rate : Nat) (s : State) : Out State :=
  hubOnly (fun s =>
    if s.host.linkUp ∨ s.host.perst ∨ s.sup.stage = .power then s
    else
      let low := width < 16 ∨ rate < 6
      let s := { s with host := { s.host with linkUp := true } }
      let s := (((s.put F.HOST_LINK_UP 1).put F.HOST_LINK_WIDTH width).put F.HOST_LINK_RATE rate).put F.HOST_LINK_DEGRADED (b2n (decide low))
      rejoinAll (if low then s.notice 0x0B43 else s)) s
/-- The host link goes down: every LD of it is lost (log 61, DEDUCED). -/
def linkDown (s : State) : State :=
  if !s.host.linkUp then s
  else
    let s := { s with host := { s.host with linkUp := false } }
    let s := (((s.put F.HOST_LINK_UP 0).put F.HOST_LINK_WIDTH 0).put F.HOST_LINK_RATE 0).put F.HOST_LINK_DEGRADED 0
    let s := s.notice 0x0B44
    pump ((List.range 16).foldl (fun s i => (slotsOfLd s i).foldl (fun s a => declareLost s a true) s) s)
def execHostLinkDown (s : State) : Out State := hubOnly linkDown s
/-- A mailbox of the host link whose completion is lost (R528). -/
def loseMb : Option Mbx → Option Mbx
  | some (.ld _) => some .gone
  | some .fm => some .gone
  | x => x
def loseMailboxes (s : State) : State :=
  { s with
    seq := { s.seq with jobs := s.seq.jobs.map (fun e => (e.1, { e.2 with release := e.2.release.map (fun m => (loseMb (some m)).getD .gone), clearing := loseMb e.2.clearing })), steps := s.seq.steps.map (fun x => { x with mb := loseMb x.mb }) },
    host := { s.host with busy := s.host.busy.filter (· == 17), tenants := s.host.tenants.map (fun e => (e.1, { e.2 with mb := loseMb e.2.mb })), lds := s.host.lds.map (fun e => (e.1, { e.2 with mb := loseMb e.2.mb })) },
    ext := { s.ext with exts := s.ext.exts.map (fun e => (e.1, { e.2 with mb := loseMb e.2.mb })) },
    herd := { s.herd with rebals := s.herd.rebals.map (fun r => { r with mb := (loseMb (some r.mb)).getD .gone }) },
    sup := { s.sup with job := s.sup.job.map (fun j => { j with mb := loseMb j.mb }), spdm := s.sup.spdm.filter (fun e => e.1 == 17) } }
/-- PERST_ASSERT: the mailboxes and the DOE connections are reset, and the link is lost. The pin is sampled whether or not the hub has main power. -/
def execPerstAssert (s : State) : Out State :=
  supAny (fun s =>
    let s := { s with host := { s.host with perst := true } }
    if s.on then hubWork linkDown (loseMailboxes s) else s) s
def execPerstRelease (s : State) : Out State := supAny (fun s => { s with host := { s.host with perst := false } }) s

end Sys2Proof.Machine
end

