-- ==== Sys2Proof/Machine/Herd.lean ====
section
/-! DEFINITION. Machine/Herd.lean: herds: their commands, messages, restart, culling, shadowing, and what a boundary does for them
(spec/16 R439 to R465). -/

namespace Sys2Proof.Machine

open Sys2Proof

def memberOf (h : Herd) (hub : Nat) : Option Member := (current h).find? (fun m => m.hub == hub)
def setMember (h : Herd) (hub : Nat) (f : Member → Member) : Herd := { h with members := h.members.map (fun m => if m.hub = hub then f m else m) }
/-- A message to every current member, this hub included. -/
def herdAll (s : State) (j msg epoch tick a0 : Nat) : State := (current (herdGet s j)).foldl (fun s m => herdSend s j m.hub msg 0 epoch tick a0 0 0) s
def leaderHub (h : Herd) : Nat := ((leaderOf h).map Member.hub).getD 0
/-- The member a BEAT goes to (R446). -/
def beatTo (s : State) (h : Herd) : Option Nat :=
  if isLeader s h then
    let me := ((memberOf h s.hubId).map Member.idx).getD 0
    ((current h).foldl (fun (b : Option Member) m => if m.idx ≤ me then b else match b with
      | none => some m
      | some x => if m.idx < x.idx then some m else b) none).map Member.hub
  else (leaderOf h).map Member.hub
/-- The members this hub expects beats from. -/
def beatFrom (s : State) (h : Herd) : List Member :=
  if isLeader s h then (current h).filter (fun m => m.hub != s.hubId)
  else (current h).filter (fun m => some m == leaderOf h && beatTo s { h with members := h.members.filter (fun x => x.hub != s.hubId || !x.lost) } == some m.hub && nextIs m)
where
  /-- The leader beats to the member with the next index, which is this hub. -/
  nextIs (m : Member) : Bool := ((current h).filter (fun x => m.idx < x.idx)).all (fun x => ((memberOf h s.hubId).map Member.idx).getD 0 ≤ x.idx)

/-! ### Commands (R439, R455 to R458, R460, R463) -/

def memberTable (s : State) (g : Image) : List Member := ((List.range g.memberIds.length).zip g.memberIds).map (fun p => { idx := p.1, hub := p.2, beat := s.tk.num })
def execHerdForm (mb : Mbx) (job id minMembers : Nat) (s : State) : Out State :=
  mbxOnly mb (vendor mb .sys (fun s =>
    let x := jobGet s job
    if 32 ≤ job ∨ x.state ≠ .admitted ∨ minMembers = 0 ∨ x.image.members < minMembers ∨ (herdSlots s).any (fun k => k != job && (herdGet s k).id == id) then s.reply mb St.badDesc
    else (herdSet s job { state := 1, id := id, min := minMembers, members := memberTable s x.image, formed := s.time, halved := s.time }).reply mb St.ok)) s
/-- The slot holds a herd record, and the issuer may name it. -/
def herdMine (s : State) (mb : Mbx) (job : Nat) : Bool := jobMine s mb job && hasHerd s job
def execHerdAbort (mb : Mbx) (job : Nat) (s : State) : Out State :=
  mbxOnly mb (vendor mb .tenSys (fun s => if herdMine s mb job then (raiseFault s job St.aborted 5).reply mb St.ok else s.reply mb St.badDesc)) s
/-- Culls that hold the budget now (R457). -/
def heldCulls (s : State) (h : Herd) : Nat := (h.culls.filter (fun c => s.time < c + 3600 * ms 1000)).length
def mayCull (s : State) (h : Herd) : Bool := let m := (current h).length; heldCulls s h < max 1 (m / 64) && h.min + 1 ≤ m
/-- One member is culled (R458). -/
def cull (s : State) (j hub : Nat) : State :=
  let h := herdGet s j
  let sc := ((memberOf h hub).map Member.score).getD 0
  let s := herdSet s j { h with members := h.members.filter (fun m => m.hub != hub), culls := s.time :: h.culls }
  (s.bump (F.HERD_COUNT_CULLS j)).notice 0x0904 [hub, sc] (jobGet s j).tenant (some j)
def execHerdCull (mb : Mbx) (job hub : Nat) (s : State) : Out State :=
  mbxOnly mb (vendor mb .sys (fun s =>
    let h := herdGet s job
    if 32 ≤ job ∨ h.state = 0 ∨ !isLeader s h ∨ (memberOf h hub).isNone then s.reply mb St.badDesc
    else if !mayCull s h then s.reply mb St.busy
    else (cull s job hub).reply mb St.ok)) s
def execHerdScoreClear (mb : Mbx) (job hub : Nat) (s : State) : Out State :=
  mbxOnly mb (vendor mb .sys (fun s =>
    let h := herdGet s job
    if 32 ≤ job ∨ h.state = 0 ∨ !isLeader s h ∨ (memberOf h hub).isNone then s.reply mb St.badDesc
    else (herdSet s job (setMember h hub (fun m => { m with score := 0, suspect := false }))).reply mb St.ok)) s
def execHerdStatus (mb : Mbx) (job : Nat) (s : State) : Out State :=
  mbxOnly mb (vendor mb .tenSys (fun s =>
    let h := herdGet s job
    if !herdMine s mb job then s.reply mb St.badDesc
    else s.reply mb St.ok (natLe 1 h.state ++ natLe 2 (current h).length ++ natLe 4 (h.committed.getD 0) ++ natLe 4 h.inProgress ++ natLe 6 h.lastStop))) s

/-! ### Restart: the leader's steps (R450, R453, R454, R457) -/

/-- Candidates in falling order of score, the lower hub ID first. -/
def insertCand (m : Member) : List Member → List Member
  | [] => [m]
  | x :: l => if x.score < m.score ∨ (x.score = m.score ∧ m.hub < x.hub) then m :: x :: l else x :: insertCand m l
/-- Culls at step 2: each candidate in turn, or SUSPECT. -/
def cullAll (s : State) (j : Nat) : State :=
  let th := s.fld F.HERD_CULL_THRESH
  (((current (herdGet s j)).filter (fun m => th ≤ m.score)).foldr insertCand []).foldl (fun s m =>
    let h := herdGet s j
    if mayCull s h then cull s j m.hub else herdSet s j (setMember h m.hub (fun m => { m with suspect := true }))) s
/-- The current membership differs from the image's table. -/
def memberChange (s : State) (j : Nat) : Bool :=
  let h := herdGet s j
  let l := (jobGet s j).image.memberIds
  !(l.all (fun i => (memberOf h i).isSome) && l.length == (current h).length)
def herdNote (s : State) (j code : Nat) (args : List Nat) : State := s.notice code args (jobGet s j).tenant (some j)
/-- Steps 3 of R450: every member, and the hubs that shadow one, restore the committed epoch. -/
def sendRestore (s : State) (j : Nat) : State :=
  let h := herdGet s j
  let e := h.committed.getD 0
  let je := match h.committed with | some e => epochTick (jobGet s j).image e | none => 0
  let s := herdSet s j { h with waitStop := false, members := h.members.map (fun m => { m with restored := none }) }
  let s := herdAll s j 0x04 e 0 je
  ((Config.herdShadows h.id).filter (fun x => (memberOf h x).isNone)).foldl (fun s x => herdSend s j x 0x04 0 e 0 je 0 0) s
/-- Step 2 and on, once every member has stopped or was declared lost. -/
def herdAdvance (s : State) (j : Nat) : State :=
  let h := herdGet s j
  if !(h.waitStop && isLeader s h && s.flag F.HERD_CTL_AUTO && (jobGet s j).state == .faulted && (current h).all (fun m => m.stopped)) then s
  else
    let s := herdSet s j { h with members := current h }
    let s := cullAll s j
    let h := herdGet s j
    if (current h).length < h.min then
      herdNote (herdAll (herdSet s j { h with state := 4, waitStop := false }) j 0x07 0 0 (current h).length) j 0x0907 []
    else if memberChange s j ∨ !h.joining.isEmpty then
      herdNote (herdAll (herdSet s j { h with state := 3, waitStop := false }) j 0x07 0 0 (current h).length) j 0x0905 []
    else sendRestore s j
/-- Step 5: every member has restored. -/
def sendArm (s : State) (j : Nat) : State :=
  let h := herdGet s j
  let st := s.tk.num + s.fld F.HERD_CTL_LEAD
  let je := match h.committed with | some e => epochTick (jobGet s j).image e | none => 0
  let s := herdAll s j 0x04 (h.committed.getD 0) st je
  ((Config.herdShadows h.id).filter (fun x => (memberOf h x).isNone)).foldl (fun s x => herdSend s j x 0x04 0 (h.committed.getD 0) st je 0 0) s
/-- The herd enters STALLED for lost data (R451). -/
def dataLost (s : State) (j : Nat) : State := herdNote (herdSet s j { (herdGet s j) with state := 4 }) j 0x0906 []
/-- The new image's member table names the current membership, with the shadows that passed; for a member that is not the leader, as
many members as the leader told it (R455, R461, R462). -/
def namesHerd (s : State) (h : Herd) (g : Image) : Bool :=
  let new := g.memberIds.filter (fun i => (memberOf h i).isNone)
  if h.state = 5 then g.memberIds.contains s.hubId
  else if isLeader s h then (current h).all (fun m => g.memberIds.contains m.hub) && new.all h.joining.contains
  else g.memberIds.contains s.hubId && (match h.told with | some n => g.members == n + new.length || g.members == n | none => new.isEmpty)
/-- A new image is accepted: the herd goes on with the members it names (R455). -/
def reimaged (s : State) (j : Nat) : State :=
  let h := herdGet s j
  let x := jobGet s j
  let s := jobSet s j { x with clearing := none, prior := none }
  let ms := (memberTable s x.image).map (fun m => match memberOf h m.hub with | some o => { o with idx := m.idx, restored := none } | none => { m with stopped := true })
  let s := herdSet s j { h with state := 1, members := ms, told := none, joining := [], work := 0, matched := 0, passed := false, active := false }
  if isLeader s (herdGet s j) ∧ s.flag F.HERD_CTL_AUTO then sendRestore s j else s
/-- HERD_REIMAGE (R455): the new reservations take the place of the old ones once room clearing is done (log 67, DEDUCED). -/
def execHerdReimage (mb : Mbx) (job va : Nat) (s : State) : Out State :=
  mbxOnly mb (vendor mb .ten (fun s =>
    let x := jobGet s job
    let h := herdGet s job
    if !herdMine s mb job ∨ x.state ≠ .faulted ∨ x.clearing.isSome ∨ (h.state ≠ 3 ∧ h.state ≠ 4 ∧ !(h.state = 5 ∧ h.passed)) then s.reply mb St.badDesc
    else
      let ((st, g), s) := readImage (jobSet s job {}) ((mbxTenant s mb).getD 0) va (ldReq s mb)
      let s := jobSet s job x
      match g with
      | none => s.reply mb st
      | some g =>
        if !namesHerd s h g then s.reply mb St.badDesc
        else
          let t := jobSet s job { x with image := g, holds := true, prior := some x.image }
          if roomOver t then clearGo (jobSet (t.hold mb) job { (jobGet t job) with clearing := some mb }) else (reimaged t job).reply mb St.ok)) s
/-- Room clearing for a slot has come to its end: the admission completes with OK. -/
def cleared (s : State) (j : Nat) (mb : Mbx) : State :=
  let x := jobGet s j
  if x.prior.isSome then (reimaged s j).replyBg mb St.ok else (admitJob s j x.image).replyBg mb St.ok (natLe 1 j)
/-- Room clearing has failed: no reservation of the image is taken. -/
def unadmitted (s : State) (j : Nat) : State :=
  let x := jobGet s j
  match x.prior with
  | some g => jobSet s j { x with image := g, clearing := none, prior := none }
  | none => herdClear (jobSet s j {}) j
/-- ROOM_CLEARING_DONE: the admission completes, with OK once U is within its limit, with E_BUSY where clearing fails (R99). -/
def execRoomClearingDone (job : Nat) (s : State) : Out State :=
  hubOnly (fun s => match (jobGet s job).clearing with
    | none => s
    | some mb =>
      let s := clearGo s
      if !roomOver s then cleared s job mb
      else if clearFailed s then (unadmitted s job).replyBg mb St.busy
      else s) s

/-! ### Restoring an epoch (R451) -/

/-- The checkpoint records a shadow derives from the image of its working member: every tile of every copy of epoch E. -/
def imageRecs (g : Image) (e : Nat) : List CkRec :=
  (g.slots.filter (fun sl => g.pro ≤ sl.tick && sl.tick < g.pro + g.body)).flatMap (fun sl => match g.steps[sl.step]? with
    | some d =>
      if getLE d 0 1 ≠ 4 then []
      else
        let b := d.drop 16
        let n := getLE b 8 4
        let dst := getLE b 16 8 + (if e % 2 = 1 then 65536 * n else 0)
        (List.range n).map (fun i => { epoch := e, vtile := (getLE b 0 8 / 65536 + i) % 2 ^ 36, version := 65536, partner := getLE b 12 2 % 4096, tag := getLE b 14 2, dstVa := dst + 65536 * i, crcp := 0 })
    | none => [])
/-- The tile of a virtual tile of a tenant, by its number here. -/
def vtileHere (s : State) (ten v : Nat) : Option Nat :=
  let (st, t) := xlate s ten (v * 65536) 0 none
  if st = St.ok then some (tileId s t.tile) else none
/-- A member begins to restore its tiles to an epoch. -/
def startRestore (s : State) (j e je : Nat) : State :=
  let h := herdGet s j
  let x := jobGet s j
  let h : Herd := if h.state = 5 ∧ !h.recs.any (fun r => r.epoch == e) then { h with recs := h.recs ++ imageRecs x.image e } else h
  let recs := if je = 0 then [] else h.recs.filter (fun r => r.epoch == e)
  let need := recs.filter (fun r => match vtileHere s x.tenant r.vtile with
    | some t => let y := tileGet s t; !(y.state == .sealed && y.version == r.version)
    | none => true)
  let gone := need.any (fun r => h.state != 5 && (memberOf h r.partner).isNone)
  let s := herdSet s j { h with state := if h.state = 5 then 5 else 2, restore := some e, wanted := if gone then [] else need.map (fun r => (r.vtile, s.tk.num)), restoreSt := if gone then some St.link else none }
  if gone then s
  else need.foldl (fun s r => herdSend s j r.partner 0x08 0 e 0 r.dstVa (1 + r.tag * 2 ^ 32) (r.vtile * 65536)) s
/-- RESTORE_COMPLETE: every copy is published, or one failed; RESTORED goes to the leader, once no forced state holds (R477). -/
def execRestoreComplete (job : Nat) (s : State) : Out State :=
  hubOnly (fun s =>
    let h := herdGet s job
    if s.damp.forced then s else match h.restore, h.restoreSt with
    | some e, some st =>
      let s := herdSet s job { h with restore := none, wanted := [], restoreSt := none, state := if h.state = 5 then 5 else 4 }
      herdSend s job (leaderHub h) 0x05 st e 0 0 0 0
    | some e, none =>
      if !h.wanted.isEmpty then s
      else herdSend (herdSet s job { h with restore := none, state := if h.state = 5 then 5 else 1 }) job (leaderHub h) 0x05 St.ok e 0 0 0 0
    | none, _ => s) s

/-! ### Messages (Table 16-3) -/

def mSender (c : Cell) : Nat := getLE c.payload 2 2
def mSeq (c : Cell) : Nat := getLE c.payload 8 4
def mEpoch (c : Cell) : Nat := getLE c.payload 12 4
def mTick (c : Cell) : Nat := getLE c.payload 16 6
def mArg (c : Cell) (i : Nat) : Nat := getLE c.payload (24 + 8 * i) 8
/-- A message's effect on the herd of slot j: its status and the state. -/
abbrev HerdEff := State → Nat → Cell → Nat × State
def beatMsg : HerdEff := fun s j c =>
  let st := bitOf (getLE c.payload 1 1) 0
  let h := setMember (herdGet s j) (mSender c) (fun m => { m with beat := s.tk.num, stopped := m.stopped || st })
  (St.ok, herdAdvance (herdSet s j h) j)
/-- EPOCH_DONE at the leader. -/
def epochDoneMsg : HerdEff := fun s j c => (St.ok, herdSet s j (setMember (herdGet s j) (mSender c) (fun m => { m with done := some (mEpoch c) })))
/-- An epoch becomes the committed one; the records of older epochs go (R448, R449). -/
def commitEpoch (s : State) (j e : Nat) : State :=
  let h := herdGet s j
  herdSet s j { h with committed := some e, recs := h.recs.filter (fun r => r.epoch == e || seqLater r.epoch e) }
def epochCommitMsg : HerdEff := fun s j c => (St.ok, commitEpoch s j (mEpoch c))
/-- RESTART: a member that waits for an image takes it later (log 40, DEDUCED). -/
def restartMsg : HerdEff := fun s j c =>
  let h := herdGet s j
  let x := jobGet s j
  if h.state = 3 ∨ h.state = 4 then (St.busy, s)
  else if x.state ≠ .faulted ∧ !(h.state = 5 ∧ x.state = .admitted) then (St.ok, s)
  else if mTick c = 0 then (St.ok, startRestore (if mArg c 0 = 0 ∨ h.state = 5 then s else commitEpoch s j (mEpoch c)) j (mEpoch c) (mArg c 0))
  else
    let s := armJob s j (mTick c) (mArg c 0)
    let s := herdSet s j { (herdGet s j) with active := h.state == 5, stop := none, matched := 0, digestWait := 0, copies := [], members := (herdGet s j).members.map (fun m => { m with stopped := false, restored := none, beat := s.tk.num }) }
    let (n, s) := s.draw
    let s := herdSet s j { (herdGet s j) with shadower := if h.state = 5 then none else Config.shadower n }
    (St.ok, herdNote (s.bump (F.HERD_COUNT_RESTARTS j)) j 0x0902 [mEpoch c, mArg c 0, mTick c])
/-- RESTORED at the leader. -/
def restoredMsg : HerdEff := fun s j c =>
  let st := getLE c.payload 1 1
  let h := setMember (herdGet s j) (mSender c) (fun m => { m with restored := some st })
  if (memberOf h (mSender c)).isNone then (St.ok, s)
  else
    let s := herdSet s j h
    if st ≠ St.ok then (St.ok, dataLost s j)
    else if isLeader s h ∧ (current h).all (fun m => m.restored == some St.ok) then (St.ok, sendArm s j) else (St.ok, s)
/-- A shadowing ends without a match; the slot is FAULTED at the coming boundary (R461). -/
def shadowFail (s : State) (j : Nat) : State :=
  let s := raiseFault s j St.aborted 1
  let h := herdGet s j
  herdNote (herdSet s j { h with active := false, matched := 0, digestWait := 0 }) j 0x0909 []
/-- DIGEST: the shadow compares it with its own of the last tick (R460, R461; log 65, DEDUCED). -/
def digestMsg : HerdEff := fun s j c =>
  let h := herdGet s j
  if !h.active ∨ mSender c ≠ h.work ∨ mTick c ≠ h.digest.1 then (St.ok, s)
  else if (mArg c 0, mArg c 1) ≠ h.digest.2 then (St.ok, shadowFail s j)
  else
    let n := min (h.matched + 1) (2 ^ 32 - 1)
    let s := herdSet s j { h with matched := n, digestWait := 0 }
    if s.fld F.HERD_CTL_SHADOW_TICKS ≤ n ∧ !h.passed then
      let s := herdNote (herdSet s j { (herdGet s j) with passed := true }) j 0x0908 []
      (St.ok, herdSend s j (leaderHub h) 0x09 0 0 0 0 0 0)
    else (St.ok, s)
/-- MEMBERS: the count is noted; a member whose job stands FAULTED waits for its image (log 39, DEDUCED). -/
def membersMsg : HerdEff := fun s j c =>
  let h := herdGet s j
  let h := { h with told := some (mArg c 0) }
  (St.ok, herdSet s j (if (jobGet s j).state = .faulted ∧ h.state ≠ 5 then { h with state := if mArg c 0 < h.min then 4 else 3 } else h))
def shadowPassedMsg : HerdEff := fun s j c =>
  let h := herdGet s j
  (St.ok, if isLeader s h then herdSet s j { h with joining := (mSender c :: h.joining).eraseDups } else s)
/-- RESTORE_REQ at the partner: a commanded copy back to the requester, or the status that keeps it from starting (log 64, DEDUCED). -/
def restoreReq (s : State) (c : Cell) : Nat × State :=
  let n := mArg c 1 % 2 ^ 32
  let tag := bits (mArg c 1) 47 32
  match (s.xlt.wins.map Prod.snd).find? (fun w => w.en && w.src == mSender c && w.tag == tag) with
  | none => (St.window, s)
  | some w =>
    let (r, s) := s.draw
    let body := natLe 8 (mArg c 0) ++ natLe 4 n ++ natLe 2 (mSender c) ++ natLe 2 tag ++ natLe 8 (mArg c 2) ++ natLe 4 (mEpoch c) ++ natLe 2 (1 + Config.freeNat r % 65535) ++ natLe 2 0
    let (st, _, _) := lockRuns s .checkpoint (tileRuns (rangeIds s w.winTenant (mArg c 0) n))
    if st ≠ St.ok then (st, s)
    else
      let (id, s) := stepAdd s { id := 0, tenant := w.winTenant, kind := 4, cls := 1, inst := 0, body := body, expect := n, start := s.time }
      (St.ok, match stepGet s id with | some x => runCkpt s x | none => s)
/-- A message is applied once: (JOB, MSG, SEQ) of its sender. -/
def herdApply (f : HerdEff) (c : Cell) (s : State) : State :=
  let key := (mSender c, getLE c.payload 0 1, mSeq c)
  match slotOfHerd s (getLE c.payload 4 4) with
  | none => respond s c 0x12 St.ok 0 []
  | some j =>
    if (herdGet s j).applied.contains key then respond s c 0x12 St.ok 0 []
    else
      let (st, s) := f s j c
      let s := if st = St.ok ∧ hasHerd s j then herdSet s j { (herdGet s j) with applied := key :: (herdGet s j).applied } else s
      respond s c 0x12 st 0 []
/-- The effect of a message code. -/
def herdEff (msg : Nat) : HerdEff :=
  if msg = 0x01 then beatMsg else if msg = 0x02 then epochDoneMsg else if msg = 0x03 then epochCommitMsg else if msg = 0x04 then restartMsg
  else if msg = 0x05 then restoredMsg else if msg = 0x06 then digestMsg else if msg = 0x07 then membersMsg
  else if msg = 0x08 then (fun s _ c => restoreReq s c) else if msg = 0x09 then shadowPassedMsg else fun s _ _ => (St.ok, s)
/-- A message to HERD_INBOX, by its code. -/
def herdMessage (c : Cell) (s : State) : State := herdApply (herdEff (getLE c.payload 0 1)) c s
/-- A row that takes one herd message. -/
def herdRow (msg : Nat) (f : HerdEff) (inp : Nat) (c : Cell) (s : State) : State :=
  arriveHere (fun c s => if isMsg herdInbox msg c then herdApply f c s else s) inp c s
def execBeat (inp : Nat) (c : Cell) (s : State) : Out State := hubOnly (herdRow 0x01 beatMsg inp c) s
def execEpochDone (inp : Nat) (c : Cell) (s : State) : Out State := hubOnly (herdRow 0x02 epochDoneMsg inp c) s
def execEpochCommit (inp : Nat) (c : Cell) (s : State) : Out State := hubOnly (herdRow 0x03 epochCommitMsg inp c) s
def execRestart (inp : Nat) (c : Cell) (s : State) : Out State := hubOnly (herdRow 0x04 restartMsg inp c) s
def execRestored (inp : Nat) (c : Cell) (s : State) : Out State := hubOnly (herdRow 0x05 restoredMsg inp c) s
def execDigest (inp : Nat) (c : Cell) (s : State) : Out State := hubOnly (herdRow 0x06 digestMsg inp c) s
def execMembers (inp : Nat) (c : Cell) (s : State) : Out State := hubOnly (herdRow 0x07 membersMsg inp c) s
def execRestoreReq (inp : Nat) (c : Cell) (s : State) : Out State := hubOnly (herdRow 0x08 (fun s _ c => restoreReq s c) inp c) s
def execShadowPassed (inp : Nat) (c : Cell) (s : State) : Out State := hubOnly (herdRow 0x09 shadowPassedMsg inp c) s
/-- HERD_MESSAGE_RETRY: every 100 µs until the WRITE_RSP returns OK (R462). -/
def execHerdMessageRetry (msg : Nat) (s : State) : Out State :=
  hubOnly (fun s => match s.ext.msgs.find? (fun m => m.id == msg && m.herd) with
    | some m => msgGive (s.upTo (m.sent + us 100)) m
    | none => s) s

/-! ### Liveness (R446) -/

/-- One BEAT for the herd of a slot this hub is a member of. -/
def sendBeat (s : State) (j : Nat) : State :=
  let h := herdGet s j
  if (memberOf h s.hubId).isNone then s
  else match beatTo s h with
    | some d => herdSend s j d 0x01 (b2n ((jobGet s j).state == .faulted)) 0 0 0 0 0
    | none => s
/-- BEAT_SEND: at the first boundary BEAT ticks after the last (R446; log 109, DESIGN CHOICE). -/
def execBeatSend (s : State) : Out State :=
  hubOnly (fun s =>
    if s.tk.num < s.herd.beatAt + s.fld F.HERD_CTL_BEAT then s
    else (herdSlots s).foldl sendBeat { s with herd := { s.herd with beatAt := s.tk.num } }) s
/-- A member is lost in every herd it belongs to: class 4 (Table 16-1). -/
def loseMember (s : State) (j hub : Nat) : State :=
  let h := herdGet s j
  if (memberOf h hub).isNone then s
  else
    let s := herdSet s j (setMember h hub (fun m => { m with lost := true, score := satAdd 16 m.score 1024 }))
    let s := raiseFault s j St.link 4
    let s := if (jobGet s j).state = .faulted then herdSet s j { (herdGet s j) with waitStop := true, restore := none, wanted := [], restoreSt := none } else s
    herdAdvance s j
/-- MEMBER_LOST: no BEAT in 3 × BEAT ticks. -/
def execMemberLost (job hub : Nat) (s : State) : Out State :=
  hubOnly (fun s =>
    let h := herdGet s job
    match (beatFrom s h).find? (fun m => m.hub == hub) with
    | some m => if h.state ≠ 0 ∧ m.beat + 3 * s.fld F.HERD_CTL_BEAT ≤ s.tk.num then (herdSlots s).foldl (fun s j => loseMember s j hub) s else s
    | none => s) s

/-! ### Scores and the cull budget (R457) -/

/-- The earliest of some instants. -/
def earliest (l : List Nat) : Option Nat := l.foldl (fun b c => some (match b with | some x => min x c | none => c)) none
/-- The end of a herd's present decay period. -/
def decayEnd (s : State) (j : Nat) : Nat := (herdGet s j).halved + s.fld F.HERD_CULL_DECAY * (3600 * ms 1000)
/-- One decay period of a herd ends: its scores are halved (R457). -/
def halveScores (s : State) (j : Nat) : State :=
  let h := herdGet s j
  herdSet s j { h with halved := decayEnd s j, members := h.members.map (fun m => { m with score := m.score / 2, suspect := m.suspect && decide (s.fld F.HERD_CULL_THRESH ≤ m.score / 2) }) }
/-- SCORE_DECAY: the earliest end of a herd's decay period comes (log 62, DESIGN CHOICE). -/
def execScoreDecay (s : State) : Out State :=
  hubOnly (fun s => match earliest ((herdSlots s).map (decayEnd s)) with
    | none => s
    | some t =>
      let s := s.upTo t
      ((herdSlots s).filter (fun j => decayEnd s j ≤ s.time)).foldl halveScores s) s
/-- CULL_BUDGET_EXPIRE: 3,600 s after the oldest cull. -/
def execCullBudgetExpire (s : State) : Out State :=
  hubOnly (fun s => match earliest ((herdSlots s).flatMap (fun j => (herdGet s j).culls)) with
    | none => s
    | some c =>
      let s := s.upTo (c + 3600 * ms 1000)
      (herdSlots s).foldl (fun s j => let h := herdGet s j; herdSet s j { h with culls := h.culls.filter (fun c => s.time < c + 3600 * ms 1000) }) s) s

/-! ### Shadows and rebalancing (R456, R460, R461) -/

/-- HERD_SHADOW: the image of the working member is admitted here (R460). -/
def execHerdShadow (mb : Mbx) (tenant va work id : Nat) (s : State) : Out State :=
  mbxOnly mb (vendor mb .sys (fun s =>
    if 512 ≤ tenant ∨ 4096 ≤ work ∨ (herdSlots s).any (fun k => (herdGet s k).id == id) then s.reply mb St.badDesc
    else match readImageAs s work tenant va reqSys, idleSlot s with
      | ((_, some g), s), some j => admitRoom (herdSet s j { state := 5, id := id, min := 1, members := memberTable s g, work := work, formed := s.time, halved := s.time }) j g mb
      | ((st, _), s), _ => s.reply mb st)) s
/-- DIGEST_MISSING: no DIGEST for 2 ticks. -/
def execDigestMissing (job : Nat) (s : State) : Out State :=
  hubOnly (fun s => let h := herdGet s job; if h.active ∧ 2 ≤ h.digestWait then shadowFail s job else s) s
/-- The tag of a tenant for a partner hub, by the inbound windows. -/
def tagOf (s : State) (ten hub : Nat) : Nat := (((s.xlt.wins.map Prod.snd).find? (fun w => w.en && w.winTenant == ten && w.src == hub)).map Ent3.tag).getD 0
/-- HERD_REBALANCE (R456): completes when every tile is published (log 63, DEDUCED). -/
def execHerdRebalance (mb : Mbx) (job partner epoch partnerVa tiles dstVa : Nat) (s : State) : Out State :=
  mbxOnly mb (vendor mb .ten (fun s =>
    if !herdMine s mb job ∨ 4096 ≤ partner ∨ !tileVa partnerVa tiles ∨ !tileVa dstVa tiles ∨ tiles = 0 ∨ 65536 < tiles then s.reply mb St.badDesc
    else
      let ten := (jobGet s job).tenant
      let (st, ids, s) := lockRuns s .rebalance (tileRuns (rangeIds s ten dstVa tiles))
      if st ≠ St.ok then s.reply mb st
      else
        let tag := tagOf s ten partner
        let r : Rebal := { job := job, mb := mb, locks := ids, epoch := epoch, partner := partner, tag := tag, partnerVa := partnerVa, dstVa := dstVa, tiles := tiles, tick := s.tk.num, left := (List.range tiles).map (fun i => dstVa / 65536 + i) }
        let s := { (s.hold mb) with herd := { s.herd with rebals := s.herd.rebals ++ [r] } }
        herdSend s job partner 0x08 0 epoch 0 partnerVa (tiles + tag * 2 ^ 32) dstVa)) s

/-! ### At a boundary (R449, R451, R459) -/

/-- The virtual tile number of a tile for a tenant. -/
def vtileOf (s : State) (ten t : Nat) : Option Nat :=
  let p := pairTile s t
  (List.range 8).findSome? (fun k =>
    let e := ent3Get s.xlt.segs (8 * ten + k)
    if e.en ∧ e.target ≤ p ∧ p < e.target + e.limit then some (e.vbase + (p - e.target)) else none)
/-- TILE_D of job j over the tile map change of a boundary: `b` before, `a` after (R459; log 38, DEDUCED). -/
def tileDigest (b a : State) (j : Nat) : Nat :=
  let ten := (jobGet b j).tenant
  b.st.tiles.foldl (fun d e =>
    let y := tileGet a e.1
    let mine := if e.2.state = .shadowed ∧ e.2.shFull then e.2.shJob == some j else e.2.tenant == ten
    if mine ∧ y.version ≠ e.2.version then match vtileOf a ten e.1 with
      | some v => Nat.xor d (crc64 (natLe 8 v ++ natLe 8 (crc64 (slotBytes a y.loc))))
      | none => d
    else d) 0
/-- The digests of the tick that ended, sent to the shadow (R459, R460). -/
def digestBoundary (b s : State) (j : Nat) : State :=
  let h := herdGet s j
  if (jobGet b j).state ≠ .running then s
  else
    let d := (b.tk.num, tileDigest b s j, smGet (fun _ => 0) s.herd.egress j)
    let s := herdSet s j { h with digest := d, digestWait := if h.active then h.digestWait + 1 else 0 }
    match h.shadower with
    | some x => if h.active then s else herdSend s j x 0x06 0 0 d.1 d.2.1 d.2.2 0
    | none => s
/-- Tiles restored and published at boundary k: their records take the new VERSION (R451, R456). -/
def restoreBoundary (s : State) (k j : Nat) : State :=
  let h := herdGet s j
  let ten := (jobGet s j).tenant
  let done := h.wanted.filter (fun w => w.2 < k && (match vtileHere s ten w.1 with | some t => (tileGet s t).state == .sealed && (tileGet s t).sealTick == k | none => false))
  if done.isEmpty then s
  else herdSet s j { h with wanted := h.wanted.filter (fun w => !done.contains w), recs := h.recs.map (fun r => if some r.epoch = h.restore ∧ done.any (fun w => w.1 == r.vtile) then { r with version := (match vtileHere s ten r.vtile with | some t => (tileGet s t).version | none => r.version) } else r) }
def rebalBoundary (s : State) (k : Nat) (r : Rebal) : State :=
  let ten := (jobGet s r.job).tenant
  let done := if r.tick < k then r.left.filter (fun v => match vtileHere s ten v with | some t => (tileGet s t).state == .sealed && (tileGet s t).sealTick == k | none => false) else []
  let h := herdGet s r.job
  let new : List CkRec := done.filterMap (fun v => (vtileHere s ten v).map (fun t =>
    { epoch := r.epoch, vtile := v, version := (tileGet s t).version, partner := r.partner, tag := r.tag, dstVa := r.partnerVa + 65536 * (v - r.dstVa / 65536), crcp := crc64 (slotBytes s (tileGet s t).loc) }))
  let s := if new.isEmpty ∨ h.state = 0 then s else herdSet s r.job { h with recs := h.recs.filter (fun x => !(x.epoch == r.epoch && done.contains x.vtile)) ++ new }
  let r' := { r with left := r.left.filter (fun v => !done.contains v) }
  if r'.left.isEmpty then
    let s := r.locks.foldl lockDrop s
    ({ s with herd := { s.herd with rebals := s.herd.rebals.filter (· != r) } }).replyBg r.mb St.ok
  else { s with herd := { s.herd with rebals := s.herd.rebals.map (fun x => if x = r then r' else x) } }
/-- The leader commits the latest epoch every current member has finished (R449). -/
def commitBoundary (s : State) (j : Nat) : State :=
  let h := herdGet s j
  if !isLeader s h ∨ h.state = 5 ∨ (current h).isEmpty ∨ !(current h).all (fun m => m.done.isSome) then s
  else
    let ds := (current h).filterMap Member.done
    let e := ds.foldl (fun a d => if seqLater a d then d else a) (ds.headD 0)
    if h.committed == some e || (match h.committed with | some c => seqLater c e | none => false) then s
    else herdAll (commitEpoch s j e) j 0x03 e 0 0
/-- The job of a herd stops at its stop boundary k (R443, step 1 of R450). -/
def herdStopped (s : State) (j k origin reason : Nat) : State :=
  let h := herdGet s j
  let s := herdNote (herdSet s j (setMember { h with stop := none, lastStop := k, lastReason := reason, copies := [], waitStop := true } s.hubId (fun m => { m with stopped := true }))) j 0x0901 [origin, reason, k]
  let h := herdGet s j
  let s := if isLeader s h ∨ (memberOf h s.hubId).isNone then s else match leaderOf h with | some m => herdSend s j m.hub 0x01 1 0 0 0 0 0 | none => s
  herdAdvance s j
/-- What the herds do at boundary k; `b` is the state before the tile map changed. -/
def herdBoundary (b s : State) (k : Nat) : State :=
  let s := (herdSlots s).foldl (fun s j => commitBoundary (restoreBoundary (digestBoundary b s j) k j) j) s
  let s := s.herd.rebals.foldl (fun s r => rebalBoundary s k r) s
  { s with herd := { s.herd with egress := [], stepDig := [] } }

end Sys2Proof.Machine
end

