-- ==== Sys2Proof/Machine/Views.lean ====
section
/-! DEFINITION. Machine/Views.lean: what a register reads as where the hub itself keeps its fields, and what the reserved area's
hub-owned structures read as (R9, R11, R64, R548, R555, and the register tables of each chapter). -/

namespace Sys2Proof.Machine

open Sys2Proof

/-- A register's value from its fields: (low bit, value). -/
def pk (l : List (Nat × Nat)) : Nat := l.foldl (fun n f => n + f.2 * 2 ^ f.1) 0

/-! ### Codes -/

def JobState.code : JobState → Nat
  | .idle => 0
  | .admitted => 1
  | .armed => 2
  | .running => 3
  | .faulted => 4
  | .complete => 5
def TState.code : TState → Nat
  | .free => 0
  | .sealed => 1
  | .opened => 2
  | .shadowed => 3
  | .inTransit => 4
  | .retired => 5
def PState.code : PState → Nat
  | .down => 0
  | .detect => 1
  | .train => 2
  | .lock => 3
  | .negotiate => 4
  | .up => 5
  | .recover => 6
  | .disabled => 7
def FnState.code : FnState → Nat
  | .off => 0
  | .on => 1
  | .draining => 2
  | .zeroising => 3
def Stage.code : Stage → Nat
  | .off => 0
  | .power => 1
  | .rom => 2
  | .verify => 3
  | .config => 4
  | .store => 5
  | .yoke => 6
  | .apply => 7
  | .run => 8
  | .recovery => 9

/-! ### What the supervisor holds -/

/-- Names of the AON registers and of the Cellar's, the SEC, YOKE, CLK and DBG blocks (Tables 18-12 to 18-14, 19-13, 19-14) (log 69, DESIGN CHOICE). -/
def supView (s : State) (name : String) (i : Nat) : Option Nat :=
  let u := s.sup
  match name with
  | "GEN_BEHAVIOUR_LEVEL" => some (pk [(0, Config.levelHigh), (16, Config.levelLow), (32, u.level)])
  | "GEN_STATUS" => some (pk [(0, b2n (u.stage == .run)), (1, b2n u.lock), (2, b2n u.yoked), (3, b2n (u.debug != 0)), (4, b2n (u.stage == .recovery))])
  | "CELL_START" => some (pk [(0, u.stage.code), (8, u.reason), (16, u.level)])
  | "CELL_CFG" => some (pk [(0, b2n u.cfgNone), (1, b2n u.current), (2, b2n u.aValid), (3, b2n u.bValid), (4, b2n u.job.isSome), (16, u.skipped), (32, u.hdr.seq)])
  | "CELL_IMAGE" => some (pk [(0, u.imgLevelMax), (24, u.imgKey), (32, u.imgSvn)])
  | "CELL_MONO_n" => some (smGet (fun _ => 0) u.cellar.mono i)
  | "SEC_LOCK" => some (b2n u.lock)
  | "SEC_SERIAL" => some Config.serial
  | "SEC_RNG" => some (pk [(0, b2n u.rngOk), (32, u.rngFails)])
  | "SEC_DEBUG" => some u.debug
  | "SEC_DEBUG_NONCE" => some (if i = 0 then u.nonce0 else u.nonce1)
  | "SEC_KEY_GEN_n" => some (smGet (fun _ => 0) u.keyGen i)
  | "CLK_LOCK" => some (pk [(0, u.locks % 2 ^ 15), (15, b2n u.aux), (16, 1), (17, b2n (match u.tck with | some t => decide (s.time < t + ms 1) | none => false))])
  | "CLK_RESET_CAUSE" => some u.cause
  | "CLK_TBS_TRIM" => some (if isRoot s then 0 else ofSigned 32 (Config.freeInt s.free % 100001 - 50000))
  | "YOKE_STATUS" => some (pk [(0, u.yokeState), (2, b2n u.hdr.upper), (8, u.yokeReason), (48, u.hdr.pairId)])
  | "YOKE_PEER" => some u.peerSerial
  | "DBG_STATUS" => some (pk [(0, u.debug), (8, u.tokLast), (32, u.tokFails)])
  | "DAMP_TRIP" => some (pk [(0, u.tripTick), (48, u.tripSensor), (63, b2n u.trip)])
  | "FAB_NODE" => some (pk [(0, u.hubId), (12, b2n u.yoked), (13, b2n u.upper)])
  | _ => none

/-! ### Time, jobs, the store -/

/-- Spec/01 to spec/03 and spec/17. -/
def timeView (s : State) (name : String) (i : Nat) : Option Nat :=
  let t := s.tk
  let d := s.damp
  match name with
  | "TICK_NOW" => some t.num
  | "TICK_TIME" => some s.time
  | "TICK_STRETCH" => some (pk [(0, t.cur), (8, (t.pend.map Prod.fst).getD 0), (15, b2n t.pend.isSome), (16, (t.pend.map Prod.snd).getD 0)])
  | "TICK_STATUS" => some (pk [(0, b2n t.aligned), (1, b2n t.holdover), (2, s.fld F.TICK_STATUS_ALIGN_WARN), (3, s.fld F.TICK_STATUS_ALIGN_LOST), (4, s.fld F.TICK_STATUS_LOST), (5, s.fld F.TICK_STATUS_CFG_ERR), (32, t.foreign)])
  | "TICK_OFFSET" => some (ofSigned 32 t.offset)
  | "SEQ_JOB_STATE_j" => let x := jobGet s i; some (pk [(0, x.state.code), (32, x.tenant), (48, x.phase)])
  | "SEQ_JOB_START_j" => some (jobGet s i).start
  | "SEQ_JOB_STEP_j" => let x := jobGet s i; some (pk [(0, bodyRep x.image x.tick), (32, x.tick % 2 ^ 32)])
  | "DAMP_POWER" => some (pk [(0, fastPower s), (32, meanInput s)])
  | "DAMP_STATE" => some (pk [(0, d.be), (4, d.emerg), (7, b2n d.forced), (8, d.want), (16, d.sCap), (24, d.sTherm)])
  | "DAMP_REASON" => some (reasonBits s)
  | "DAMP_PHASE" => some (match d.phases[s.fld F.DAMP_PHASE_SEL_INDEX]? with
      | some e => pk [(0, e.energy), (32, e.phase), (50, e.cls), (53, e.job), (63, 1)]
      | none => 0)
  | "DAMP_TEMP_i" => let x := sensorGet s i; some (pk [(0, ofSigned 16 x.temp), (16, b2n x.fail)])
  | _ => none
/-- Spec/02 and spec/03. -/
def storeView (s : State) (name : String) (i : Nat) : Option Nat :=
  match name with
  | "TILE_FREE_SLOTS" => some (pk [(0, tierFree s false), (32, tierFree s true)])
  | "TILE_USED" => some (pk [(0, ((ownTiles s).filter (fun e => e.2.state != .free)).length), (32, ((ownTiles s).filter (fun e => e.2.state == .opened)).length)])
  | "TILE_SCRUB_STATUS" => some (pk [(0, s.st.scrubNext), (32, s.st.scrubPasses)])
  | "TILE_BAD_SLOTS" => let l := s.st.bad.filter (fun l => !locPeer l); some (pk [(0, (l.filter (fun l => !locFar l)).length), (32, (l.filter locFar).length)])
  | "MIG_PIN" => some (pk [(0, s.fld F.MIG_PIN_MAX), (32, ((ownTiles s).filter (fun e => e.2.hint == 3)).length)])
  | "MIG_ROOM" => some (pk [(0, roomUnsched s), (32, roomHeld s)])
  | "MIG_LOCKS" => some (pk [(0, locksHeld s), (32, s.fld F.MIG_LOCKS_REFUSED)])
  | "MIG_JOB_ROOM_j" => some (pk [(0, jobCharged s i), (32, jobRoom s i)])
  | _ => none

/-! ### Engines, handles -/

/-- The step an engine runs now. -/
def engineStep (s : State) (cls inst : Nat) : Option Step :=
  s.seq.steps.find? (fun x => x.cls == cls && x.inst == inst && !x.waiting && !x.suspended)
/-- The common part of CHRN_ENG, ROWE_ENG and STRN_ENG. -/
def engWord (x : Option Step) (posts : Bool) (extra : Step → List (Nat × Nat)) : Nat := match x with
  | some x => pk ([(0, x.job.getD 0), (8, 1), (40, x.kind)] ++ extra x)
  | none => pk [(8, b2n posts)]
/-- Spec/05, spec/12 and spec/13. -/
def engView (s : State) (name : String) (i : Nat) : Option Nat :=
  match name with
  | "CHRN_ENG_e" => some (engWord (engineStep s 1 i) (s.chrn.posts.any (fun p => p.tile % 16 == i)) (fun x => [(48, if x.kind = 1 then (redOf x.body).rid else if x.kind = 4 then (ckptOf x).rid else 0)]))
  | "CHRN_FIT_WAIT_e" => some (satAdd 64 (s.fld (F.CHRN_FIT_WAIT_COUNT i)) ((s.chrn.held.filter (fun h => h.eng == some i)).foldl (fun n h => n + (s.time - h.since) * 5) 0))
  | "ROWE_ENG_e" => some (engWord (engineStep s 2 i) false (fun x => [(48, (rowOf x.body).vt)]))
  | "STRN_ENG_e" => some (engWord (engineStep s 3 i) false (fun x => [(16, x.aux.headD 0)]))
  | "ROWE_VT_STATE_h" => let v := vtGet s i; some (pk [(0, v.version), (32, v.tenant), (61, b2n v.old.isSome), (62, b2n v.next.isSome), (63, b2n v.isOpen)])
  | "ROWE_VT_CUR_h" => some (vtGet s i).cur
  | "ROWE_VT_NEXT_h" => some ((vtGet s i).next.getD 0)
  | "ROWE_VT_BOUND_h" => let v := vtGet s i; some (pk [(0, vtBound s i v.version), (32, match v.old with | some o => vtBound s i o | none => 0)])
  | "STRN_RETAINED" => some (s.st.retained.filter (fun r => r.loc != noLoc && !locPeer r.loc)).length
  | "STRN_COLL_STATE_h" => let c := collGet s i; some (pk [(0, collBound s i), (32, c.tenant), (62, b2n c.pend), (63, b2n c.isOpen)])
  | "STRN_COLL_REC_h" => some (collGet s i).va
  | _ => none

/-! ### Fabric, coherence, translation, extents, functions, herds -/

/-- Spec/06 to spec/08, spec/10, spec/11. -/
def fabView (s : State) (name : String) (i j : Nat) : Option Nat :=
  match name with
  | "FAB_PORT_STATUS_n" =>
    let p := portGet s i
    let g := p.peer.orElse (fun _ => p.neg)
    some (pk [(0, p.state.code), (3, match g with | some g => b2n (!g.hub) | none => 0), (4, (g.map Neg.node).getD 0), (16, (g.map Neg.port).getD 0), (24, p.lanes)])
  | "SWX_BUF" => some (pk [(0, s.fld F.SWX_BUF_INT_RES), (32, 262144 - (inUse s).length)])
  | "SHP_SHP_TOK_q_k" => some (shaperTok s i j)
  | "COH_STATUS" => some (pk [(0, s.fld F.COH_STATUS_CFG_ERR), (1, b2n (!s.coh.decls.isEmpty))])
  | "COH_LOST_AGENTS" => some s.coh.lost
  | "COH_LOST_n" => some (pk [(0, (smGet (fun _ => []) s.coh.recs i).length), (32, s.fld (F.COH_LOST_OVERFLOW i))])
  | "FLT_STATUS" => some (pk [(0, s.xlt.faults.length), (32, (s.xlt.faults.head?.map FltE.seq).getD 0)])
  | "FLT_OVF_COUNT_n" => some (ovfGet s i).count
  | "FLT_OVF_FIRST_n" => some (ovfGet s i).first
  | "FLT_OVF_LAST_n" => some (ovfGet s i).last
  | "FLT_PENDING_n" => some (s.xlt.faults.filter (fun e => e.tenant == i)).length
  | _ => none
/-- Spec/14 to spec/16. -/
def hostView (s : State) (name : String) (i : Nat) : Option Nat :=
  match name with
  | "EXT_EPOCH_n" => some (pk [(0, epochOf s i), (16, ((epochGet s i).map Prod.snd).getD 0), (28, b2n (s.ext.pieces.any (fun e => e.2.state != 0 && e.2.tenant == i)))])
  | "HOST_LD_CFG_i" => let x := ldGet s i; some (pk [(0, x.state.code), (2, ldTenant s i), (11, b2n (ldBound s i)), (50, x.ready % 2 ^ 14)])
  | "HOST_TENANT_n" => let x := tenantGet s i; some (pk [(0, x.state.code), (16, x.ready)])
  | "HERD_SCORE" =>
    let h := herdGet s (s.fld F.HERD_SCORE_SEL_JOB)
    some (match h.members.find? (fun m => m.idx == s.fld F.HERD_SCORE_SEL_INDEX) with
      | some m => pk [(0, m.score), (16, m.hub), (28, b2n m.suspect)]
      | none => 0)
  | "HERD_ID_j" => let h := herdGet s i; some (pk [(0, h.id), (32, leaderHub h)])
  | "HERD_MEMB_j" => let h := herdGet s i; some (pk [(0, h.state), (16, h.min), (32, h.told.getD (current h).length)])
  | "HERD_EPOCH_j" => let h := herdGet s i; some (pk [(0, h.committed.getD 0), (32, h.inProgress)])
  | "HERD_STOP_j" => let h := herdGet s i; some (pk [(0, h.lastStop), (56, h.lastReason)])
  | "HERD_SHADOW_j" => let h := herdGet s i; some (pk [(0, h.work), (12, b2n h.active), (13, b2n h.passed), (32, h.matched)])
  | "HERD_COUNT_j" => some (pk [(0, s.fld (F.HERD_COUNT_RESTARTS i)), (24, s.fld (F.HERD_COUNT_CULLS i)), (48, heldCulls s (herdGet s i))])
  | _ => none
/-- What the hub computes for a register, if anything. -/
def viewOf (s : State) (name : String) (i j : Nat) : Option Nat :=
  (supView s name i).orElse (fun _ => (timeView s name i).orElse (fun _ => (storeView s name i).orElse (fun _ =>
    (engView s name i).orElse (fun _ => (fabView s name i j).orElse (fun _ => hostView s name i)))))
/-- A register read whole at a BAR0 address (R9, R11): an address that holds none reads 0. -/
def regRead (s : State) (a : Nat) : Nat :=
  match regFind a with
  | none => 0
  | some (r, i, j) => (match viewOf s r.name i j with | some v => v | none => (s.reg a).toNat) % 2 ^ 64

/-- A read access to BAR0 (R9, R11): an aligned 64-bit one reads the whole register, an aligned 32-bit one either half; any other
size or alignment is an unsupported request. -/
def busRead (s : State) (off size : Nat) : Option Nat :=
  if size = 8 ∧ off % 8 = 0 then some (regRead s off)
  else if size = 4 ∧ off % 8 = 0 then some (regRead s off % 2 ^ 32)
  else if size = 4 ∧ off % 8 = 4 then some (regRead s (off - 4) / 2 ^ 32)
  else none

/-! ### Structures of the reserved area (R64, R69, R228, R239, R305, R384, R396) -/

/-- A tile map entry's four words (Table 02-3). -/
def tileWords (x : Tile) : List Nat :=
  [x.crc, pk [(0, x.loc), (32, x.format), (43, b2n x.oldLost), (44, b2n x.oldOpen), (45, x.state.code), (48, x.version)],
   pk [(0, x.alt), (36, x.hint), (39, x.tenant), (48, x.key)], x.sealTick]
def entryBytes (x : Tile) : List Byte := (tileWords x).flatMap (natLe 8)
/-- An extent entry (Table 14-1). -/
def extBytes (x : Ext) : List Byte :=
  natLe 1 x.state ++ natLe 1 (b2n x.zero + 2 * b2n x.dcd) ++ natLe 2 x.tenant ++ natLe 4 (x.gen % 2 ^ 18) ++ natLe 8 x.start ++ natLe 8 x.len
  ++ natLe 4 x.holder ++ natLe 1 x.rights ++ natLe 3 0 ++ natLe 4 x.period ++ natLe 4 x.seq ++ natLe 8 x.renewed ++ natLe 8 x.fence ++ natLe 8 0
/-- A checkpoint record's entry (Table 16-2). -/
def ckEntryBytes (r : CkRec) : List Byte :=
  natLe 8 r.vtile ++ natLe 2 r.version ++ natLe 2 r.partner ++ natLe 2 r.tag ++ natLe 2 0 ++ natLe 8 r.dstVa ++ natLe 8 r.crcp
/-- The checkpoint records as they lie at HERD_META, by entry (R448; log 66, DESIGN CHOICE). -/
def ckPlaced (s : State) : List (Nat × CkRec) :=
  s.herd.herds.flatMap (fun e => e.2.recs.mapIdx (fun i r => (Config.metaPlace e.1 r.epoch i, r)))
/-- One byte of the reserved area: a structure the hub owns, or what lies there. -/
def resvByte (s : State) (a : Nat) : Byte :=
  let part := fun (base size n : Nat) (f : Nat → List Byte) => if base ≤ a ∧ a < base + size * n then some ((f ((a - base) / size)).getD ((a - base) % size) 0) else none
  let r := (part 0x2E000000000 32 tileCount (fun t => entryBytes (tileGet s t))).orElse (fun _ =>
    (part 0x2E05C000000 8 65536 (fun g => natLe 8 (groupGet s g))).orElse (fun _ =>
    (part 0x2E05C080000 2 65536 (fun t => natLe 2 (smGet (fun _ => 0) s.fab.tags t))).orElse (fun _ =>
    (part 0x2E05C100000 4096 512 (fun n => (smGet (fun _ => []) s.coh.recs n).flatMap lostBytes)).orElse (fun _ =>
    (part 0x2E05C400000 64 65536 (fun i => pieceBytes (pieceGet s i))).orElse (fun _ =>
    (part 0x2E05C800000 64 16384 (fun i => extBytes (extGet s i))).orElse (fun _ =>
    ((ckPlaced s).find? (fun p => a / 32 == 0x2E080000000 / 32 + p.1)).map (fun p => (ckEntryBytes p.2).getD (a % 32) 0)))))))
  r.getD (Memory.read s.resv a)
/-- Bytes of the reserved area. -/
def resvBytes (s : State) (a n : Nat) : List Byte := (List.range n).map (fun k => resvByte s (a + k))
/-- An address lies in a structure the hub alone writes. -/
def hubOwned (a : Nat) : Bool := a < 0x2E05C0A0000 || (0x2E05C100000 ≤ a && a < 0x2E05C300000) || (0x2E05C400000 ≤ a && a < 0x2E05C900000) || (0x2E05CA00000 ≤ a && a < 0x2E05CE00000)

end Sys2Proof.Machine
end

