-- ==== Sys2Proof/Machine/Power.lean ====
section
/-! DEFINITION. Machine/Power.lean: starts, resets, main and auxiliary power, clocks, and the configuration lock (R506, R528 to R540,
R561): the operations, and the meanings of the power rows. -/

namespace Sys2Proof.Machine

open Sys2Proof

def supSet (s : State) (u : Sup) : State := { s with sup := u }

/-! ### The configuration lock (R506) -/

/-- The lock is set; setting it again does nothing. -/
def setLock (s : State) : State := if s.sup.lock then s else (supSet s { s.sup with lock := true }).notice 0x0B0A

/-! ### What a start leaves (R492, R535, R561) -/

/-- A Cellar write that loses power or meets a warm reset: the copy is invalid, an image is torn (R501, R521, R537) (log 72, DEDUCED). -/
def cellarTear (n : Nat) (u : Sup) : Cellar := match u.job with
  | none => u.cellar
  | some w =>
    if w.kind ≥ 2 then { u.cellar with imageTorn := some n }
    else if w.toB then { u.cellar with copyB := [] } else { u.cellar with copyA := [] }
/-- What survives in the supervisor: the AON domain, the straps and the level of the reset pin, the Cellar, and at a warm reset the rails
and RWS fields. -/
def aonSup (warm : Bool) (n : Nat) (u : Sup) : Sup :=
  { aux := u.aux, tripped := u.tripped, removed := u.removed, sbI3c := u.sbI3c, sbAddr := u.sbAddr, sbDyn := u.sbDyn, warmHeld := u.warmHeld, cause := u.cause, trip := u.trip, tripSensor := u.tripSensor, tripTick := u.tripTick, tripNote := u.tripNote, cellar := cellarTear n u, rails := if warm then u.rails else 0, pwrGood := warm && u.pwrGood, locks := if warm then u.locks else 0, rngFails := if warm then u.rngFails else 0, tokFails := if warm then u.tokFails else 0 }
/-- The registers a warm reset keeps: RWS fields, and DAMP_ENERGY (R466); every other field takes its reset value. -/
def warmRegs (m : SMap (BitVec 64)) : SMap (BitVec 64) :=
  m.foldl (fun out e => match regFind e.1 with
    | none => out
    | some (r, _, _) =>
      let old := e.2.toNat
      let v := (r.fields.filter (fun f => f.acc == .rws || r.name == "DAMP_ENERGY")).foldl (fun v f => setBits v f.hi f.lo (bits old f.hi f.lo)) (regReset e.1).toNat
      smSet regReset out e.1 (BitVec.ofNat 64 v)) []
/-- The hub with main power off: only the AON domain and the Cellar keep anything (R534, R561). -/
def powerOff (s : State) : State :=
  let (n, s) := s.draw
  ({ pending := s.pending, free := s.free, out := s.out, host := { perst := s.host.perst }, sup := aonSup false n s.sup } : State)
/-- A start begins in POWER; nonces are drawn afresh (R492, R516) (log 68, DEDUCED) (log 95, DEDUCED). A tenant slot out of service stays so
until the next cold start (R90). PASSES has access RO and begins again at 0 at a warm reset too (log 110, DESIGN CHOICE). -/
def beginStart (s : State) (warm retried : Bool) (cause : Nat) : State :=
  let (n, s) := s.draw
  let (a, s) := s.draw
  let (b, s) := s.draw
  let u := aonSup warm n s.sup
  { pending := s.pending, free := s.free, out := s.out, host := { perst := s.host.perst }, regs := if warm then warmRegs s.regs else [], st := { bad := if warm then s.st.bad else [] }, sup := { u with stage := .power, retried := retried, cause := u.cause ||| cause, nonce0 := Config.fresh64 a % 2 ^ 64, nonce1 := Config.fresh64 b % 2 ^ 64 } }
/-- A warm reset with a cause bit (R535, R537): none while main power is off or a trip holds the hub. -/
def warmStart (s : State) (cause : Nat) : State := if !s.on ∨ s.sup.tripped then s else (beginStart s true false cause).emit (.pin "HUB_READY" false)
/-- Main power goes: PWR_GOOD and HUB_READY fall at once (R534). -/
def mainOff (s : State) (cause : Nat) : State :=
  let s := powerOff (supSet s { s.sup with cause := s.sup.cause ||| cause })
  (s.emit (.pin "PWR_GOOD" false)).emit (.pin "HUB_READY" false)
/-- A thermal trip (R483): sensor and tick recorded, every main rail off, THERMTRIP_N low, and SB_ALERT_N with it (R545) (log 71, DEDUCED). -/
def thermalTrip (s : State) (sensor : Nat) : State :=
  let s := supSet s { s.sup with trip := true, tripSensor := sensor, tripTick := s.tk.num, tripNote := true, tripped := true, removed := false }
  ((mainOff s 0).emit (.pin "THERMTRIP_N" false)).emit (.pin "SB_ALERT_N" false)

/-! ### Rows -/

/-- AUX_POWER_ON: AUX_3V3 applied while main power is off. -/
def execAuxPowerOn (mode : Bool) (addr : Nat) (s : State) : Out State :=
  supAny (fun s => if s.on then s else
    supSet s { s.sup with aux := true, sbI3c := mode, sbAddr := addr % 4, sbDyn := none, cause := 1, trip := false, tripSensor := 0, tripTick := 0 }) s
def execAuxPowerLoss (s : State) : Out State := supAny (fun s => supSet s { s.sup with aux := false, sbDyn := none }) s
def execAuxPowerReturn (s : State) : Out State := supAny (fun s => if s.on then supSet s { s.sup with aux := true } else s) s
/-- POWER_START: a cold reset; after a trip only once main power was removed and applied again (R533, R537). -/
def execPowerStart (s : State) : Out State :=
  supAny (fun s =>
    if s.on ∨ !s.sup.aux then s
    else if s.sup.tripped then
      (if s.sup.removed then
        (beginStart (supSet s { s.sup with tripped := false, removed := false }) false false 0x82).emit (.pin "THERMTRIP_N" true)
      else s)
    else beginStart s false false 2) s
def execMainEnFall (s : State) : Out State := supAny (fun s => if s.on then mainOff s 0 else s) s
/-- MAIN_POWER_FAULT: undervoltage also counts as main power removed. -/
def execMainPowerFault (f : SupplyFault) (s : State) : Out State :=
  supAny (fun s =>
    let s := if s.on then mainOff s (match f with | .under => 32 | .over => 64) else s
    match f with
    | .under => if s.sup.tripped then supSet s { s.sup with removed := true } else s
    | .over => s) s
/-- WARM_RESET_PIN: the pin holds the start in POWER until it is released. -/
def execWarmResetPin (s : State) : Out State :=
  supAny (fun s => if !s.on ∨ s.sup.tripped then s else let s := warmStart s 4; supSet s { s.sup with warmHeld := true }) s
def execHubResetRelease (s : State) : Out State := supAny (fun s => supSet s { s.sup with warmHeld := false }) s
def execWatchdogExpire (s : State) : Out State := supAny (fun s => if s.sup.stage = .run then warmStart s 16 else s) s
/-- PLL_LOCK_LOST: a class 3 fault of every job; its status is one that Table 16-1 gives class 3 (log 42, DEDUCED). -/
def execPllLockLost (dom : Nat) (s : State) : Out State :=
  supOn (fun s =>
    if s.sup.stage ≠ .run ∨ 15 ≤ dom then s
    else
      let s := supSet s { s.sup with locks := clearBit s.sup.locks dom, pllLost := some (s.sup.pllLost.getD s.time) }
      let (n, s) := s.draw
      { (faultAllJobs s (if Config.freeNat n % 2 = 0 then St.aborted else St.link) 3) with sup := s.sup }) s
/-- PLL_RESET_TIMER: 1 ms after the loss; no cause bit names it. -/
def execPllResetTimer (s : State) : Out State := supOn (fun s => if s.sup.pllLost.isSome then warmStart s 0 else s) s
/-- I3C_DYNAMIC_ADDRESS: only an I3C target takes one (R541). -/
def execI3cDynamicAddress (addr : Nat) (how : I3cHow) (s : State) : Out State :=
  supAny (fun s => if s.sup.aux ∧ s.sup.sbI3c then supSet s { s.sup with sbDyn := (match how with | .setdasa => some (addr % 128) | .entdaa => some (addr % 128)) } else s) s
/-- RNG_HEALTH_FAIL (R513). -/
def execRngHealthFail (s : State) : Out State :=
  supOn (fun s =>
    let first := !s.sup.rngEp
    let s := supSet s { s.sup with rngOk := false, rngFails := satAdd 32 s.sup.rngFails 1, rngEp := true }
    if first then s.notice 0x0B0D else s) s
def execRngHealthPass (s : State) : Out State := supOn (fun s => supSet s { s.sup with rngOk := true, rngEp := false }) s

/-- SENSOR_READ: a sensor at TRIP in two consecutive readings turns main power off (R480 to R484). -/
def execSensorRead (t : List (Option Int)) (s : State) : Out State :=
  supOn (fun s =>
    let s := hubWork (fun s => seeReasons (readSensors s t)) s
    match tripSensor s with
    | some i => thermalTrip s i
    | none => s) s

end Sys2Proof.Machine
end

