-- ==== Sys2Proof/Machine/RegBus.lean ====
section
/-! DEFINITION. Machine/RegBus.lean: writes to BAR0: field access codes, ranges, the registers whose write acts, and the meanings of
the rows that write a register (spec/00 R9 to R12, spec/20 R548 to R560, and the register rules of each chapter). -/

namespace Sys2Proof.Machine

open Sys2Proof

/-! ### Field codes (R9, R10) -/

/-- The mask of the bits an access reaches. -/
def halfMask (h : Half) : Nat := match h with
  | .whole => 2 ^ 64 - 1
  | .lo => 2 ^ 32 - 1
  | .hi => 2 ^ 64 - 2 ^ 32
/-- The access's value in the register's place. -/
def halfVal (h : Half) (v : Nat) : Nat := match h with
  | .whole => v % 2 ^ 64
  | .lo => v % 2 ^ 32
  | .hi => v % 2 ^ 32 * 2 ^ 32
/-- One field after a write (Table 00-5). -/
def fieldWrite (lock : Bool) (mask val old : Nat) (f : RField) : Nat :=
  let w := f.hi + 1 - f.lo
  let m := bits mask f.hi f.lo
  let v := bits val f.hi f.lo
  let o := bits old f.hi f.lo
  let mix := (v &&& m) ||| (o &&& (2 ^ w - 1 - m))
  let r := match f.acc with
    | .ro => o
    | .rw => mix
    | .rws => mix
    | .rwo => o
    | .rwl => if lock then o else mix
    | .rw1c => o - (o &&& (v &&& m))
  r * 2 ^ f.lo
/-- The whole register after a write; reserved bits read 0 (R11). -/
def rowWrite (lock : Bool) (mask val old : Nat) (fs : List RField) : Nat :=
  fs.foldl (fun n f => n + fieldWrite lock mask val old f) 0
/-- A write reaches a field. -/
def reaches (h : Half) (f : Fld) : Bool := bits (halfMask h) f.hi f.lo != 0

/-! ### Ranges (the field tables) -/

def within (x lo hi : Nat) : Bool := lo ≤ x && x ≤ hi
/-- Windows of one gate after window w takes value v: ranges hold and the enabled ones do not overlap (R254). -/
def gateOk (s : State) (q g w v : Nat) : Bool :=
  let st := bits v 9 0
  let en := bits v 26 16
  !(bitOf v 27) || (st < en && en ≤ 1024 && (List.range 4).all (fun k =>
    let o := (s.reg (F.SHP_GATE_START q g k).addr).toNat
    k == w || !bitOf o 27 || !overlaps st (en - st) (bits o 9 0) (bits o 26 16 - bits o 9 0)))
/-- A colour profile (R233). -/
def profOk (v c x : Nat) : Bool :=
  let act := bits x 57 56
  act != 3 && (act != 2 || (v == 2 && c == 2)) && bits x 48 40 ≤ 256 && bits x 19 0 < bits x 39 20 && bits x 39 20 ≤ 262144
/-- A window's BASE or END register as its last write leaves it (R283) (log 70, DEDUCED). -/
def winReg (s : State) (n r : Nat) : Nat :=
  match (s.coh.winPend.filter (fun p => p.win == n && p.reg == r)).getLast? with
  | some p => p.val
  | none => (s.reg (if r = 0 then (F.COH_WIN_BASE_EN n).addr else (F.COH_WIN_END_END n).addr)).toNat
/-- The three cases of R282 in which a write of BASE (0) or END (1) of window n is discarded. -/
def cohWinOk (s : State) (n r v : Nat) : Bool :=
  let b := if r = 0 then v else winReg s n 0
  let e := if r = 1 then v else winReg s n 1
  let lo := bits b 25 0
  let hi := bits e 25 0
  (r == 0 || lo < hi) && hi ≤ 48234496
  && !(bitOf b 63 && (List.range 64).any (fun m => m != n && bitOf (winReg s m 0) 63
    && overlaps lo (hi - lo) (bits (winReg s m 0) 25 0) (bits (winReg s m 1) 25 0 - bits (winReg s m 0) 25 0)))
/-- Ranges of spec/05, spec/10, spec/13, spec/14 and spec/16. -/
def rangeMore (s : State) (name : String) (i v : Nat) : Bool :=
  match name with
  | "CHRN_POST_CTL" => bits v 31 16 ≤ 2499 && within (bits v 5 0) 15 32
  | "CHRN_CKPT_CTL" => 1 ≤ bits v 7 0
  | "STRN_CTL" => within (bits v 10 0) 1 1024
  | "COH_CTL" => within (bits v 63 32) 1 1000000
  | "COH_PRED" => within (bits v 63 32) 1 65536 && 1 ≤ bits v 1 0
  | "COH_WIN_BASE_n" => cohWinOk s i 0 v
  | "COH_WIN_END_n" => cohWinOk s i 1 v
  | "EXT_CTL" => within (bits v 47 32) 1 60000 && within (bits v 31 0) 10000 60000000
  | "EXT_COMP_CTL" => within (bits v 31 16) 250 50000 && within (bits v 15 0) 10 400
  | "HERD_CTL" => within (bits v 31 16) 1000 65535 && 8 ≤ bits v 15 8 && 4 ≤ bits v 7 0
  | "HERD_CULL" => within (bits v 23 16) 1 24 && 1 ≤ bits v 15 0
  | _ => true
/-- Whether the value a write would leave lies within every field's stated range; `i`, `j` are the register's indices. -/
def rangeOk (s : State) (name : String) (i j v : Nat) : Bool :=
  match name with
  | "TICK_PERIOD" => within v 2500 500000
  | "TILE_SCRUB_CTL" => within (fv v F.TILE_SCRUB_CTL_PERIOD) 1 168
  | "MIG_CTL" => within (fv v F.MIG_CTL_MAX_PASSES) 1 8 && fv v F.MIG_CTL_CUT_DIRTY ≤ 128
  | "MIG_DEMAND" => within (fv v F.MIG_DEMAND_DECAY) 1 65536 && 1 ≤ fv v F.MIG_DEMAND_THRESH
  | "MIG_PIN" => fv v F.MIG_PIN_MAX ≤ 1048576
  | "FAB_CRED_INIT" => within (bits v 63 48) 16 256 && within (bits v 47 32) 16 4096 && within (bits v 31 16) 16 4096 && within (bits v 15 0) 16 4096
  | "FAB_REQ_TIMEOUT" => within (bits v 31 0) 2000 1000000
  | "FAB_LINK_CTL" => within (bits v 15 8) 1 64 && 1 ≤ bits v 7 0
  | "FAB_PORT_CTL_n" => bits v 2 1 != 3
  | "SWX_BUF" => within (bits v 12 0) 256 4096
  | "SWX_SKIM_CTL" => within (bits v 4 0) 1 16
  | "SWX_AVG" => 1 ≤ bits v 3 0
  | "SWX_PROF_v_c" => profOk i j v
  | "SHP_ARB" => within (bits v 42 32) 64 1024 && 1 ≤ bits v 15 8 && 1 ≤ bits v 7 0
  | "SHP_SAMP_CTL" => 1 ≤ bits v 15 0
  | "SHP_TENANT_n" => 1 ≤ bits v 7 0
  | "SHP_SHP_CFG_q_k" => (bits v 59 56 ≤ 7 || bits v 59 56 == 15) && 576 ≤ bits v 55 32 && within (bits v 10 0) 1 1024
  | "SHP_GATE_q_g_w" => bits v 26 16 ≤ 1024 && bits v 9 0 < bits v 26 16 && gateOk s i (j / 4) (j % 4) v
  | "SHP_METER_CFG_m" => bits v 20 16 ≤ 23
  | "SHP_METER_RATE_m" => 576 ≤ bits v 55 32 && bits v 10 0 ≤ 1024
  | "FLT_CTL" => within (bits v 10 0) 1 1024
  | "DAMP_CAP" => within (bits v 47 32) 700 1350 && within (bits v 23 16) 1 100 && within (bits v 15 0) 600 1350 && bits v 15 0 ≤ bits v 47 32
  | "DAMP_CTL" => 1 ≤ bits v 19 16 && 1 ≤ bits v 15 0
  | "DAMP_THERM_c" =>
    let r := (regReset (F.DAMP_THERM_WARN i).addr).toNat
    bits v 7 0 ≤ bits r 7 0 && bits v 15 8 ≤ bits r 15 8 && bits v 7 0 < bits v 15 8
  | "HOST_LD_MAP_i" => bits v 15 0 == 0
  | "HOST_LD_STATIC_i" => bits v 15 0 == 0
  | "HOST_RING_CTL_i" => 1 ≤ bits v 31 16 && 1 ≤ bits v 11 5 && within (bits v 4 0) 6 16
  | _ => rangeMore s name i v
/-- What a discarded write marks (R33, R217, R233, R238, R258, R307). -/
def cfgErr (s : State) (name : String) : State :=
  if name = "TICK_PERIOD" ∨ name = "TICK_GUARD" then s.put F.TICK_STATUS_CFG_ERR 1
  else if name.startsWith "SWX_" then s.put F.SWX_STATUS_CFG_ERR 1
  else if name.startsWith "SHP_" then s.put F.SHP_STATUS_CFG_ERR 1
  else if name.startsWith "COH_" then s.put F.COH_STATUS_CFG_ERR 1
  else s
/-- Any job is admitted (R33, R54): one that holds its reservations; a COMPLETE job holds none (R51; log 104, DESIGN CHOICE). -/
def anyAdmitted (s : State) : Bool := jobSlots.any (fun j => (jobGet s j).holds)
/-- The greatest depth TICK_TREE may take: 8, and 7 at the lower half of a pair, whose upper half stands one hop further (R23, R24;
log 104, DEDUCED). -/
def maxDepth (s : State) : Nat := if s.sup.yoked ∧ !s.sup.upper then 7 else 8
/-- The masters a pail assigns: 0 to 5 at a churn pail, 0 to 6 at a row engine's or a strainer's; the register of any other reads 0 (R180,
Tables 05-1, 12-1 and 13-1). -/
def pailMasters (p : Nat) : Nat := if p < 16 then 6 else 7
/-- A condition beyond ranges under which a write is discarded, with what it marks; none: the write is performed. -/
def refuseWrite (s : State) (name : String) (i j v : Nat) : Option State :=
  match name with
  | "TICK_PERIOD" => if anyAdmitted s then some (s.put F.TICK_STATUS_CFG_ERR 1) else none
  | "TICK_GUARD" => if anyAdmitted s then some (s.put F.TICK_STATUS_CFG_ERR 1) else none
  | "TICK_TREE" =>
    let port := within (bits v 4 0) 26 30
    let deep := maxDepth s < bits v 11 8
    if port ∨ deep then
      let s := if port then s.put F.TICK_STATUS_CFG_ERR 1 else s
      some (if deep then s.notice 0x0107 [bits v 11 8] else s)
    else none
  | "FAB_CRED_INIT" => if 8192 < bits v 63 48 + bits v 47 32 + bits v 31 16 + bits v 15 0 then some (s.put F.SWX_STATUS_CFG_ERR 1) else none
  | "CHRN_POST_CTL" => if anyAdmitted s then some s else none
  | "PAIL_CONFLICT_p_m" => if j < pailMasters i then none else some s
  | "SWX_BUF" => if (s.fab.voq ++ s.fab.egress).any (fun x => 26 ≤ x.inp) then some s else none
  | "HOST_LD_CFG_i" => if (ldGet s i).state = .off then none else some s
  | "HOST_LD_MAP_i" => if (ldGet s i).state = .off then none else some s
  | "HOST_LD_STATIC_i" => if (ldGet s i).state = .off then none else some s
  | "HOST_LD_DC_i" => if (ldGet s i).state = .off then none else some s
  | _ => none

/-! ### Registers whose write acts (Table 20-16) -/

/-- SEGT_OP and WIN_OP (R314, R320) (log 93, DEDUCED). -/
def segtOp (s : State) (op : Nat) : State :=
  let i := s.fld F.SEGT_SEL_INDEX
  if op = 1 then
    let e := ent3Get s.xlt.segsNext i
    ((s.put F.SEGT_WORD0_WORD e.w0).put F.SEGT_WORD1_WORD e.w1).put F.SEGT_WORD2_WORD e.w2 |>.put F.SEGT_OP_RESULT 0
  else if op = 2 then
    let r := segWrite s i { w0 := s.fld F.SEGT_WORD0_WORD, w1 := s.fld F.SEGT_WORD1_WORD, w2 := s.fld F.SEGT_WORD2_WORD }
    r.2.put F.SEGT_OP_RESULT r.1
  else s
def winOp (s : State) (op : Nat) : State :=
  let i := s.fld F.WIN_SEL_INDEX
  if op = 1 then
    let e := ent3Get s.xlt.winsNext i
    ((s.put F.WIN_WORD0_WORD e.w0).put F.WIN_WORD1_WORD e.w1).put F.WIN_WORD2_WORD e.w2 |>.put F.WIN_OP_RESULT 0
  else if op = 2 then
    let r := winWrite s i { w0 := s.fld F.WIN_WORD0_WORD, w1 := s.fld F.WIN_WORD1_WORD, w2 := s.fld F.WIN_WORD2_WORD }
    r.2.put F.WIN_OP_RESULT r.1
  else s
/-- A TAIL write (R433): discarded where HEAD − TAIL would leave the ring. -/
def ringTail (s : State) (i tail : Nat) : State :=
  let head := s.fld (F.HOST_RING_IDX_HEAD i)
  if (head + 2 ^ 32 - tail) % 2 ^ 32 ≤ 2 ^ s.fld (F.HOST_RING_CTL_SIZE_LOG2 i) then
    let t := s.put (F.HOST_RING_IDX_TAIL i) tail
    if ringCount t i = 0 then sigSet t i {} else if ringCount s i = 0 then ringSignal t i else t
  else s.put (F.HOST_RING_STAT_BAD_TAIL i) 1
def sysTail (s : State) (tail : Nat) : State :=
  let head := s.fld F.HOST_SYSRING_HEAD_HEAD
  let old := s.fld F.HOST_SYSRING_TAIL_TAIL
  if (head + 2 ^ 32 - tail) % 2 ^ 32 ≤ 65536 then
    let s := s.put F.HOST_SYSRING_TAIL_TAIL tail
    if old = tail then s else if head = tail then s.emit (.pin "SB_ALERT_N" true) else if head = old then s.emit (.pin "SB_ALERT_N" false) else s
  else s
/-- Ring configuration writes set HEAD and TAIL to 0 (Table 15-10). -/
def ringReset (s : State) (i : Nat) : State := sigSet (s.setReg (F.HOST_RING_IDX_HEAD i).addr 0) i {}
/-- What a performed write does besides setting its fields. -/
def writeActs (s : State) (name : String) (i j : Nat) (h : Half) : State :=
  match name with
  | "TICK_TREE" => tkSet s { s.tk with joined := false, lostRoot := false, missed := 0, holdover := false, got := false, delays := [], delayReq := none, delayTick := none, warnRun := 0, asked := 0 }
  | "TICK_CHILDREN" => askStretch s
  | "FAB_PORT_CTL_n" => portEnable s i
  | "SHP_SHP_CFG_q_k" => shaperReset s i j
  | "SHP_SHP_MATCH_q_k" => shaperReset s i j
  | "SHP_METER_CFG_m" => meterReset s i
  | "SHP_METER_RATE_m" => meterReset s i
  | "DAMP_CAP" => if reaches h F.DAMP_CAP_CAP then dmpSet s { s.damp with capNew := true } else s
  | "DAMP_REASON_SEEN" => seeReasons s
  | "HOST_RING_BASE_i" => ringReset s i
  | "HOST_RING_CTL_i" => ringReset s i
  | _ => s

/-- BASE or END of a window is written: at once, or once the lines held in the enabled window's old range have been
back-invalidated (R283). -/
def winStore (s : State) (n r a v : Nat) : State :=
  let narrows := s.flag (F.COH_WIN_BASE_EN n) && (r == 1 || !bitOf v 63 || bits v 25 0 != s.fld (F.COH_WIN_BASE_BASE n))
  if s.coh.winPend.any (fun p => p.win == n) ∨ (narrows ∧ winHeld s n) then
    let s := cohSet s { s.coh with winPend := s.coh.winPend ++ [{ win := n, reg := r, val := v }] }
    backInvalidate s (linesHeld s (winRange s n).1 (winRange s n).2)
  else s.setReg a (BitVec.ofNat 64 v)
/-- A write to a register of the supervisor: the lock, the warm reset, causes, the trip and saturating counts. -/
def supWrite (s : State) (name : String) (h : Half) (v : Nat) : Option State :=
  if name = "SEC_LOCK" then some (if h != .hi ∧ v % 2 = 1 then setLock s else s)
  else if name = "CLK_RESET" then some (if h != .hi ∧ v % 2 = 1 then warmStart s 8 else s)
  else if name = "CLK_RESET_CAUSE" then some (if h = .hi then s else { s with sup := { s.sup with cause := s.sup.cause - (s.sup.cause &&& v % 256) } })
  else if name = "DAMP_TRIP" then some (if h = .lo then s else if bitOf v 63 then { s with sup := { s.sup with trip := false } } else s)
  else if name = "SEC_RNG" then some (if h = .lo then s else { s with sup := { s.sup with rngFails := v / 2 ^ 32 } })
  else if name = "DBG_STATUS" then some (if h = .lo then s else { s with sup := { s.sup with tokFails := v / 2 ^ 32 } })
  else none
/-- A write to any other register: one that acts alone, or one that sets its fields and acts. -/
def hubWrite (a : Nat) (r : RegRow) (i j : Nat) (h : Half) (v : Nat) (s : State) : State :=
  if r.name = "SEGT_OP" then (if h = .hi then s else segtOp s (v % 4))
  else if r.name = "WIN_OP" then (if h = .hi then s else winOp s (v % 4))
  else if r.name = "FLT_POP" then (if h = .hi then s else fltPop (s.put F.FLT_POP_SEQ v) (v % 2 ^ 32))
  else if r.name = "FLT_OVF_CLR" then (if h = .hi then s else ovfSet (s.put F.FLT_OVF_CLR_TENANT v) (v % 512) {})
  else if r.name = "HOST_RING_IDX_i" then (if h = .lo then s else ringTail s i (v / 2 ^ 32))
  else if r.name = "HOST_SYSRING_TAIL" then (if h = .hi then s else sysTail s (v % 2 ^ 32))
  else
    let old := (s.reg a).toNat
    let new := rowWrite s.sup.lock (halfMask h) v old r.fields
    if s.sup.lock ∧ r.fields.all (fun f => f.acc == .rwl || f.acc == .ro) then s
    else if !rangeOk s r.name i j new then cfgErr s r.name
    else match refuseWrite s r.name i j new with
      | some s' => s'
      | none =>
        if r.name = "COH_WIN_BASE_n" then winStore s i 0 a new
        else if r.name = "COH_WIN_END_n" then winStore s i 1 a new
        else writeActs (s.setReg a (BitVec.ofNat 64 new)) r.name i j h
/-- A write to the register at an address (R9 to R12, R552, R560). -/
def regWrite (s : State) (a : Nat) (h : Half) (val : Nat) : State :=
  match regFind a with
  | none => s
  | some (r, i, j) => match supWrite s r.name h (halfVal h val) with
    | some s' => s'
    | none => hubWork (hubWrite a r i j h (halfVal h val)) s

/-- The BAR0 address a path and offset reach; BAR2 of LD i holds its ring registers (R549, R558). -/
def pathAddr (p : RegPath) (off : Nat) : Option Nat := match p with
  | .bar2 i =>
    if i ≥ 16 then none
    else if off < 0x8000 ∨ 0x8030 ≤ off then none
    else if off < 0x8020 then some (0x700120 + 0x40 * i + (off - 0x8000))
    else some (0x700800 + 0x10 * i + (off - 0x8020))
  | _ => some off
/-- A path that reaches the registers now: the test access port writes at debug level 2 alone, the sideband needs its auxiliary
power (R516, R531, R546). -/
def pathOpen (s : State) (p : RegPath) : Bool := match p with
  | .cores => true
  | .fm => true
  | .sideband => s.sup.aux
  | .tap => s.sup.debug == 2
  | .bar2 _ => true
/-- A raw write access (R9): aligned 64-bit or 32-bit, else an unsupported request without effect. -/
def busWrite (s : State) (x : RegAcc) : State :=
  match pathAddr x.path x.off with
  | none => s
  | some a =>
    if !pathOpen s x.path then s
    else if x.size = 8 ∧ x.off % 8 = 0 then regWrite s a .whole x.val
    else if x.size = 4 ∧ x.off % 8 = 0 then regWrite s a .lo x.val
    else if x.size = 4 ∧ x.off % 8 = 4 then regWrite s (a - 4) .hi x.val
    else s.emit (.regBad x.path x.off)
/-- A write to a named register through a path; a tenant's LD reaches its own rings alone (R549). -/
def namedWrite (s : State) (a : Nat) (w : RegW) (own : Option Nat) : State :=
  if !pathOpen s w.path then s else
  match w.path with
  | .bar2 i => if own = some i then regWrite s a w.half w.val else s
  | _ => regWrite s a w.half w.val

def execRegWrite (a : RegAcc) (s : State) : Out State := supOn (fun s => busWrite s a) s
def execTickTreeWrite (w : RegW) (s : State) : Out State := supOn (fun s => namedWrite s F.TICK_TREE_ROOT.addr w none) s
def execTickPeriodWrite (w : RegW) (s : State) : Out State := supOn (fun s => namedWrite s F.TICK_PERIOD_BASE.addr w none) s
def execTickGuardWrite (w : RegW) (s : State) : Out State := supOn (fun s => namedWrite s F.TICK_GUARD_GUARD.addr w none) s
def execFabCredInitWrite (w : RegW) (s : State) : Out State := supOn (fun s => namedWrite s F.FAB_CRED_INIT_VN0.addr w none) s
def execSwxBufWrite (w : RegW) (s : State) : Out State := supOn (fun s => namedWrite s F.SWX_BUF_INT_RES.addr w none) s
def execDampCapWrite (w : RegW) (s : State) : Out State := supOn (fun s => namedWrite s F.DAMP_CAP_CAP.addr w none) s
def execSecLockWrite (w : RegW) (s : State) : Out State := supOn (fun s => namedWrite s F.SEC_LOCK_LOCK.addr w none) s
def execFltPop (w : RegW) (s : State) : Out State := supOn (fun s => namedWrite s F.FLT_POP_SEQ.addr w none) s
def execFltOvfClr (w : RegW) (s : State) : Out State := supOn (fun s => namedWrite s F.FLT_OVF_CLR_TENANT.addr w none) s
def execSysringTailWrite (w : RegW) (s : State) : Out State := supOn (fun s => namedWrite s F.HOST_SYSRING_TAIL_TAIL.addr w none) s
def execWarmResetReg (w : RegW) (s : State) : Out State := supOn (fun s => namedWrite s F.CLK_RESET_WARM.addr w none) s
/-- SEGT_OP with OP 1; WIN_OP likewise (R314). -/
def execSegtRead (w : RegW) (s : State) : Out State := supOn (fun s => namedWrite s F.SEGT_OP_OP.addr { w with val := w.val / 4 * 4 + 1 } none) s
def execSegtWrite (w : RegW) (s : State) : Out State := supOn (fun s => namedWrite s F.SEGT_OP_OP.addr { w with val := w.val / 4 * 4 + 2 } none) s
def execWinRead (w : RegW) (s : State) : Out State := supOn (fun s => namedWrite s F.WIN_OP_OP.addr { w with val := w.val / 4 * 4 + 1 } none) s
def execWinWrite (w : RegW) (s : State) : Out State := supOn (fun s => namedWrite s F.WIN_OP_OP.addr { w with val := w.val / 4 * 4 + 2 } none) s
def execPortCtlWrite (n : Nat) (w : RegW) (s : State) : Out State :=
  supOn (fun s => if n < 26 then namedWrite s (F.FAB_PORT_CTL_EN n).addr w none else s) s
def execSwxProfWrite (v c : Nat) (w : RegW) (s : State) : Out State :=
  supOn (fun s => if v < 4 ∧ c < 3 then namedWrite s (F.SWX_PROF_ACTION v c).addr w none else s) s
def execShaperWrite (q k : Nat) (r : ShpReg) (w : RegW) (s : State) : Out State :=
  supOn (fun s => if q < 26 ∧ k < 16 then
    namedWrite s (match r with | .cfg => (F.SHP_SHP_CFG_EN q k).addr | .mtch => (F.SHP_SHP_MATCH_TAG q k).addr) w none else s) s
def execMeterWrite (m : Nat) (r : MeterReg) (w : RegW) (s : State) : Out State :=
  supOn (fun s => if m < 1024 then namedWrite s (match r with | .cfg => (F.SHP_METER_CFG_EN m).addr | .rate => (F.SHP_METER_RATE_RATE m).addr) w none else s) s
def execGateWrite (q g i : Nat) (w : RegW) (s : State) : Out State :=
  supOn (fun s => if q < 26 ∧ g < 8 ∧ i < 4 then namedWrite s (F.SHP_GATE_EN q g i).addr w none else s) s
def execCohWinWrite (n : Nat) (r : CohWinReg) (w : RegW) (s : State) : Out State :=
  supOn (fun s => if n < 64 then namedWrite s (match r with
    | .base => (F.COH_WIN_BASE_BASE n).addr
    | .fin => (F.COH_WIN_END_END n).addr
    | .va => (F.COH_WIN_VA_VA n).addr
    | .agents => (F.COH_WIN_AGENTS_MASK n).addr) w none else s) s
def execRingTailWrite (ld : Nat) (w : RegW) (s : State) : Out State :=
  supOn (fun s => if ld < 16 then namedWrite s (F.HOST_RING_IDX_TAIL ld).addr w (some ld) else s) s
def execRingCfgWrite (ld : Nat) (r : RingReg) (w : RegW) (s : State) : Out State :=
  supOn (fun s => if ld < 16 then namedWrite s (match r with | .base => (F.HOST_RING_BASE_BASE ld).addr | .ctl => (F.HOST_RING_CTL_EN ld).addr) w (some ld) else s) s

end Sys2Proof.Machine
end

