-- ==== Sys2Proof/Machine/Start.lean ====
section
/-! DEFINITION. Machine/Start.lean: the stages of a start, the firmware image's checks, the configuration record, the yoke and APPLY
(R3, R490 to R499, R513, R517 to R519, R533): the operations, and the meanings of the stage rows. -/

namespace Sys2Proof.Machine

open Sys2Proof

/-! ### The firmware image (R490, R491) -/

/-- LEN of an image header (Table 18-2). -/
def imgLen (img : List Byte) : Nat := getLE img 12 4
/-- The signed message of an image. -/
def imgMessage (img : List Byte) : List Byte := slice img 0 (imgLen img)
/-- A monotonic counter (R504). -/
def monoGet (c : Cellar) (i : Nat) : Nat := smGet (fun _ => 0) c.mono i
/-- R491: 0 when the image verifies, otherwise the reason of the first check that fails (log 74, DEDUCED). -/
def imgCheck (c : Cellar) (img : List Byte) : Nat :=
  let len := imgLen img
  let key := getLE img 6 1
  if getLE img 0 4 ≠ 0x4957465A ∨ getLE img 4 2 ≠ 1 then 1
  else if len < 256 ∨ 16773843 < len ∨ len ≤ getLE img 20 4 then 2
  else if key < monoGet c 1 ∨ 3 < key then 3
  else if getLE img 8 4 < monoGet c 0 then 4
  else if !Config.edVerify key (imgMessage img) (slice img len 64) then 5
  else if !Config.mlVerify key (imgMessage img) (slice img (len + 64) 3309) then 6
  else if 0x0100 < getLE img 16 2 ∨ getLE img 18 2 < Config.levelHigh then 7
  else 0
/-- The running image's header fields (CELL_IMAGE, Table 18-12), and its signed message for measurement 2. -/
def runImg (u : Sup) (img : List Byte) : Sup := { u with imgSvn := getLE img 8 4, imgKey := getLE img 6 1, imgLevelMax := getLE img 18 2, runImage := imgMessage img }

/-! ### The configuration record (R496, R497) -/

def cfgHdrOf (r : List Byte) : CfgHdr :=
  let f := getLE r 18 2
  { level := getLE r 6 2, seq := getLE r 8 4, hubId := getLE r 16 2 % 4096, lock := bitOf f 0, yoke := bitOf f 1, upper := bitOf f 2, pairId := getLE r 20 2 % 4096, peerSerial := getLE r 24 8, pairDigest := getLE r 32 8 }
def cfgItemOf (r : List Byte) (k : Nat) : CfgItem :=
  let o := 64 + 16 * k
  { kind := getLE r o 1, pair := bitOf (getLE r (o + 1) 1) 0, arg := getLE r (o + 4) 4, value := getLE r (o + 8) 8 }
def cfgItemsOf (r : List Byte) : List CfgItem := (List.range (getLE r 40 4)).map (cfgItemOf r)
/-- A copy is valid (R496, R497). -/
def cfgValid (r : List Byte) : Bool :=
  let len := getLE r 12 4
  getLE r 0 4 == 0x4746435A && getLE r 4 2 == 1 && len == 64 + 16 * getLE r 40 4 && len ≤ 1048576
  && crc64 (slice r 0 56 ++ List.replicate 8 0 ++ slice r 64 (len - 64)) == getLE r 56 8
/-- Copy B is newer (R497). -/
def cfgNewer (a b : Nat) : Bool := let d := (b + 2 ^ 32 - a) % 2 ^ 32; 1 ≤ d && d ≤ 2 ^ 31 - 1
/-- The level a record names, as the hub runs at it; whether it names one the silicon lacks (R3, R498). -/
def runLevel (l : Nat) : Nat × Bool :=
  if l = 0 then (Config.levelHigh, false)
  else if Config.levelLow ≤ l ∧ l ≤ Config.levelHigh then (l, false)
  else (Config.levelHigh, true)

/-! ### Stages -/

/-- A stage's end acts: its stage runs, has not been stopped, and the damper's forced state does not hold the start (Table 19-8's rules). -/
def inStage (s : State) (g : Stage) : Bool := s.sup.stage == g && !s.sup.stopped && !s.damp.forced
def enterStage (s : State) (g : Stage) : State := supSet s { s.sup with stage := g, stageAt := s.time }
/-- A stage's bound, in TBS cycles (Table 18-3). -/
def stageBound : Stage → Nat
  | .power => ms 50
  | .rom => ms 5
  | .verify => ms 100
  | .config => ms 10
  | .store => ms 1500
  | .yoke => ms 1500
  | .apply => ms 50
  | _ => 0
/-- The stage's bound has passed. -/
def stageOver (s : State) : State := hubWork (fun s => s.upTo (s.sup.stageAt + stageBound s.sup.stage)) s
/-- RECOVERY with its reason (R494). -/
def toRecovery (s : State) (reason : Nat) : State := enterStage (supSet s { s.sup with reason := reason, recovered := some reason }) .recovery
/-- A copy of the record is chosen at CONFIG (R497). -/
def useCopy (s : State) (b : Bool) (r : List Byte) : State :=
  let h := cfgHdrOf r
  supSet s { s.sup with hdr := h, items := cfgItemsOf r, current := b, hubId := h.hubId, cfgRead := r }
/-- The level the hub runs at is settled, and CONFIG ends (R498). -/
def configLevel (s : State) : State :=
  let r := runLevel s.sup.hdr.level
  let s := enterStage (supSet s { s.sup with level := r.1 }) .store
  if r.2 then s.notice 0x0B04 else s
/-- CONFIG (R497, R498). -/
def configStage (s : State) : State :=
  let u := s.sup
  let a := cfgValid u.cellar.copyA
  let b := cfgValid u.cellar.copyB
  let s := supSet s { u with aValid := a, bValid := b, cfgNone := !a && !b }
  configLevel
    (if a ∧ b then
      (if cfgNewer (getLE u.cellar.copyA 8 4) (getLE u.cellar.copyB 8 4) then useCopy s true u.cellar.copyB else useCopy s false u.cellar.copyA)
    else if a then (useCopy s false u.cellar.copyA).notice 0x0B02 [1]
    else if b then (useCopy s true u.cellar.copyB).notice 0x0B02 [0]
    else s.notice 0x0B03)

/-! ### APPLY (R499) -/

def skip (s : State) : State := supSet s { s.sup with skipped := satAdd 16 s.sup.skipped 1 }
/-- Registers that are no staging registers and carry segments and windows (R499). -/
def tableReg (name : String) : Bool :=
  ["SEGT_SEL", "SEGT_WORD0", "SEGT_WORD1", "SEGT_WORD2", "SEGT_OP", "WIN_SEL", "WIN_WORD0", "WIN_WORD1", "WIN_WORD2", "WIN_OP"].contains name
/-- A multicast group entry can be written: group 0 and groups past the table are none (R228). -/
def mcastOk (g : Nat) : Bool := 0 < g && g < 65536
/-- A group entry with its reserved bits 0 (Table 07-5). -/
def mcastEntry (v : Nat) : Nat := bits v 63 48 * 2 ^ 48 + bits v 47 46 * 2 ^ 46 + bits v 25 0
def groupSet (s : State) (g v : Nat) : State := { s with fab := { s.fab with groups := smSet (fun _ => 0) s.fab.groups g (mcastEntry v) } }
/-- A tag table entry can be written: SLOT is 0 to 511 (R8, R239). -/
def tagOk (t v : Nat) : Bool := t < 65536 && v % 1024 < 512
def tagSet (s : State) (t v : Nat) : State := { s with fab := { s.fab with tags := smSet (fun _ => 0) s.fab.tags t (bits v 15 15 * 32768 + bits v 9 0) } }
/-- One item replayed; functions are enabled when the stage ends (log 84, DEDUCED). -/
def replayItem (s : State) (x : CfgItem) : State :=
  match x.kind with
  | 1 =>
    (match regFind x.arg with
     | none => skip s
     | some (r, _, _) =>
       if !(r.staging || tableReg r.name) then skip s
       else
         let s := regWrite s x.arg .whole x.value
         if (r.name = "SEGT_OP" ∧ s.fld F.SEGT_OP_RESULT ≠ 0) ∨ (r.name = "WIN_OP" ∧ s.fld F.WIN_OP_RESULT ≠ 0) then skip s else s)
  | 2 => s
  | 3 => s
  | 4 => if mcastOk x.arg then groupSet s x.arg x.value else skip s
  | 5 => if tagOk x.arg x.value then tagSet s x.arg x.value else skip s
  | _ => skip s
/-- The items in the order of their replay: record order; in a yoked pair the PAIR items come first, for both halves (R499). -/
def replayOrder (s : State) : List CfgItem :=
  if s.sup.yoked then s.sup.items.filter (fun x => x.pair) ++ s.sup.items.filter (fun x => !x.pair) else s.sup.items
/-- APPLY begins: the items are replayed. -/
def beginApply (s : State) : State := (replayOrder s).foldl replayItem (enterStage s .apply)
/-- A function an item enables; a refusal is counted. -/
def applyFn (s : State) (x : CfgItem) : State :=
  let f := if x.kind = 2 then Fn.tenant x.arg else Fn.ld x.arg
  if x.kind = 2 ∨ x.kind = 3 then
    let s' := hubWork (enableFn .gone f) s
    if fnValid f && (fnGet s' f).state == .on then s' else skip s
  else s
/-- A held notice reaches the system ring (R495). -/
def deliverHeld (s : State) (h : HeldNotice) : State :=
  sysRingPut s { code := h.code, ten := h.tenant, job := h.job, args := h.args, tick := h.tick, time := h.time }
/-- Entry to RUN (R483, R495, R499, R525). -/
def enterRun (s : State) : State :=
  let s := hubWork (xltBoundary s.time) s
  let s := (replayOrder s).foldl applyFn s
  let s := if s.sup.hdr.lock then setLock s else s
  let s := if s.sup.tripNote then supSet (s.notice 0x0A07 [s.sup.tripSensor, s.sup.tripTick]) { s.sup with tripNote := false } else s
  let held := s.host.heldNotices
  let s := enterStage { s with host := { s.host with heldNotices := [] } } .run
  let s := held.foldl deliverHeld s
  let s := s.notice 0x0B01 [s.sup.level, b2n s.sup.current, s.sup.hdr.seq]
  ((s.emit (.pin "HUB_READY" true)).emit (.event "Memory_Active" [])) |> hubWork rejoinAll

/-! ### The yoke (R517 to R519) -/

def yokeEnable (s : State) (on : Bool) : State :=
  hubWork (fun s =>
    let s := (s.put (F.FAB_PORT_CTL_EN 24) (b2n on)).put (F.FAB_PORT_CTL_EN 25) (b2n on)
    portEnable (portEnable s 24) 25) s
/-- The yoke is refused: its reason is recorded, the hub goes on single. -/
def yokeRefuse (s : State) (reason : Nat) : State :=
  let s := supSet s { s.sup with yokeState := 3, yokeReason := reason, hubId := s.sup.hdr.hubId, yoked := false, upper := false }
  beginApply (yokeEnable (s.notice 0x0B07 [reason]) false)
/-- Checks 2 to 8 of Table 18-8 on the peer's HELLO that arrived on a port: the reason of the first that fails, 0 for none. -/
def helloCheck (s : State) (port : Nat) (h : List Byte) : Nat :=
  let u := s.sup
  if !(match (portGet s port).peer with | some g => g.yoked | none => false) then 2
  else if getLE h 2 2 % 4096 ≠ u.hdr.pairId then 3
  else if (getLE h 1 1 % 2 = 1) = (u.hdr.upper = true) then 4
  else if getLE h 8 8 ≠ u.hdr.peerSerial then 5
  else if getLE h 16 8 ≠ u.hdr.pairDigest then 6
  else if getLE h 24 2 ≠ u.level then 7
  else if getLE h 28 4 ≠ s.fld F.TICK_PERIOD_BASE then 8
  else 0
/-- A HELLO taken in YOKE. -/
def helloTake (s : State) (port : Nat) (h : List Byte) : State :=
  let s := supSet s { s.sup with hello := some h, peerSerial := getLE h 8 8 }
  let r := helloCheck s port h
  if r = 0 then supSet s { s.sup with helloOk := true } else yokeRefuse s r
/-- The yoke forms (log 5, DESIGN CHOICE). -/
def yokeForm (s : State) : State :=
  let u := s.sup
  let s := supSet s { u with yoked := true, upper := u.hdr.upper, hubId := u.hdr.pairId, yokeState := 2 }
  beginApply (s.notice 0x0B06)
/-- The keys of the tenants and of the system context are drawn (R512) (log 100, DESIGN CHOICE). -/
def drawKeys (u : Sup) : Sup := { u with keyGen := (List.range 513).foldl (fun m i => smSet (fun _ => 0) m i (satAdd 32 (smGet (fun _ => 0) u.keyGen i) 1)) u.keyGen }

/-! ### Rows -/

/-- POWER_DONE: the rails are within limits and the clocks locked; an alert or the reset pin holds the stage (R477, R533). -/
def execPowerDone (s : State) : Out State :=
  supOn (fun s =>
    if inStage s .power ∧ !s.sup.warmHeld then
      (enterStage (supSet s { s.sup with rails := 8, pwrGood := true, locks := 0x7FFF, rngOk := !s.sup.rngEp }) .rom).emit (.pin "PWR_GOOD" true)
    else s) s
/-- ROM_DONE: the identity region's CRC (R493). -/
def execRomDone (s : State) : Out State :=
  supOn (fun s =>
    if inStage s .rom then
      (if s.sup.cellar.identityOk then enterStage s .verify else supSet s { s.sup with reason := 9, stopped := true })
    else s) s
/-- VERIFY_DONE: a torn image verifies by no check the spec names in advance (R491, R521). -/
def execVerifyDone (s : State) : Out State :=
  supOn (fun s =>
    if inStage s .verify then
      (match s.sup.cellar.imageTorn with
       | some n => toRecovery s (1 + Config.freeNat n % 7)
       | none =>
         let r := imgCheck s.sup.cellar s.sup.cellar.image
         if r = 0 then enterStage (supSet s (runImg s.sup s.sup.cellar.image)) .config else toRecovery s r)
    else s) s
def execConfigDone (s : State) : Out State := supOn (fun s => if inStage s .config then configStage s else s) s
/-- STORE_DONE: keys are drawn while the health tests pass (R513); YOKE follows only if the record asks for it. -/
def execStoreDone (s : State) : Out State :=
  supOn (fun s =>
    if inStage s .store ∧ s.sup.rngOk then
      let s := supSet s (drawKeys s.sup)
      if s.sup.hdr.yoke ∧ !s.sup.cfgNone then yokeEnable (enterStage (supSet s { s.sup with yokeState := 1 }) .yoke) true
      else beginApply s
    else s) s
/-- A stage ran past its bound: the start stops in it (R492). -/
def stageStop (s : State) : State := if s.sup.stopped then s else supSet s { s.sup with reason := 10, stopped := true }
/-- START_STAGE_TIMEOUT: the stages POWER to APPLY have bounds; in YOKE the bound refuses the yoke (R519). -/
def execStartStageTimeout (s : State) : Out State :=
  supOn (fun s => if [Stage.power, .rom, .verify, .config, .store, .apply].contains s.sup.stage ∧ !s.damp.forced then stageStop (stageOver s) else s) s
/-- RAIL_RAMP_TIMEOUT (R533). -/
def execRailRampTimeout (s : State) : Out State := supOn (fun s => if s.sup.stage = .power then stageStop s else s) s
/-- START_RETRY: one retry (R492); a damaged identity region is no stage timeout. -/
def execStartRetry (s : State) : Out State :=
  supOn (fun s => if s.sup.stopped ∧ !s.sup.retried ∧ s.sup.reason = 10 then beginStart s false true 0 else s) s
/-- A HELLO of the peer: a WRITE to YOKE_INBOX (R517). -/
def isHello (c : Cell) : Bool := c.ty == 0x02 && c.tag == 0xFFFF && c.addr == 0x2E05CF00000 && getLE c.payload 0 1 == 1
/-- YOKE_HELLO: a cell over a yoke port while the yoke forms; a HELLO is answered with OK and taken (R517) (log 77, DESIGN CHOICE). -/
def execYokeHello (inp : Nat) (c : Cell) (s : State) : Out State :=
  supOn (fun s =>
    if s.sup.stage ≠ .yoke ∨ (inp ≠ 24 ∧ inp ≠ 25) then s
    else
      let got := (ingress s inp c).1
      let s := hubWork (arrive (fun c s => if isHello c then sendPort s 33 inp (rspCell s c 0x12 St.ok 0 []) else s) inp c) s
      match got with
      | some c => if isHello c ∧ !s.sup.helloOk then helloTake s inp (slice c.payload 0 64) else s
      | none => s) s
/-- YOKE_FORMED: the mutual CHALLENGE ended (R518). -/
def execYokeFormed (authOk : Bool) (s : State) : Out State :=
  supOn (fun s => if inStage s .yoke ∧ s.sup.helloOk then (if authOk then yokeForm s else yokeRefuse s 9) else s) s
/-- YOKE_REFUSED: the bound ends without a yoke port UP (1), without a HELLO that shows the peer's YOKE (2), or without the peer's
authentication (9). -/
def execYokeRefused (s : State) : Out State :=
  supOn (fun s =>
    if inStage s .yoke then
      let s := stageOver s
      yokeRefuse s (if (yokePorts s).isEmpty then 1 else if s.sup.hello.isNone then 2 else 9)
    else s) s
/-- APPLY_END (R499). -/
def execApplyEnd (s : State) : Out State := supOn (fun s => if inStage s .apply then enterRun s else s) s

end Sys2Proof.Machine
end

