-- ==== Sys2Proof/Machine/Cellar.lean ====
section
/-! DEFINITION. Machine/Cellar.lean: the start and security commands (spec/18): the record CELLAR_STORE captures, Cellar writes,
counters, images and debug tokens; and the table commands MCAST_SET and TAG_SET (R228, R239). -/

namespace Sys2Proof.Machine

open Sys2Proof

/-! ### Refusals (R494, R520) -/

/-- A command that RECOVERY accepts: there the mailboxes of LD 0 and of the sideband issue it (R494). -/
def recCmd (mb : Mbx) (f : State → State) (s : State) : State :=
  if s.sup.stage = .recovery then
    (if mb = .gone then s
     else if s.host.busy.contains (mbxKey mb) then s.cxl mb .busy
     else if mb = .ld 0 ∨ mb = .sideband then f s else s.reply mb St.busy)
  else vendor mb .sys f s

/-! ### The record CELLAR_STORE captures (R500) -/

/-- A configuration record item's bytes (Table 18-6). -/
def itemBytes (x : CfgItem) : List Byte := natLe 1 x.kind ++ natLe 1 (b2n x.pair) ++ natLe 2 0 ++ natLe 4 x.arg ++ natLe 8 x.value
/-- The instances of a register row by address. -/
def rowAddrs (r : RegRow) : List Nat := (List.range r.n1).flatMap (fun i => (List.range r.n2).map (fun j => r.base + r.s1 * i + r.s2 * j))
/-- The blocks of BAR0 in address order. -/
def regRows : List RegRow := [0x0, 0x1, 0x2, 0x3, 0x4, 0x10, 0x11, 0x20, 0x21, 0x30, 0x31, 0x32, 0x33, 0x40, 0x41, 0x42, 0x50, 0x51, 0x52, 0x53, 0x60, 0x70, 0x80, 0x90, 0xF0].flatMap (fun k => regBlock (k * 0x10000))
/-- A REG item for every staging register, with the value last written. -/
def regItems (s : State) : List CfgItem :=
  (regRows.filter (fun r => r.staging)).flatMap (fun r => (rowAddrs r).map (fun a => { kind := 1, pair := false, arg := a, value := (s.reg a).toNat }))
/-- The five REG items of a segment or window, from its block's base (R314, R320). -/
def tableItems (base i : Nat) (e : Ent3) : List CfgItem :=
  [(8, i), (0x10, e.w0), (0x18, e.w1), (0x20, e.w2), (0x28, 2)].map (fun p => { kind := 1, pair := true, arg := base + p.1, value := p.2 })
def captureItems (s : State) : List CfgItem :=
  regItems s
  ++ (s.xlt.segsNext.filter (fun e => e.2.en)).flatMap (fun e => tableItems 0x510000 e.1 e.2)
  ++ (s.xlt.winsNext.filter (fun e => e.2.en)).flatMap (fun e => tableItems 0x520000 e.1 e.2)
  ++ (s.host.tenants.filter (fun e => e.2.state == .on)).map (fun e => { kind := 2, pair := true, arg := e.1, value := 0 })
  ++ (s.host.lds.filter (fun e => e.2.state == .on)).map (fun e => { kind := 3, pair := true, arg := e.1, value := 0 })
  ++ (s.fab.groups.filter (fun e => bitOf e.2 47)).map (fun e => { kind := 4, pair := true, arg := e.1, value := e.2 })
  ++ (s.fab.tags.filter (fun e => bitOf e.2 15)).map (fun e => { kind := 5, pair := true, arg := e.1, value := e.2 })
/-- A record's bytes from its header fields and its items, with its digest and CRC (Table 18-5). -/
def recordOf (h : CfgHdr) (lock : Bool) (items : List CfgItem) : List Byte :=
  let body := items.flatMap itemBytes
  let a := natLe 4 0x4746435A ++ natLe 2 1 ++ natLe 2 h.level ++ natLe 4 h.seq ++ natLe 4 (64 + body.length) ++ natLe 2 h.hubId
    ++ natLe 2 (b2n lock + 2 * b2n h.yoke + 4 * b2n h.upper) ++ natLe 2 h.pairId ++ natLe 2 0 ++ natLe 8 h.peerSerial
    ++ natLe 8 (crc64 ((items.filter (fun x => x.pair)).flatMap itemBytes)) ++ natLe 4 items.length ++ natLe 12 0
  a ++ natLe 8 (crc64 (a ++ natLe 8 0 ++ body)) ++ body
/-- A store of the record begins: SEQ one greater than the copy in use, into the other copy (R501). -/
def beginStore (kind : Nat) (mb : Mbx) (h : CfgHdr) (s : State) : State :=
  let seq := (s.sup.hdr.seq + 1) % 2 ^ 32
  supSet (s.hold mb) { s.sup with job := some { kind := kind, mb := some mb, data := recordOf { h with seq := seq } s.sup.lock (captureItems s), toB := !s.sup.current, seq := seq } }
/-- A copy of the Cellar is written, or left invalid. -/
def putCopy (u : Sup) (toB : Bool) (d : List Byte) : Sup :=
  if toB then { u with cellar := { u.cellar with copyB := d }, bValid := cfgValid d } else { u with cellar := { u.cellar with copyA := d }, aValid := cfgValid d }
/-- A store's answer: of a yoked pair's two stores only the one of this half is held; the other's outcome is free (R502). -/
def storeAnswer (yoked : Bool) (mb : Mbx) (seq : Nat) (s : State) : State :=
  if yoked then
    let s' := { s with free := s.free + 1 }
    if Config.freeNat s.free % 2 = 0 then s'.replyBg mb St.ok (natLe 4 seq) else s'.replyBg mb St.checksum
  else s.replyBg mb St.ok (natLe 4 seq)
/-- A Cellar write has ended with its outcome (R494, R501, R502, R521). -/
def cellarDone (w : CellarJob) (ok : Bool) (s : State) : State :=
  let u := s.sup
  let mb := w.mb.getD .gone
  if w.kind ≥ 2 then
    (if ok then
      let s := supSet s { u with job := none, cellar := { u.cellar with image := w.data, imageTorn := none } }
      if w.kind = 2 then s.replyBg mb St.ok [0] else s
    else
      let (n, s) := s.draw
      let s := (supSet s { u with job := none, cellar := { u.cellar with imageTorn := some n } }).notice 0x0B09
      if w.kind = 2 then s.replyBg mb St.checksum else s)
  else if ok then
    let s := supSet s { putCopy { u with job := none } w.toB w.data with current := w.toB, hdr := { u.hdr with seq := w.seq } }
    storeAnswer u.yoked mb w.seq (s.notice 0x0B08)
  else if w.attempt = 1 then supSet s { u with job := some { w with attempt := 2 } }
  else (supSet s (putCopy { u with job := none } w.toB [])).notice 0x0B09 |>.replyBg mb St.checksum
/-- A background command of the Cellar finds no other in progress (R501). -/
def cellarFree (mb : Mbx) (f : State → State) (s : State) : State := if s.sup.job.isSome then s.reply mb St.busy else f s

def execCellarStore (mb : Mbx) (s : State) : Out State :=
  mbxSup mb (vendor mb .sys (cellarFree mb (fun s => beginStore 0 mb s.sup.hdr s))) s
/-- CELLAR_WRITE_DONE: the write and its read-back end. -/
def execCellarWriteDone (ok : Bool) (s : State) : Out State :=
  supOn (fun s => match s.sup.job with | some w => cellarDone w ok s | none => s) s
/-- SEQ of a copy, for CFG_INFO: an invalid copy states none. -/
def copySeq (s : State) (valid : Bool) (r : List Byte) : Nat × State :=
  if valid then (getLE r 8 4, s) else let (n, s) := s.draw; (Config.freeNat n % 2 ^ 32, s)
/-- CFG_INFO (R520) (log 75, DEDUCED). -/
def execCfgInfo (mb : Mbx) (s : State) : Out State :=
  mbxSup mb (recCmd mb (fun s =>
    let u := s.sup
    let (a, s) := copySeq s u.aValid u.cellar.copyA
    let (b, s) := copySeq s u.bValid u.cellar.copyB
    s.reply mb St.ok (natLe 1 (b2n u.current) ++ natLe 1 (b2n u.aValid + 2 * b2n u.bValid) ++ natLe 4 a ++ natLe 4 b))) s
/-- CFG_IDENT (R503): the fields are set and stored at once. The record it writes captures the whole configuration, as that of CELLAR_STORE
does: the spec does not state what else it holds (log 110, DESIGN CHOICE). -/
def execCfgIdent (mb : Mbx) (x : CfgIdent) (s : State) : Out State :=
  mbxSup mb (vendor mb .sys (fun s =>
    if s.sup.lock then s.reply mb St.rights
    else if 4095 < x.hubId ∨ 4095 < x.pairId then s.reply mb St.badDesc
    else cellarFree mb (fun s =>
      let h := { s.sup.hdr with hubId := x.hubId, yoke := x.yoke, upper := x.upper, pairId := x.pairId, peerSerial := x.peerSerial, level := x.level }
      beginStore 1 mb h (supSet s { s.sup with hdr := h })) s)) s
def execLockSet (mb : Mbx) (s : State) : Out State := mbxSup mb (vendor mb .sys (fun s => (setLock s).reply mb St.ok)) s
/-- SVN_RAISE (R505). -/
def execSvnRaise (mb : Mbx) (idx val : Nat) (s : State) : Out State :=
  mbxSup mb (vendor mb .sys (fun s =>
    let u := s.sup
    let old := monoGet u.cellar idx
    if 16 ≤ idx ∨ 2 ^ 32 ≤ val then s.reply mb St.badDesc
    else if val < old ∨ (idx = 0 ∧ u.imgSvn < val) ∨ (idx = 1 ∧ u.imgKey < val) then s.reply mb St.badDesc
    else if val = old then s.reply mb St.ok
    else ((supSet s { u with cellar := { u.cellar with mono := smSet (fun _ => 0) u.cellar.mono idx val } }).notice 0x0B0C).reply mb St.ok)) s

/-! ### Images (R494, R521) -/

/-- Bytes placed in the management cores' SRAM. -/
def sramPut (m : SMap Byte) (off : Nat) : List Byte → SMap Byte
  | [] => m
  | b :: bs => sramPut (smSet (fun _ => (0 : Byte)) m off b) (off + 1) bs
/-- The staged image: as far as its own LEN and signatures reach. -/
def stagedImage (u : Sup) : List Byte :=
  let rd := fun (n : Nat) => (List.range n).map (smGet (fun _ => (0 : Byte)) u.sram)
  let len := imgLen (rd 256)
  if len ≤ 16773843 then rd (len + 3373) else rd 256
/-- IMAGE_WRITE: the staging area is as long as the longest image. -/
def execImageWrite (mb : Mbx) (off : Nat) (data : List Byte) (s : State) : Out State :=
  mbxSup mb (recCmd mb (fun s =>
    if 16777216 < off + data.length then s.reply mb St.badDesc
    else (supSet s { s.sup with sram := sramPut s.sup.sram off data }).reply mb St.ok)) s
/-- The status of an image that fails its verification (R521). -/
def imgStatus (reason : Nat) : Nat := if reason = 0 then St.ok else if reason ≤ 2 then St.badDesc else St.auth
/-- A vendor command whose data accompanies a status other than OK: IMAGE_COMMIT names its reason (Table 18-10). -/
def replyReason (s : State) (mb : Mbx) (status reason : Nat) : State :=
  if mb = .gone then s else (s.sbDone mb 0 (vendorPayload status 0 (natLe 1 reason))).emit (.reply mb status 0 (natLe 1 reason))
/-- IMAGE_COMMIT: in RECOVERY the hub runs the image and the start goes on; otherwise it is written into the Cellar (log 83, DEDUCED). -/
def execImageCommit (mb : Mbx) (s : State) : Out State :=
  mbxSup mb (recCmd mb (cellarFree mb (fun s =>
    let img := stagedImage s.sup
    let r := imgCheck s.sup.cellar img
    if r ≠ 0 then replyReason s mb (imgStatus r) r
    else if s.sup.stage = .recovery then
      let s := s.notice 0x0B05 [s.sup.recovered.getD 0]
      let s := enterStage (supSet s { runImg s.sup img with job := some { kind := 3, mb := none, data := img } }) .config
      s.reply mb St.ok [0]
    else supSet (s.hold mb) { s.sup with job := some { kind := 2, mb := some mb, data := img } }))) s

/-! ### Debug tokens (R515, R516) -/

/-- The status of a token (R516) (log 82, DEDUCED). -/
def tokenStatus (s : State) (t : List Byte) : Nat :=
  let u := s.sup
  if t.length ≠ 3437 ∨ getLE t 0 8 ≠ Config.serial ∨ getLE t 8 8 ≠ u.nonce0 ∨ getLE t 16 8 ≠ u.nonce1 ∨ getLE t 28 4 < monoGet u.cellar 2
    ∨ !Config.edVerify 4 (slice t 0 64) (slice t 64 64) ∨ !Config.mlVerify 4 (slice t 0 64) (slice t 128 3309) then St.auth
  else if getLE t 24 1 = 1 then St.ok
  else if getLE t 24 1 = 2 then (if (List.range 512).all (fun n => (tenantGet s n).state == .off) then St.ok else St.busy)
  else St.badDesc
/-- A token is checked and, if accepted, unlocks. -/
def tokenRun (s : State) (t : List Byte) : Nat × State :=
  let st := tokenStatus s t
  let u := s.sup
  if st = St.ok then (st, (supSet s { u with debug := max u.debug (getLE t 24 1), tokLast := st }).notice 0x0B0B)
  else (st, supSet s { u with tokLast := st, tokFails := satAdd 32 u.tokFails 1 })
/-- DEBUG_UNLOCK: an input shorter than a token is no command (R425). -/
def execDebugUnlock (mb : Mbx) (token : List Byte) (s : State) : Out State :=
  mbxSup mb (fun s => if token.length < 3437 then cxlCmd mb (fun s => s.cxl mb .invalidInput) s else vendor mb .sys (fun s => let (st, s) := tokenRun s (token.take 3437); s.reply mb st) s) s

/-! ### Tables of the switch (R228, R239) -/

def execMcastSet (mb : Mbx) (group entry : Nat) (s : State) : Out State :=
  mbxOnly mb (vendor mb .sys (fun s => if mcastOk group then (groupSet s group entry).reply mb St.ok else s.reply mb St.badDesc)) s
def execTagSet (mb : Mbx) (tag entry : Nat) (s : State) : Out State :=
  mbxOnly mb (vendor mb .sys (fun s => if tagOk tag entry then (tagSet s tag entry).reply mb St.ok else s.reply mb St.badDesc)) s

end Sys2Proof.Machine
end

