-- ==== Sys2Proof/Machine/Ways.lean ====
section
/-! DEFINITION. Machine/Ways.lean: the sideband's requests, the test access port's instructions and the SPDM messages (R508, R509,
R515, R516, R542 to R546): the operations, and the meanings of their rows. -/

namespace Sys2Proof.Machine

open Sys2Proof

/-! ### The sideband (R542 to R544) -/

/-- A request reaches the sideband only while its auxiliary power is there (R531). -/
def sbWay (f : State → State) (s : State) : Out State := supAny (fun s => if s.sup.aux then f s else s) s
def sbAns (s : State) (status : Nat) (data : List Byte := []) : State := s.emit (.sideband (natLe 1 status ++ data))
/-- The registers the sideband reads and writes while main power is off (R544). -/
def aonReg (a : Nat) : Bool := a == 0x30010 || a == 0x40060
/-- READ64: a register over the sideband; one that is not aligned completes as an unsupported request (R9, R542, R544; log 76,
DEDUCED). -/
def execRead64 (off : Nat) (s : State) : Out State :=
  sbWay (fun s =>
    if !s.on ∧ !aonReg off then sbAns s St.power
    else match busRead s off 8 with
      | some v => sbAns s St.ok (natLe 8 v)
      | none => s.emit (.regBad .sideband off)) s
def execWrite64 (off val : Nat) (s : State) : Out State :=
  sbWay (fun s =>
    if !s.on ∧ off ≠ 0x30010 then sbAns s St.power
    else if off % 8 ≠ 0 then s.emit (.regBad .sideband off)
    else sbAns (regWrite s off .whole val) St.ok) s
/-- The sideband mailbox's buffers (R543). -/
def sbPut (m : SMap Byte) (off : Nat) (d : List Byte) : SMap Byte := sramPut m off d
def execMbxIn (off : Nat) (data : List Byte) (s : State) : Out State :=
  sbWay (fun s =>
    if !s.on then sbAns s St.power
    else if s.host.sb.state = 1 then sbAns s St.busy
    else if data.isEmpty ∨ 32 < data.length ∨ 4096 < off + data.length then sbAns s St.badDesc
    else sbAns { s with host := { s.host with sb := { s.host.sb with inp := sbPut s.host.sb.inp off data } } } St.ok) s
def execMbxStatus (s : State) : Out State :=
  sbWay (fun s =>
    if !s.on then sbAns s St.power
    else sbAns s St.ok (natLe 1 s.host.sb.state ++ natLe 2 s.host.sb.rc ++ natLe 4 s.host.sb.outp.length)) s
/-- MBX_OUT: what lies past the output of the last command is stated nowhere (log 85, DESIGN CHOICE). -/
def execMbxOut (off len : Nat) (s : State) : Out State :=
  sbWay (fun s =>
    if !s.on then sbAns s St.power
    else if len = 0 ∨ 32 < len ∨ 4096 < off + len then sbAns s St.badDesc
    else
      let d := (s.host.sb.outp.drop off).take len
      let (n, s) := s.draw
      sbAns s St.ok (d ++ slice (Config.freeBytes n (len - d.length)) 0 (len - d.length))) s
/-- The hottest sensor and its reading (R480, R544). -/
def hottest (s : State) : Nat := sensors64.foldl (fun b i => if sensorTemp s b < sensorTemp s i then i else b) 0
def execTelemetry (s : State) : Out State :=
  sbWay (fun s =>
    let rd := fun (a n : Nat) => natLe n (regRead s a)
    if s.on then sbAns s St.ok (rd 0x40040 8 ++ natLe 1 (hottest s) ++ natLe 2 (ofSigned 16 (sensorTemp s (hottest s))) ++ rd 0x40050 2 ++ rd 0x10000 8)
    else sbAns s St.ok (natLe 11 0 ++ rd 0x40050 2 ++ rd 0x10000 8)) s

/-! ### The test access port (R515, R516, R546) -/

/-- An instruction is clocked in: TCK was seen. -/
def tapWay (f : State → State) (s : State) : Out State := supAny (fun s => f (supSet s { s.sup with tck := some s.time })) s
def tapBypass (s : State) (tdi : Bool) : State := s.emit (.tap 0xFF (natLe 1 (b2n tdi)))
def execIdcode (s : State) : Out State := tapWay (fun s => s.emit (.tap 0x01 (natLe 4 0x1B3C0B53))) s
/-- The levels the boundary-scan register samples at the sideband connector are the board's (free). -/
def tapSample (s : State) (code : Nat) : State := let (n, s) := s.draw; s.emit (.tap code (Config.freeBytes n 2))
def execSamplePreload (s : State) : Out State := tapWay (fun s => tapSample s 0x02) s
/-- EXTEST drives the connector only in OFF or in a ROM stopped by its identity check. -/
def execExtest (drive : List Bool) (s : State) : Out State :=
  tapWay (fun s =>
    if s.sup.stage = .off ∨ (s.sup.stage = .rom ∧ s.sup.reason = 9) then (tapSample s 0x03).emit (.event "EXTEST" (drive.map b2n))
    else tapBypass s false) s
/-- TOKEN_LOAD: with main power off no nonce stands that a token could equal (log 86, DEDUCED). -/
def execTokenLoad (token : List Byte) (s : State) : Out State :=
  tapWay (fun s =>
    let (st, s) := if s.on then tokenRun s token else (St.auth, s)
    supSet (s.emit (.tap 0x10 [])) { s.sup with tapLast := st }) s
def execTokenStatus (s : State) : Out State := tapWay (fun s => s.emit (.tap 0x11 (natLe 1 s.sup.tapLast))) s
/-- DBG_ACCESS: a status, and the value read; an access that is not aligned is an unsupported request (R9, R546). -/
def execDbgAccess (off val : Nat) (wr : Bool) (s : State) : Out State :=
  tapWay (fun s =>
    if !s.on ∨ s.sup.debug = 0 then tapBypass s false
    else if wr ∧ s.sup.debug ≠ 2 then s.emit (.tap 0x20 (natLe 1 St.rights))
    else if wr then (if off % 8 ≠ 0 then s.emit (.regBad .tap off) else (regWrite s off .whole val).emit (.tap 0x20 (natLe 1 St.ok)))
    else match busRead s off 8 with
      | some v => s.emit (.tap 0x20 (natLe 1 St.ok ++ natLe 8 v))
      | none => s.emit (.regBad .tap off)) s
def execBypass (_code : Nat) (tdi : Bool) (s : State) : Out State := tapWay (fun s => tapBypass s tdi) s

/-! ### SPDM (R508, R509) -/

/-- A connection's key: 0 to 15 the LDs' DOE, 16 the FM-owned LD's, 17 the yoke inbox. -/
def connKey : SpdmConn → Nat
  | .doe i => i
  | .fm => 16
  | .yoke => 17
/-- A connection is there: DOE while the host link is up, the yoke inbox while a yoke forms or stands (log 87, DEDUCED). -/
def connOpen (s : State) : SpdmConn → Bool
  | .doe i => s.host.linkUp && i < 16
  | .fm => s.host.linkUp
  | .yoke => s.sup.stage == .yoke || s.sup.yoked
def spdmGet (s : State) (c : SpdmConn) : SpdmSt := smGet (fun _ => {}) s.sup.spdm (connKey c)
def spdmSet (s : State) (c : SpdmConn) (x : SpdmSt) : State := supSet s { s.sup with spdm := smSet (fun _ => {}) s.sup.spdm (connKey c) x }
/-- A message: version 1.2, code, two parameters, body (log 44, PRESUMED). -/
def spdmMsg (code p1 p2 : Nat) (body : List Byte) : List Byte := natLe 1 0x12 ++ natLe 1 code ++ natLe 1 p1 ++ natLe 1 p2 ++ body
def spdmSay (s : State) (c : SpdmConn) (m : List Byte) : State := s.emit (.spdm c m)
/-- ERROR with its code: 1 InvalidRequest, 4 UnexpectedRequest. -/
def spdmError (s : State) (c : SpdmConn) (code : Nat) : State := spdmSay s c (spdmMsg 0x7F code 0 [])
/-- Bytes the SPDM standard lays out. -/
def spdmFree (s : State) (len : Nat) : List Byte × State := let (n, s) := s.draw; (Config.freeBytes n len, s)
/-- A request on an open connection that has reached a level of the negotiation. -/
def spdmWay (c : SpdmConn) (level : Nat) (f : State → State) (s : State) : Out State :=
  supOn (fun s => if !connOpen s c then s else if (spdmGet s c).level < level then spdmError s c 4 else f s) s
/-- The measurements of Table 18-7 (log 81, DESIGN CHOICE). -/
def measurement (s : State) (i : Nat) : List Byte × State :=
  let u := s.sup
  if i = 1 then (Config.sha384 Config.bootRom, s)
  else if i = 2 then (Config.sha384 u.runImage, s)
  else if i = 3 then (if u.cfgNone then spdmFree s 48 else (Config.sha384 u.cfgRead, s))
  else (natLe 2 u.level ++ natLe 1 (b2n u.lock) ++ natLe 1 u.debug ++ (List.range 3).flatMap (fun k => natLe 4 (monoGet u.cellar k)), s)
/-- A measurement block: index, then the standard's framing, then the value. -/
def measBlock (s : State) (i : Nat) : List Byte × State :=
  let (v, s) := measurement s i
  let (t, s) := spdmFree s 6
  (natLe 1 i ++ slice t 0 6 ++ v, s)
def measBlocks (s : State) : List Nat → List Byte × State
  | [] => ([], s)
  | i :: is => let (b, s) := measBlock s i; let (r, s) := measBlocks s is; (b ++ r, s)

/-! ### The hub's key pairs (R507) -/

/-- HMAC-SHA-384: blocks of 128 bytes (RFC 2104). -/
def hmac384 (key msg : List Byte) : List Byte :=
  let k := slice (if 128 < key.length then slice (Config.sha384 key) 0 48 else key) 0 128
  let pad := fun (v : Nat) => k.map (fun b => BitVec.ofNat 8 (Nat.xor b.toNat v))
  Config.sha384 (pad 0x5C ++ slice (Config.sha384 (pad 0x36 ++ msg)) 0 48)
/-- HKDF-SHA-384 of the unique device secret, with an empty salt and an output of 32 bytes (RFC 5869). -/
def hkdf32 (info : List Byte) : List Byte :=
  slice (hmac384 (slice (hmac384 (List.replicate 48 0) Config.uds) 0 48) (info ++ natLe 1 1)) 0 32
def ascii (t : String) : List Byte := t.toList.map (fun c => BitVec.ofNat 8 c.toNat)
/-- The seeds of the DevID pairs. -/
def edDevSeed : List Byte := hkdf32 (ascii "ZB3T devid ed25519")
def mlDevSeed : List Byte := hkdf32 (ascii "ZB3T devid mldsa65")
/-- What ties the alias pairs to the running image: SHA-384 of its signed message, and its SVN. -/
def aliasInfo (u : Sup) : List Byte := slice (Config.sha384 u.runImage) 0 48 ++ natLe 4 u.imgSvn
/-- The seeds of the alias pairs. -/
def edAliasSeed (u : Sup) : List Byte := hkdf32 (ascii "ZB3T alias ed25519" ++ aliasInfo u)
def mlAliasSeed (u : Sup) : List Byte := hkdf32 (ascii "ZB3T alias mldsa65" ++ aliasInfo u)
/-- The chains that the hub's DevID keys certify its alias keys in. -/
def edChain (u : Sup) : List Byte := Config.edChain edDevSeed (Config.edPublic (edAliasSeed u))
def mlChain (u : Sup) : List Byte := Config.mlChain mlDevSeed (Config.mlPublic (mlAliasSeed u))

/-- A signature over the transcript so far, which GET_COSIGN then co-signs (R509). -/
def spdmSign (s : State) (c : SpdmConn) (body : List Byte) : List Byte × State :=
  let (t, s) := spdmFree s 64
  let m := t ++ body
  (Config.edSign (edAliasSeed s.sup) m, spdmSet s c { spdmGet s c with signed := some m })

/-- GET_VERSION begins a connection anew. -/
def execGetVersion (conn : SpdmConn) (_req : List Byte) (s : State) : Out State :=
  spdmWay conn 0 (fun s => let (b, s) := spdmFree s 4; spdmSay (spdmSet s conn { level := 1 }) conn (spdmMsg 0x04 0 0 b)) s
def execGetCapabilities (conn : SpdmConn) (_req : List Byte) (s : State) : Out State :=
  spdmWay conn 1 (fun s => let (b, s) := spdmFree s 16; spdmSay (spdmSet s conn { spdmGet s conn with level := max 2 (spdmGet s conn).level }) conn (spdmMsg 0x61 0 0 b)) s
def execNegotiateAlgorithms (conn : SpdmConn) (_req : List Byte) (s : State) : Out State :=
  spdmWay conn 2 (fun s => let (b, s) := spdmFree s 48; spdmSay (spdmSet s conn { spdmGet s conn with level := 3 }) conn (spdmMsg 0x63 0 0 b)) s
/-- GET_DIGESTS: slot 0 alone is filled. -/
def execGetDigests (conn : SpdmConn) (_req : List Byte) (s : State) : Out State :=
  spdmWay conn 3 (fun s => spdmSay s conn (spdmMsg 0x01 0 1 (Config.sha384 (edChain s.sup)))) s
def execGetCertificate (conn : SpdmConn) (req : List Byte) (s : State) : Out State :=
  spdmWay conn 3 (fun s =>
    let off := getLE req 4 2
    let ch := edChain s.sup
    if getLE req 2 1 % 16 ≠ 0 ∨ ch.length < off then spdmError s conn 1
    else
      let d := (ch.drop off).take (getLE req 6 2)
      spdmSay s conn (spdmMsg 0x02 0 0 (natLe 2 d.length ++ natLe 2 (ch.length - off - d.length) ++ d))) s
def execChallenge (conn : SpdmConn) (req : List Byte) (s : State) : Out State :=
  spdmWay conn 3 (fun s =>
    if getLE req 2 1 % 16 ≠ 0 then spdmError s conn 1
    else
      let (nonce, s) := spdmFree s 32
      let body := Config.sha384 (edChain s.sup) ++ nonce
      let (sig, s) := spdmSign s conn (req ++ body)
      spdmSay s conn (spdmMsg 0x03 0 1 (body ++ sig))) s
/-- GET_MEASUREMENTS: operation 0 asks for their number, 0xFF for all, an index for one; signed when asked. -/
def execGetMeasurements (conn : SpdmConn) (req : List Byte) (s : State) : Out State :=
  spdmWay conn 3 (fun s =>
    let op := getLE req 3 1
    let which := if op = 0 then [] else if op = 0xFF then [1, 2, 3, 4] else [op]
    if op ≠ 0 ∧ op ≠ 0xFF ∧ 4 < op then spdmError s conn 1
    else
      let (blocks, s) := measBlocks s which
      let (nonce, s) := spdmFree s 32
      let body := natLe 1 which.length ++ natLe 3 blocks.length ++ blocks ++ nonce
      if bitOf (getLE req 2 1) 0 then
        let (sig, s) := spdmSign s conn (req ++ body)
        spdmSay s conn (spdmMsg 0x60 (if op = 0 then 4 else 0) 0 (body ++ sig))
      else spdmSay s conn (spdmMsg 0x60 (if op = 0 then 4 else 0) 0 body)) s
def execKeyExchange (conn : SpdmConn) (_req : List Byte) (s : State) : Out State :=
  spdmWay conn 3 (fun s =>
    let (b, s) := spdmFree s 256
    spdmSay (spdmSet s conn { spdmGet s conn with keyEx := true }) conn (spdmMsg 0x64 0 0 b)) s
def execFinish (conn : SpdmConn) (_req : List Byte) (s : State) : Out State :=
  spdmWay conn 3 (fun s =>
    if !(spdmGet s conn).keyEx then spdmError s conn 4
    else spdmSay (spdmSet s conn { spdmGet s conn with keyEx := false, session := true }) conn (spdmMsg 0x65 0 0 [])) s
def execEndSession (conn : SpdmConn) (_req : List Byte) (s : State) : Out State :=
  spdmWay conn 3 (fun s =>
    if !(spdmGet s conn).session then spdmError s conn 4
    else spdmSay (spdmSet s conn { spdmGet s conn with session := false, ide := none }) conn (spdmMsg 0x6C 0 0 [])) s
/-- The head of a VENDOR_DEFINED_RESPONSE: StandardID 0x0003 and the hub's PCI vendor ID. -/
def vendorHead (s : State) : List Byte × State := let (v, s) := spdmFree s 2; (natLe 2 3 ++ natLe 1 2 ++ slice v 0 2, s)
/-- GET_COSIGN: over the bytes of the connection's last Ed25519 signature. -/
def execGetCosign (conn : SpdmConn) (s : State) : Out State :=
  spdmWay conn 0 (fun s =>
    match (spdmGet s conn).signed with
    | none => spdmError s conn 4
    | some m =>
      let (n, s) := s.draw
      let (h, s) := vendorHead s
      let sig := Config.mlSign (mlAliasSeed s.sup) n m
      spdmSay s conn (spdmMsg 0x7E 0 0 (h ++ natLe 2 sig.length ++ sig))) s
def execGetPqChain (conn : SpdmConn) (off len : Nat) (s : State) : Out State :=
  spdmWay conn 3 (fun s =>
    let (h, s) := vendorHead s
    let d := ((mlChain s.sup).drop off).take len
    spdmSay s conn (spdmMsg 0x7E 0 0 (h ++ natLe 2 d.length ++ d))) s
/-- IDE_KM: taken in a secured session alone; its keys and its answer are laid out by the CXL standard. -/
def execIdeKm (conn : SpdmConn) (req : List Byte) (s : State) : Out State :=
  spdmWay conn 3 (fun s =>
    if !(spdmGet s conn).session then spdmError s conn 4
    else
      let (b, s) := spdmFree s 16
      spdmSay (spdmSet s conn { spdmGet s conn with ide := some req }) conn (spdmMsg 0x7E 0 0 b)) s

end Sys2Proof.Machine
end

