-- ==== Sys2Proof/Machine/Boundary.lean ====
section
/-! DEFINITION. Machine/Boundary.lean: the tick boundary and its fixed order (R55), the TICK cell and the step of a joining member
(R26, R28, R32), tick loss (R31), and sampling (R256). -/

namespace Sys2Proof.Machine

open Sys2Proof

/-! ### Before the new tick (R55 step 1, R53, R57, R58) -/

/-- A release stops this running job at boundary k, so no overrun is decided for it (R52). -/
def releasing (s : State) (k j : Nat) : Bool :=
  let x := jobGet s j
  x.state == .running && !x.release.isEmpty && (match x.stopAt with | some t => decide (t ≤ k) | none => false)
/-- Steps still in progress at the boundary have passed their deadlines. -/
def closeSteps (s : State) : State := (s.seq.steps.filter (fun x => x.job.isSome && x.deadline ≤ s.time)).foldl overrunStep s
/-- The overruns of one job in the tick that ended: its fault, its one notice, the count (R57, R58). The notice's first argument
names the engine as class × 256 + instance (log 104, DESIGN CHOICE). -/
def overrunJob (s : State) (j : Nat) : State :=
  let mine := s.seq.overran.filter (fun o => o.1 == j)
  let first := mine.foldl (fun (b : Option (Nat × Nat × Nat × Nat × Nat × Nat)) o => match b with
    | none => some o
    | some p => if o.2.1 < p.2.1 then some o else b) none
  match first with
  | none => s
  | some (_, _, img, phase, cls, inst) =>
    let s := s.bump F.SEQ_OVERRUN_COUNT_COUNT mine.length
    let s := s.notice 0x0106 [cls * 256 + inst, phase, img] (jobGet s j).tenant (some j)
    if (herdGet s j).active then shadowFail s j else raiseFault s j St.overrun 1
def overrunDecisions (s : State) (k : Nat) : State := (jobSlots.filter (fun j => !releasing s k j)).foldl overrunJob s
/-- A fault that stops its job at the first boundary; those of classes 4 and 5 stop a running job at the stop boundary
(R443, R52, R53). -/
def stopsNow (x : Job) : Bool := match x.fault with
  | some (_, cls) => x.state == .armed || x.stopAt.isNone || !waitsStop cls
  | none => false
/-- Jobs that stop at boundary k. -/
def stopsAt (s : State) (k j : Nat) : Bool :=
  let x := jobGet s j
  (x.state == .running || x.state == .armed) && (stopsNow x || (match x.stopAt with | some t => decide (t ≤ k) | none => false))
/-- A job stops: its steps and their requests end, its pail images go, its slot is FAULTED (R53, R57, R85, R152, R563). -/
def stopJob (s : State) (j : Nat) : State :=
  let s := (s.seq.steps.filter (fun x => x.job == some j)).foldl (fun s x => x.locks.foldl lockDrop s) s
  let s := dropJobSteps s j
  let s := chrnSet s { s.chrn with images := s.chrn.images.filter (fun i => i.job != j) }
  let x := jobGet s j
  jobSet s j { x with state := .faulted, fault := none, stopAt := none, resume := if x.state = .running then x.tick else x.resume }

/-! ### Tables in force (R240, R244, R254) -/

/-- The arbiter instance of a reservation's class and instance (Table 08-1). -/
def resArb (r : Resv) : Option Nat :=
  if r.cls = 0x10 then some r.inst else if r.cls = 0x11 then some (34 + r.inst) else if r.cls = 0x12 then some (36 + r.inst)
  else if r.cls = 0x13 then some (44 + r.inst) else if r.cls = 4 then some 60 else none
def shareTable (s : State) : SMap Nat :=
  jobSlots.foldl (fun m j =>
    let x := jobGet s j
    if !x.holds then m else x.image.res.foldl (fun m r => match resArb r with
      | some i => smSet (fun _ => 0) m (i * 1024 + x.tenant) (smGet (fun _ => 0) m (i * 1024 + x.tenant) + r.amount)
      | none => m) m) []
def tablesInForce (s : State) : State :=
  let w := (List.range 514).foldl (fun m n => smSet (fun _ => 16) m n (s.fld (F.SHP_TENANT_WEIGHT n))) []
  let g := (List.range 832).foldl (fun m i => smSet (fun _ => 0x4000000) m i (s.reg (F.SHP_GATE_START (i / 32) (i / 4 % 8) (i % 4)).addr).toNat) []
  { s with fab := { s.fab with weights := w, gates := g, shares := shareTable s } }

/-! ### Jobs that begin, go on or end (R39, R49, R51) -/

def jobBoundary (k : Nat) (s : State) (j : Nat) : State :=
  let x := jobGet s j
  let run := fun (s : State) (x : Job) =>
    if (imageTick x.image x.tick).isNone then unchargeAll (jobSet s j { x with state := .complete, holds := false }) j else jobSet s j x
  if x.state = .armed ∧ x.start ≤ k then run s { x with state := .running, everRan := true, tick := x.resume }
  else if x.state = .running then run s { x with tick := x.tick + 1 }
  else s
/-- A release that waited for its job to stop (R52). -/
def releaseBoundary (s : State) (j : Nat) : State :=
  let mbs := (jobGet s j).release
  if mbs.isEmpty ∨ (jobGet s j).state = .running ∨ (herdGet s j).stop.isSome then s
  else mbs.foldl (fun s mb => s.replyBg mb St.ok) (releaseJob s j)
/-- The herd's stop boundary has come (R443, R450). -/
def herdStopBoundary (k : Nat) (s : State) (j : Nat) : State :=
  match (herdGet s j).stop with
  | some (t, origin, reason) => if t ≤ k then herdStopped s j t origin reason else s
  | none => s

/-! ### The boundary (R55, R86) -/

/-- Tiles with an action due at the boundary. -/
def boundaryCount (s : State) : Nat := (s.st.tiles.filter (fun e => e.2.state == .opened || e.2.state == .shadowed || e.2.rowWritten)).length
/-- A pending stretch level that takes effect (R35). -/
def stretchBoundary (s : State) (k : Nat) : State :=
  match s.tk.pend with
  | some (l, at') => if at' ≤ k then (tkSet s { s.tk with cur := l, pend := none }).notice 0x0105 else s
  | none => s
/-- Posted frames whose cutoff has come close; those whose shadow has been published make room for new ones (R165). -/
def postsBoundary (s : State) : State :=
  chrnSet s { s.chrn with posts := (s.chrn.posts.filter (fun p => !p.converted || (tileGet s p.tile).state == .shadowed)).map (fun p => { p with closed := p.over s.time }) }
/-- Cut-overs that have not flipped within their bound are abandoned (R114). -/
def cutsOverdue (s : State) : State :=
  (s.st.copies.filter (fun c => match c.close with | some c0 => decide (c0 + 1000 ≤ s.time) | none => false)).foldl (fun s c => abandonCopy s c.tile) s
/-- What holds for one tick alone starts afresh. -/
def freshTick (s : State) : State :=
  { s with fab := { s.fab with raised := [] }, host := { s.host with memErr := [] }, seq := { s.seq with overran := [], dispatched := [] } }
/-- The actions at the boundary that opens tick k at T(k) = t, in the order of R55; what each chapter does at a boundary follows (log 88, DEDUCED). -/
def boundary (k t : Nat) (s : State) : State :=
  let b := closeSteps (cutsOverdue s)
  let len := tickLen b
  let s := { (tkSet b { b.tk with num := k, start := t }) with fab := { b.fab with raised := [] } }
  let s := overrunDecisions s k
  let stopped := jobSlots.filter (stopsAt s k)
  let s := stopped.foldl stopJob s
  let drop : Option Nat → Bool := fun j => match j with | some j => stopped.contains j | none => false
  let work := boundaryCount s
  let s := boundaryTiles (retainBoundary s drop) drop k
  let s := xltBoundary t (compBoundary (vtBoundary (collBoundary (postsBoundary s))) k)
  let s := stretchBoundary s k
  let s := jobSlots.foldl (jobBoundary k) s
  let s := jobSlots.foldl (herdStopBoundary k) s
  let s := jobSlots.foldl releaseBoundary s
  let s := tablesInForce s
  let g := s.fld F.TICK_GUARD_GUARD
  let s := tkSet s { s.tk with base := s.fld F.TICK_PERIOD_BASE, guard := g, workLeft := decide (1024 * g < work) }
  let s := herdBoundary b s k
  let s := cutEnd { s with host := { s.host with memErr := [] }, seq := { s.seq with overran := [], dispatched := [] } }
  damperBoundary s len
/-- The tick cells and alignment checks of a boundary that the hub's own timebase brings (R26, R30, R31, R37). -/
def boundaryCells (s : State) : State :=
  let s := if isRoot s then rootTick (announce s) else askStretch s
  let (lost, s) := alignCheck s
  let s := if lost then faultAllJobs s St.aborted 3 else s
  holdoverCheck s
/-- TICK_BOUNDARY: the tick period expires (log 94, DESIGN CHOICE). -/
def execTickBoundary (s : State) : Out State :=
  hubOnly (fun s =>
    let t := s.tk.start + tickLen s
    boundaryCells (boundary ((s.tk.num + 1) % 2 ^ 48) t (s.upTo t))) s
/-- TICK_LOST: 16 consecutive ticks without a TICK cell (R31). -/
def execTickLost (s : State) : Out State :=
  hubOnly (fun s =>
    if isRoot s ∨ s.tk.missed < 16 then s
    else
      let s := (s.put F.TICK_STATUS_LOST 1).notice 0x0104
      let s := faultAllJobs s St.link 3
      tkSet s { s.tk with lostRoot := true, holdover := false, missed := 0 }) s

/-! ### The TICK cell (R26, R28, R32) -/

/-- A TICK cell is forwarded to the children with the parent link's delay added; its residence is added as it leaves. -/
def forwardTick (s : State) (port : Nat) (c : Cell) : State :=
  let pl := slice c.payload 0 256
  let corr := getLE pl 32 8 + s.fld (F.TICK_PORT_DELAY_DELAY port)
  let pl := patch (patch pl 6 (natLe 2 s.hubId)) 32 (natLe 8 corr)
  (childPorts s).foldl (fun s n => forwardPort s n { c with ack := 0, payload := pl } (stamp s s.tk.frac)) s
/-- A job that runs or waits to run is faulted by the step of a joining member: class 3, without points (Table 16-1). -/
def stepFault (s : State) (j : Nat) : State :=
  raiseFault s j St.aborted 6
/-- R28: the member takes up the domain's tick number and phase; the actions of R55 are carried out once. -/
def tickStep (s : State) (c : Cell) : State :=
  let k := getLE c.payload 8 6
  let at' := getLE c.payload 16 6
  let cur := min 64 (getLE c.payload 14 1)
  let t := (stamp s s.tk.frac - getLE c.payload 32 8) / 16
  let s := jobSlots.foldl stepFault s
  let s := boundary k t (tkSet s { s.tk with pend := if cur = s.tk.cur then none else some (cur, k) })
  tkSet s { s.tk with pend := if at' ≠ 0 ∧ k < at' then some (min 64 (getLE c.payload 15 1), at') else none, joined := true, got := true, missed := 0, holdover := false, mismatch := false, offset := 0, warnRun := 0, aligned := true }
/-- A TICK cell on a port: foreign, not from the parent, of another period (R25, R32), or taken. -/
def tickArrive (port : Nat) (c : Cell) (s : State) : State :=
  if c.ty ≠ 0x30 ∨ getLE c.payload 0 1 ≠ 1 then s
  else if foreign s c then countForeign s
  else if isRoot s ∨ port ≠ parentPort s then s
  else if getLE c.payload 24 4 ≠ s.tk.base then
    (if s.tk.mismatch then s else (tkSet s { s.tk with mismatch := true }).notice 0x0108)
  else
    let s := forwardTick s port c
    if s.tk.joined then tickTake s c else tickStep s c
def execTick (port frac : Nat) (c : Cell) (s : State) : Out State := hubOnly (fun s => arrive (tickArrive port) port c (atFrac frac s)) s

/-! ### Sampling (R256) -/

/-- One queue's period closes: its registers are written together. -/
def sampClose (s : State) (k : Nat) : State :=
  let q := k / 4
  let v := k % 4
  let p := smGet (fun _ => {}) s.fab.samps k
  let cap := fun (n : Nat) => min n (2 ^ 32 - 1)
  let s := ((s.put (F.SHP_SAMP_DEPTH_MAX q v) (cap p.maxDepth)).put (F.SHP_SAMP_DEPTH_LAST q v) (cap (depth s q v)))
  let s := ((s.put (F.SHP_SAMP_DELAY_MAX q v) (cap p.maxDelay)).put (F.SHP_SAMP_DELAY_MEAN q v) (cap (if p.cells = 0 then 0 else p.sumDelay / p.cells)))
  let w := s.fld F.SHP_SAMP_CTL_WARN
  if w ≠ 0 ∧ w < p.maxDelay then s.notice 0x0421 [q, v, p.maxDelay] else s
/-- SAMPLE_PERIOD_CLOSE: at a boundary PERIOD ticks after the last. -/
def execSamplePeriodClose (s : State) : Out State :=
  hubOnly (fun s =>
    if s.tk.num < s.fab.sampFrom + s.fld F.SHP_SAMP_CTL_PERIOD then s
    else
      let s := (List.range 136).foldl sampClose s
      { s with fab := { s.fab with samps := [], sampFrom := s.tk.num } }) s

end Sys2Proof.Machine
end

