-- ==== Sys2Proof/Machine/Cells.lean ====
section
/-! DEFINITION. Machine/Cells.lean: cells that enter the switch core, are matched and delivered (spec/07 R219, R225), the skimmer
(R234 to R236), system cells (R64, R205, R209), responses and their bound (R203), and the meanings of the rows that carry them. -/

namespace Sys2Proof.Machine

open Sys2Proof

/-! ### System cells (R64, R87, R205) -/

/-- The tenant and key under which the system context reaches a tile (log 43, DESIGN CHOICE): those of the tile; of a FREE tile, those of an
enabled segment with the key the cell carries that covers it. -/
def sysOwner (s : State) (t key : Nat) : Option (Nat × Nat) :=
  let x := tileGet s t
  let p := pairTile s t
  if x.state ≠ .free then some (x.tenant, x.key)
  else match s.xlt.segs.find? (fun e => e.2.en && e.2.target ≤ p && p < e.2.target + e.2.limit && e.2.segKey == key) with
    | some e => some (e.1 / 8, key)
    | none => none
/-- A request of the system context to a tile of this half. -/
def sysTile (s : State) (r : Req) : State :=
  let t := r.cell.addr / 65536
  match sysOwner s t r.cell.epoch with
  | some (ten, key) => enter s { r with ten := ten, key := key, tile := pairTile s t, off := r.cell.addr % 65536 }
  | none => if isWrite r.cell.ty then answerReq s r { st := St.unmapped } else answerReq s r { st := St.ok, data := List.replicate (reqLen r.cell) 0 }
/-- A request of the system context to the reserved area. The hub alone writes its own structures: the spec names no status for a write
that meets one, and the model answers E_RIGHTS (log 110, DESIGN CHOICE). -/
def sysResv (s : State) (r : Req) : State :=
  let a := r.cell.addr
  let n := reqLen r.cell
  if isWrite r.cell.ty ∧ hubOwned a then answerReq s r { st := St.rights }
  else if r.cell.ty = 0x01 then answerReq s r { st := St.ok, data := resvBytes s a n }
  else if r.cell.ty = 0x02 then answerReq (s.resvWrite a (slice r.cell.payload 0 n)) r { st := St.ok }
  else
    let m := atomicSize r.cell
    let old := resvBytes s a m
    answerReq (s.resvWrite a (natLe m (atomicTimes r.cell (r.riders.length + 1) (leNat old)))) r { st := St.ok, data := old }
/-- A request cell with TAG 0xFFFF at its home half, with the riders it carries. -/
def sysCell (inp : Nat) (c : Cell) (riders : List (Nat × Cell)) (s : State) : State :=
  if c.ty = 0x02 ∧ c.len = 63 ∧ c.addr = extInbox then takeMsg extMessage c s
  else if c.ty = 0x02 ∧ c.len = 63 ∧ c.addr = herdInbox then herdMessage c s
  else
    let (r, s) := newReq s inp c
    let r := { r with riders := riders }
    if isCoh c.ty then answerReq s r { st := St.rights }
    else if !formOk c then answerReq s r { st := St.badDesc }
    else if c.addr < 0x2E000000000 then sysTile s r
    else if c.addr < 0x30000000000 then sysResv s r
    else answerReq s r { st := St.unmapped }

/-! ### The skimmer (R234 to R236) -/

/-- Arbiter slot and hub-local address of a request cell: a tenant's where it was translated to, the system's its own. -/
def skimAddr (c : Cell) (p : Option Place) : Option (Nat × Nat) :=
  if c.tag = 0xFFFF then some (512, c.addr) else p.map (fun p => (p.ten, p.addr))
/-- A cell may be combined (R234). -/
def skimCand (s : State) (c : Cell) (p : Option Place) : Bool :=
  !c.fwd
  && ((c.ty == 0x01 && s.flag F.SWX_SKIM_CTL_READ_EN) || (c.ty == 0x03 && atomicOk c && s.flag F.SWX_SKIM_CTL_ATOMIC_EN))
  && (match skimAddr c p with | some a => (cohWin s (a.2 / 65536)).isNone | none => false)
/-- Identical candidates. -/
def skimSame (e : Skim) (c : Cell) (p : Option Place) : Bool :=
  e.c.ty == c.ty && e.c.opx == c.opx && e.c.len == c.len && e.c.epoch == c.epoch && skimAddr e.c e.place == skimAddr c p
  && (c.ty != 0x03 || slice e.c.payload 0 (c.len + 1) == slice c.payload 0 (c.len + 1))
def skimFlow (x c : Cell) : Bool := x.src == c.src && x.srcEp == c.srcEp && x.dst == c.dst && x.dstEp == c.dstEp && x.tag == c.tag
/-- A cell of the same flow waits unissued. -/
def flowWaits (s : State) (c : Cell) : Bool := s.fab.skims.any (fun e => skimFlow e.c c || e.riders.any (fun q => skimFlow q.2 c))
def skimsSet (s : State) (l : List Skim) : State := { s with fab := { s.fab with skims := l } }
/-- First and last of the 64-byte lines a cell reaches. -/
def skimLines (c : Cell) (p : Option Place) : Option (Nat × Nat) := (skimAddr c p).map (fun a => (a.2 / 64, (a.2 + reqLen c - 1) / 64))
/-- A cell that writes or atomically changes a byte of an entry's lines. -/
def skimHits (e : Skim) (c : Cell) (p : Option Place) : Bool :=
  (isWrite c.ty || c.ty == 0x43) && (match skimLines e.c e.place, skimLines c p with | some a, some b => a.1 ≤ b.2 && b.1 ≤ a.2 | _, _ => false)
/-- Entries whose line a cell writes take no more riders (log 80, DEDUCED). -/
def skimStale (c : Cell) (p : Option Place) (s : State) : State :=
  skimsSet s (s.fab.skims.map (fun e => if skimHits e c p then { e with stale := true } else e))
/-- A request cell stamped `time` arrives at the skimmer: a rider of an entry, or an entry of its own. -/
def skimArrive (x : QCell) (s : State) : State :=
  let c := x.c
  let p := x.place
  let cand := skimCand s c p
  match (if cand ∧ !flowWaits s c then s.fab.skims.find? (fun (e : Skim) => e.cand && !e.stale && e.riders.length < s.fld F.SWX_SKIM_CTL_MAX_RIDERS && skimSame e c p) else none) with
  | some e =>
    let s := s.bump (if c.ty = 0x01 then F.SWX_SKIM_COUNT_READS else F.SWX_SKIM_COUNT_ATOMICS)
    skimsSet s (s.fab.skims.map (fun y => if y = e then { e with riders := e.riders ++ [(x.inp, c)] } else if skimHits y c p then { y with stale := true } else y))
  | none =>
    let s := skimStale c p s
    let room := (s.fab.skims.filter (fun (e : Skim) => e.cand)).length < 256
    skimsSet s (s.fab.skims ++ [{ inp := x.inp, c := c, gw := x.out, place := p, time := x.time, cand := cand && room }])
/-- A request cell is carried out at the store, with its riders: a tenant's where the ingress stage has translated it to. -/
def carryOut (inp : Nat) (c : Cell) (p : Option Place) (riders : List (Nat × Cell)) (s : State) : State :=
  if c.tag = 0xFFFF then sysCell inp c riders s
  else match p with | some p => acceptAt inp c p riders s | none => acceptCell inp c s
/-- Data bytes of a request at a gateway's arbiter, rounded up to 64 (Table 08-1). -/
def gateCost (c : Cell) : Nat := (reqLen c + 63) / 64 * 64
/-- A waiting entry's request at the arbiter of its gateway. -/
def skimRq (s : State) (g : Nat) (e : Skim) : Rq :=
  let slot := ((skimAddr e.c e.place).map Prod.fst).getD 513
  { top := if e.c.colour = 0 ∧ 0 < shareOf s (g + 3) slot then slot else 1024, slot := slot, inp := 0, cost := gateCost e.c, q := { id := 0, c := e.c, inp := e.inp, out := g, plane := 0 } }
/-- The entry that a gateway issues next: the oldest of the tenant the arbiter picks (R244, Table 08-1; log 111, DEDUCED). -/
def skimPick (s : State) (g : Nat) : Option Skim × State :=
  let mine := s.fab.skims.filter (fun e => e.gw == g)
  let rqs := mine.map (skimRq s g)
  let (r, a) := arbPick s (g + 3) 256 rqs rqs
  let s := arbSet s (g + 3) a
  match r with
  | none => (none, s)
  | some r => (mine.find? (fun e => skimRq s g e == r), arbCharge s (g + 3) r)
/-- A gateway issues an entry: carried out once, for itself and its riders. -/
def skimIssue (g : Nat) (s : State) : State := match skimPick s g with
  | (none, s) => s
  | (some e, s) => wake (pump ((skimsSet s (s.fab.skims.erase e)).atTime e.time (carryOut e.inp e.c e.place e.riders)))
/-- Every waiting entry of a gateway is issued. -/
def skimFlush : Nat → Nat → State → State
  | 0, _, s => s
  | n + 1, g, s => skimFlush n g (skimIssue g s)
/-- A request cell performed at once, after what waits before it at its gateway. -/
def requestHere (inp : Nat) (c : Cell) (s : State) : State :=
  let s := skimFlush s.fab.skims.length (gatewayOf s c) s
  wake (pump (carryOut inp c none [] (skimStale c (ingressPlace s inp c) s)))

/-! ### Responses (R203, R219, R347, R400, R401, R409, R462) -/

/-- What an outstanding request's end means to the unit that issued it. -/
def txnEnd (s : State) (t : Txn) (st flags : Nat) (data : List Byte) : State :=
  let s := match t.step with | some id => stepWritten s id t.txn st | none => s
  let s := match t.msg with | some m => if st = St.ok then msgDrop s m else s | none => s
  match s.reqs.find? (fun r => r.wait == .fwd t.txn) with
  | some r =>
    if st = St.ok ∧ r.ld.isSome ∧ r.cell.ty = 0x02 ∧ (enRun r).isSome then afterTenant s r none
    else answerReq s r { st := st, slow := bitOf flags 2, data := data }
  | none => s
def txnDrop (s : State) (t : Txn) : State := { s with fab := { s.fab with txns := s.fab.txns.erase t } }
/-- A response is matched by TXN; one that comes after its request's timeout is counted (R203), and nothing awaits any other. -/
def rspTake (c : Cell) (s : State) : State :=
  match s.fab.txns.find? (fun t => t.txn == c.txn) with
  | none =>
    if s.fab.late.contains c.txn then ({ s with fab := { s.fab with late := s.fab.late.erase c.txn } }).bump F.FAB_TIMEOUT_COUNT_LATE
    else if c.ty = 0x12 then shadowWritten s c.opx else s
  | some t =>
    let s := match t.step.bind (stepGet s) with | some x => shadowCopy s x c | none => s
    wake (pump (txnEnd (txnDrop s t) t c.opx c.len c.payload))

/-! ### Delivery inside the hub (Table 07-2) -/

/-- A tick cell of any kind, at the port it arrives on. A cell of a foreign domain is counted whatever its subtype (R25). -/
def tickCells (inp : Nat) (c : Cell) (s : State) : State :=
  let k := getLE c.payload 0 1
  if k = 1 then tickArrive inp c s else if k = 2 then delayReqTake inp c s else if k = 3 then delayRespTake inp c s
  else if k = 4 then stretchTake inp c s else if foreign s c then countForeign s else s
/-- The tile a VN2 cell names at this half. -/
def vn2Tile (s : State) (c : Cell) : Nat := match winOf s c with
  | some w => localTile (xlate s w.winTenant c.addr 0 (some w)).2.tile
  | none => 0
def internalPort (s : State) (c : Cell) : Nat :=
  if c.ty = 0x20 ∧ getLE c.payload 0 2 ≠ 0 then churnPort ((waitEngine s c s.time).getD 0)
  else if c.ty = 0x20 ∨ c.ty = 0x22 then churnPort (vn2Tile s c % 16)
  else if c.ty = 0x14 then churnPort (((ckptStep s (getLE c.payload 0 2) (some c.src)).map Step.inst).getD 0)
  else ownPort s c
/-- A notice record goes out at the HOST port (R207). -/
def noticeOut (c : Cell) (s : State) : State := s.emit (.event "NOTICE" ((slice c.payload 0 64).map (fun b => b.toNat)))
/-- A cell reaches the unit it is bound for; a tick cell with the fraction of its ingress stamp. -/
def hereCell (x : QCell) (s : State) : State :=
  let c := x.c
  if (1 ≤ c.ty ∧ c.ty ≤ 3) ∨ isCoh c.ty then skimArrive x s
  else if c.ty = 0x21 then match ingressPlace s x.inp c with
    | some p => skimArrive { x with place := some p } s
    | none => wake (pump (acceptCell x.inp c s))
  else if (0x11 ≤ c.ty ∧ c.ty ≤ 0x13) ∨ c.ty = 0x4C ∨ c.ty = 0x4D then rspTake c s
  else if c.ty = 0x14 then ckptAckTake c s
  else if c.ty = 0x22 then ckptDataTake c s
  else if c.ty = 0x30 then
    let now := s.tk.frac
    let s := tickCells x.inp c (match x.stamp with | some a => atFrac (a % 16) s | none => s)
    atFrac now s
  else if c.ty = 0x31 then emberTake c s
  else if c.ty = 0x32 then noticeOut c s
  else if c.ty = 0x33 then abortTake x.inp c s
  else if c.ty = 0x4A then wake (csnpRsp c s)
  else s
/-- A matched cell moves to its internal port, with the timestamp of its arrival at the hub (R21). -/
def deliver (s : State) (x : QCell) : State :=
  let s := sampDelay { s with fab := { s.fab with egress := s.fab.egress.erase x } } x
  if x.c.ty = 0x20 then retryVn2 (vn2Cell s x.inp x.c x.time) else (freeEntry s x).atTime x.time (hereCell x)
/-- SWITCH_MATCH: one cell time; its matched cells move, and those bound for internal ports arrive there (log 8, DEDUCED). -/
def execSwitchMatch (s : State) : Out State :=
  hubOnly (fun s => let s := matchSlot s; ((moved s).filter (fun x => 26 ≤ x.out)).foldl deliver s) s

/-! ### A cell enters the switch core (R219, R220) -/

/-- A cell for this hub joins the queue of its internal port. -/
def queueHere (inp : Nat) (c : Cell) (p : Option Place) (s : State) : State :=
  let (slot, s) := slotHere s c
  let (id, s) := newCellId s
  enqueueCopy true s { qcell s inp (internalPort s c) slot c id with place := p, stamp := if c.ty = 0x30 then some (stamp s s.tk.frac) else none }
/-- The ingress stage translates a tenant's request before it is queued; one that is refused completes there, one homed in the other
half goes on to it (R219). -/
def requestIn (inp : Nat) (c : Cell) (s : State) : State := match cellVerdict s (newReq s inp c).1 with
  | (.here p, _) => queueHere inp c (some p) s
  | (.away p, r) => yokePass (farAccess s (r.put p)) inp c
  | _ => giveBack (wake (pump (acceptCell inp c s))) inp c.vn
/-- Where the ingress stage finds the tile of a VN2 cell: in the other half or not; none where the cell ends there. -/
def vn2Away (s : State) (c : Cell) : Option Bool := match winOf s c with
  | none => none
  | some w =>
    if tenantCheck s w.winTenant ≠ St.ok then none
    else if c.ty = 0x20 ∧ getLE c.payload 0 2 ≠ 0 then some false
    else match xlate s w.winTenant c.addr Need.w (some w) with | (st, t) => if st = St.ok then some (!homedHere s t.tile) else none
/-- The ingress stage on a reduction, a post or a checkpoint cell (R219). -/
def vn2In (inp : Nat) (c : Cell) (s : State) : State := match vn2Away s c with
  | some false => queueHere inp c none s
  | some true => yokePass s inp c
  | none => if c.ty = 0x20 then vn2Cell s inp c s.time else giveBack (ckptDataTake c s) inp c.vn
/-- A cell for this hub at the ingress stage. -/
def cellIn (inp : Nat) (c : Cell) (s : State) : State :=
  if ((1 ≤ c.ty ∧ c.ty ≤ 3) ∨ isCoh c.ty) ∧ c.tag ≠ 0xFFFF then requestIn inp c s
  else if c.ty = 0x20 ∨ c.ty = 0x22 then vn2In inp c s
  else queueHere inp c none s
/-- A cell that has passed the port's checks takes its way. A tick cell or an ABORT goes to the HOST port of each hub it reaches: the spec
does not state its DST (log 79, DESIGN CHOICE). -/
def switchIn (inp : Nat) (c : Cell) (s : State) : State :=
  if c.ty = 0x21 then sendFrom s inp c
  else if c.ty = 0x30 ∨ c.ty = 0x33 then queueHere inp c none s
  else match routeOf s c with
    | .ext p => let (slot, s) := slotOf s c; let (id, s) := newCellId s; enqueue s inp p slot c id
    | .here => cellIn inp c s
    | .lost => unroutable s inp c
def switchArrive (inp : Nat) (c : Cell) (s : State) : State := match ingress s inp c with
  | (none, s) => s
  | (some c, s) => switchIn inp c s
def execSwitchCellArrive (inp : Nat) (c : Cell) (s : State) : Out State := hubOnly (switchArrive inp c) s
/-- SKIM_ISSUE: the entry a gateway issues next; gateway 0 is G0, 1 is G1. -/
def execSkimIssue (g : Nat) (s : State) : Out State := hubOnly (skimIssue (31 + g % 2)) s

/-! ### Rows that carry one whole request or response -/

/-- A request cell of a type at its home. -/
def requestRow (ty inp : Nat) (c : Cell) (s : State) : State := arriveHere (fun c s => if c.ty = ty then requestHere inp c s else s) inp c s
def execRead (inp : Nat) (c : Cell) (s : State) : Out State := hubOnly (requestRow 0x01 inp c) s
def execWrite (inp : Nat) (c : Cell) (s : State) : Out State := hubOnly (requestRow 0x02 inp c) s
def execAtomic (inp : Nat) (c : Cell) (s : State) : Out State := hubOnly (requestRow 0x03 inp c) s
/-- A response cell of a type. -/
def responseRow (ty inp : Nat) (c : Cell) (s : State) : State := arriveHere (fun c s => if c.ty = ty then rspTake c s else s) inp c s
def execReadRsp (inp : Nat) (c : Cell) (s : State) : Out State := hubOnly (responseRow 0x11 inp c) s
def execWriteRsp (inp : Nat) (c : Cell) (s : State) : Out State := hubOnly (responseRow 0x12 inp c) s
def execAtomicRsp (inp : Nat) (c : Cell) (s : State) : Out State := hubOnly (responseRow 0x13 inp c) s
/-- REQ_TIMEOUT (R203). -/
def execReqTimeout (txn : Nat) (s : State) : Out State :=
  hubOnly (fun s => match s.fab.txns.find? (fun t => t.txn == txn) with
    | none => s
    | some t =>
      let s := txnDrop (s.upTo t.deadline) t
      let s := { s with fab := { s.fab with late := s.fab.late ++ [t.txn] } }
      let s := (s.bump F.FAB_TIMEOUT_COUNT_TIMEOUTS).onceTick 0x0406 t.dst [t.dst]
      wake (pump (txnEnd s t St.link 0 []))) s
/-- NOTICE: a notice record for this hub is taken to the HOST port (R207). -/
def execNotice (inp : Nat) (c : Cell) (s : State) : Out State := hubOnly (arriveHere (fun c s => if c.ty = 0x32 then noticeOut c s else s) inp c) s

end Sys2Proof.Machine
end

