-- ==== Sys2Proof/Machine/Migrate.lean ====
section
/-! DEFINITION. Machine/Migrate.lean: the rows of a barrow copy and of the maintenance locks (spec/03 R99, R108 to R116, R120 to
R123). -/

namespace Sys2Proof.Machine

open Sys2Proof

/-! ### Copies (R108 to R116) -/

/-- The queued move of the tile the barrow may take up: one of the unscheduled pool, or the next of its prefetch step. -/
def moveFor (s : State) (tile : Nat) : Option Move :=
  s.st.queue.find? (fun m => m.tile == tile && (match m.step with | none => true | some id => firstMove s id == some m))
/-- MIG_COPY_START: the barrow takes up a queued move of the tile. -/
def execMigCopyStart (tile : Nat) (s : State) : Out State :=
  hubOnly (fun s =>
    let s := prefGo s
    match moveFor s tile with
    | some m => prefGo (startCopy s m)
    | none => s) s
/-- Who reads the source of a copy: the barrow, for the job and phase of the prefetch step behind it (R89, R109). -/
def copyReader (s : State) (c : Copy) : Reader :=
  { word := reqEngine 4 0 c.job.isSome (c.job.getD 0), job := c.job, phase := ((c.step.bind (stepGet s)).map Step.phase).getD 0 }
/-- A copy's source has failed its verification: the prefetch step behind it fails with E_CHECKSUM, class 2 (R89, R109). -/
def sourceBad (s : State) (c : Copy) : State := match c.step.bind (stepGet s) with | some x => prefFail s x St.checksum 2 | none => s
/-- MIG_PASS_END: the pass reads the rest of its sub-blocks; the first one verifies the source; then the cut-over begins, or a pass
over the dirty sub-blocks, or the copy is abandoned (R109, R111, R112). -/
def execMigPassEnd (tile : Nat) (ups : List Upset) (s : State) : Out State :=
  hubOnly (fun s =>
    let s := withUps s ups
    match copyOf s tile with
    | none => s
    | some c =>
      if c.close.isSome then s
      else
        let (ok, s) := if c.passes = 0 then verify s tile (copyReader s c) else (true, s)
        if !ok then sourceBad s c
        else
          let c := { c.read c.left.length with passes := c.passes + 1 }
          if c.dirty.length ≤ s.fld F.MIG_CTL_CUT_DIRTY then copySet s { c with close := some s.time }
          else if s.fld F.MIG_CTL_MAX_PASSES ≤ c.passes then cutEnd (abandonCopy s tile)
          else copySet s { c with left := (List.range 128).filter c.dirty.contains }) s
/-- Requests accepted at the source before the close that have not completed there (R113 step 2). -/
def draining (s : State) (tile c0 : Nat) : Bool :=
  s.reqs.any (fun r => localTile r.tile == tile && homedHere s r.tile && decide (r.time < c0) && (match r.wait with | .piece _ => false | .fwd _ => false | _ => true))
/-- MIG_DRAIN_DONE (R113 step 2). -/
def execMigDrainDone (tile : Nat) (s : State) : Out State :=
  hubOnly (fun s => match copyOf s tile with
    | some c => match c.close with
      | some c0 => if draining s tile c0 then s else copySet s { c with drained := true }
      | none => s
    | none => s) s
/-- MIG_FLIP: the held requests go on at the destination (R113 step 4). -/
def execMigFlip (tile : Nat) (s : State) : Out State :=
  hubOnly (fun s => match copyOf s tile with
    | some c => match c.close with
      | some c0 => if c.drained ∧ s.time < c0 + 1000 then cutEnd (flipCopy s tile) else s
      | none => s
    | none => s) s
/-- MIG_ABANDON: a cut-over not flipped by c + 1,000 (R114). -/
def execMigAbandon (tile : Nat) (s : State) : Out State :=
  hubOnly (fun s => match (copyOf s tile).bind Copy.close with
    | some c0 => cutEnd (abandonCopy (s.upTo (c0 + 1000)) tile)
    | none => s) s

/-! ### Maintenance locks (R120 to R123) -/

/-- MAINT_LOCK_GRANT: a waiting internal activity takes its lock and its work. -/
def execMaintLockGrant (lock : Nat) (s : State) : Out State :=
  hubOnly (fun s => match s.st.locks.find? (fun l => l.id == lock && !l.held) with
    | none => s
    | some l =>
      if !grantable s l then s
      else
        let s := lockGrant s l
        match l.act with
        | .migration =>
          (match s.st.queue.find? (fun m => m.tile == l.first && !moveStale s m) with
            | some m => (match copySlot s m with | some d => prefGo (beginCopy s m d) | none => lockDrop s lock)
            | none => lockDrop s lock)
        | .scrub => lockDrop (scrubOne s l.first) lock
        | .checkpoint => wake s
        | _ => s) s
/-- MIG_MAINT_WAIT: an internal activity has waited 1 s. -/
def execMigMaintWait (lock : Nat) (s : State) : Out State :=
  hubOnly (fun s => match s.st.locks.find? (fun l => l.id == lock && !l.held && !l.warned) with
    | none => s
    | some l =>
      let s := s.upTo (l.time + ms 1000)
      (stSet s { s.st with locks := s.st.locks.map (fun x => if x.id = lock then { x with warned := true } else x) }).notice 0x0212 [l.first, l.count]) s

end Sys2Proof.Machine
end

