-- ==== Sys2Proof/Machine/Dispatch.lean ====
section
/-! DEFINITION. Machine/Dispatch.lean: one arm per command, each one direct call of that command's meaning. -/

namespace Sys2Proof.Machine

open Sys2Proof

def exec (i : Instr) (s : State) : Host.Outcome State Fault Refusal :=
  match i with
  | .regWrite a => Sys2Proof.Machine.execRegWrite a s
  | .tickBoundary => Sys2Proof.Machine.execTickBoundary s
  | .tickLost => Sys2Proof.Machine.execTickLost s
  | .tickTreeWrite w => Sys2Proof.Machine.execTickTreeWrite w s
  | .tickPeriodWrite w => Sys2Proof.Machine.execTickPeriodWrite w s
  | .tickGuardWrite w => Sys2Proof.Machine.execTickGuardWrite w s
  | .tick port frac c => Sys2Proof.Machine.execTick port frac c s
  | .delayMeasure => Sys2Proof.Machine.execDelayMeasure s
  | .delayReq port frac c => Sys2Proof.Machine.execDelayReq port frac c s
  | .delayResp port frac c => Sys2Proof.Machine.execDelayResp port frac c s
  | .stretchReq port c => Sys2Proof.Machine.execStretchReq port c s
  | .jobAdmit mb va => Sys2Proof.Machine.execJobAdmit mb va s
  | .roomClearingDone job => Sys2Proof.Machine.execRoomClearingDone job s
  | .jobStart mb job start => Sys2Proof.Machine.execJobStart mb job start s
  | .jobRestart mb job start => Sys2Proof.Machine.execJobRestart mb job start s
  | .jobRelease mb job => Sys2Proof.Machine.execJobRelease mb job s
  | .slotDispatch job slot ups => Sys2Proof.Machine.execSlotDispatch job slot ups s
  | .stepComplete step energy => Sys2Proof.Machine.execStepComplete step energy s
  | .stepDeadline step energy => Sys2Proof.Machine.execStepDeadline step energy s
  | .boundaryWorkDone => Sys2Proof.Machine.execBoundaryWorkDone s
  | .scrubTile ups => Sys2Proof.Machine.execScrubTile ups s
  | .read inp c => Sys2Proof.Machine.execRead inp c s
  | .write inp c => Sys2Proof.Machine.execWrite inp c s
  | .atomic inp c => Sys2Proof.Machine.execAtomic inp c s
  | .readRsp inp c => Sys2Proof.Machine.execReadRsp inp c s
  | .writeRsp inp c => Sys2Proof.Machine.execWriteRsp inp c s
  | .atomicRsp inp c => Sys2Proof.Machine.execAtomicRsp inp c s
  | .reqTimeout txn => Sys2Proof.Machine.execReqTimeout txn s
  | .demandDecay => Sys2Proof.Machine.execDemandDecay s
  | .migHint mb va n hint => Sys2Proof.Machine.execMigHint mb va n hint s
  | .migCopyStart tile => Sys2Proof.Machine.execMigCopyStart tile s
  | .migPassEnd tile ups => Sys2Proof.Machine.execMigPassEnd tile ups s
  | .migDrainDone tile => Sys2Proof.Machine.execMigDrainDone tile s
  | .migFlip tile => Sys2Proof.Machine.execMigFlip tile s
  | .migAbandon tile => Sys2Proof.Machine.execMigAbandon tile s
  | .maintLockGrant lock => Sys2Proof.Machine.execMaintLockGrant lock s
  | .migMaintWait lock => Sys2Proof.Machine.execMigMaintWait lock s
  | .reduce inp c => Sys2Proof.Machine.execReduce inp c s
  | .postedReduce inp c => Sys2Proof.Machine.execPostedReduce inp c s
  | .postCutoff => Sys2Proof.Machine.execPostCutoff s
  | .postConvert tile => Sys2Proof.Machine.execPostConvert tile s
  | .mcastStore inp c => Sys2Proof.Machine.execMcastStore inp c s
  | .ckptData inp c => Sys2Proof.Machine.execCkptData inp c s
  | .ckptAssemblyTimeout tile => Sys2Proof.Machine.execCkptAssemblyTimeout tile s
  | .ckptAck inp c => Sys2Proof.Machine.execCkptAck inp c s
  | .ckptAckTimeout rid tile => Sys2Proof.Machine.execCkptAckTimeout rid tile s
  | .ckptCopy mb body ups => Sys2Proof.Machine.execCkptCopy mb body ups s
  | .portCtlWrite n w => Sys2Proof.Machine.execPortCtlWrite n w s
  | .portDetectDone n => Sys2Proof.Machine.execPortDetectDone n s
  | .portTrainDone n => Sys2Proof.Machine.execPortTrainDone n s
  | .portLockDone n skew => Sys2Proof.Machine.execPortLockDone n skew s
  | .portNegotiateDone n => Sys2Proof.Machine.execPortNegotiateDone n s
  | .portStageTimeout n lanes => Sys2Proof.Machine.execPortStageTimeout n lanes s
  | .portDownWait n => Sys2Proof.Machine.execPortDownWait n s
  | .laneLockLost n lane => Sys2Proof.Machine.execLaneLockLost n lane s
  | .recoverTimeout n => Sys2Proof.Machine.execRecoverTimeout n s
  | .idleBlock n b => Sys2Proof.Machine.execIdleBlock n b s
  | .nak n b => Sys2Proof.Machine.execNak n b s
  | .laneBlock n b => Sys2Proof.Machine.execLaneBlock n b s
  | .negBlock n b => Sys2Proof.Machine.execNegBlock n b s
  | .retrain n b => Sys2Proof.Machine.execRetrain n b s
  | .cellCrcFail n => Sys2Proof.Machine.execCellCrcFail n s
  | .nakRepeat n => Sys2Proof.Machine.execNakRepeat n s
  | .fabBadCell inp c => Sys2Proof.Machine.execFabBadCell inp c s
  | .switchCellArrive inp c => Sys2Proof.Machine.execSwitchCellArrive inp c s
  | .switchMatch => Sys2Proof.Machine.execSwitchMatch s
  | .cellEgress q => Sys2Proof.Machine.execCellEgress q s
  | .skimIssue g => Sys2Proof.Machine.execSkimIssue g s
  | .fabCredInitWrite w => Sys2Proof.Machine.execFabCredInitWrite w s
  | .swxProfWrite v c w => Sys2Proof.Machine.execSwxProfWrite v c w s
  | .swxBufWrite w => Sys2Proof.Machine.execSwxBufWrite w s
  | .mcastSet mb group entry => Sys2Proof.Machine.execMcastSet mb group entry s
  | .tagSet mb tag entry => Sys2Proof.Machine.execTagSet mb tag entry s
  | .shaperWrite q k r w => Sys2Proof.Machine.execShaperWrite q k r w s
  | .meterWrite m r w => Sys2Proof.Machine.execMeterWrite m r w s
  | .gateWrite q g e w => Sys2Proof.Machine.execGateWrite q g e w s
  | .samplePeriodClose => Sys2Proof.Machine.execSamplePeriodClose s
  | .crdS inp c => Sys2Proof.Machine.execCrdS inp c s
  | .crdE inp c => Sys2Proof.Machine.execCrdE inp c s
  | .cupg inp c => Sys2Proof.Machine.execCupg inp c s
  | .cwb inp c => Sys2Proof.Machine.execCwb inp c s
  | .csnpRsp inp c => Sys2Proof.Machine.execCsnpRsp inp c s
  | .biconflict ld dpa => Sys2Proof.Machine.execBiconflict ld dpa s
  | .holdWindowEnd line => Sys2Proof.Machine.execHoldWindowEnd line s
  | .cohSnoopSlow line agent => Sys2Proof.Machine.execCohSnoopSlow line agent s
  | .predDecay => Sys2Proof.Machine.execPredDecay s
  | .lostWalkDone => Sys2Proof.Machine.execLostWalkDone s
  | .cohWinWrite n r w => Sys2Proof.Machine.execCohWinWrite n r w s
  | .lostWrites mb start count => Sys2Proof.Machine.execLostWrites mb start count s
  | .segtRead w => Sys2Proof.Machine.execSegtRead w s
  | .segtWrite w => Sys2Proof.Machine.execSegtWrite w s
  | .winRead w => Sys2Proof.Machine.execWinRead w s
  | .winWrite w => Sys2Proof.Machine.execWinWrite w s
  | .fltPop w => Sys2Proof.Machine.execFltPop w s
  | .fltOvfClr w => Sys2Proof.Machine.execFltOvfClr w s
  | .vtOpen mb base => Sys2Proof.Machine.execVtOpen mb base s
  | .vtSwitch mb h base => Sys2Proof.Machine.execVtSwitch mb h base s
  | .vtClose mb h => Sys2Proof.Machine.execVtClose mb h s
  | .strnOpen mb va ups => Sys2Proof.Machine.execStrnOpen mb va ups s
  | .strnClose mb h => Sys2Proof.Machine.execStrnClose mb h s
  | .mutationCommit h => Sys2Proof.Machine.execMutationCommit h s
  | .extAdd mb x => Sys2Proof.Machine.execExtAdd mb x s
  | .extRevoke mb lease => Sys2Proof.Machine.execExtRevoke mb lease s
  | .extRelease mb lease => Sys2Proof.Machine.execExtRelease mb lease s
  | .leaseRenew mb lease seq => Sys2Proof.Machine.execLeaseRenew mb lease seq s
  | .ember inp c => Sys2Proof.Machine.execEmber inp c s
  | .extGrace e => Sys2Proof.Machine.execExtGrace e s
  | .leaseExpire e => Sys2Proof.Machine.execLeaseExpire e s
  | .extDrainDone e => Sys2Proof.Machine.execExtDrainDone e s
  | .extDrainCut e => Sys2Proof.Machine.execExtDrainCut e s
  | .extReleased e => Sys2Proof.Machine.execExtReleased e s
  | .addDcResponse ld accepted => Sys2Proof.Machine.execAddDcResponse ld accepted s
  | .releaseDc ld r => Sys2Proof.Machine.execReleaseDc ld r s
  | .extOfferLapsed e => Sys2Proof.Machine.execExtOfferLapsed e s
  | .compSet mb idx image => Sys2Proof.Machine.execCompSet mb idx image s
  | .compClear mb idx => Sys2Proof.Machine.execCompClear mb idx s
  | .handover mb idx newOwner newTag newVa ckpt => Sys2Proof.Machine.execHandover mb idx newOwner newTag newVa ckpt s
  | .hoBegin inp c => Sys2Proof.Machine.execHoBegin inp c s
  | .hoReleaseCheck idx => Sys2Proof.Machine.execHoReleaseCheck idx s
  | .hoReady inp c => Sys2Proof.Machine.execHoReady inp c s
  | .hoRelease inp c => Sys2Proof.Machine.execHoRelease inp c s
  | .hoCommit inp c => Sys2Proof.Machine.execHoCommit inp c s
  | .hoRevert inp c => Sys2Proof.Machine.execHoRevert inp c s
  | .hoTimeout idx => Sys2Proof.Machine.execHoTimeout idx s
  | .ownQuery inp c => Sys2Proof.Machine.execOwnQuery inp c s
  | .ownAnswer inp c => Sys2Proof.Machine.execOwnAnswer inp c s
  | .ownQueryTimer idx => Sys2Proof.Machine.execOwnQueryTimer idx s
  | .compNoOwner req => Sys2Proof.Machine.execCompNoOwner req s
  | .hoMessageRetry msg => Sys2Proof.Machine.execHoMessageRetry msg s
  | .memRd ld dpa ms tag => Sys2Proof.Machine.execMemRd ld dpa ms tag s
  | .memWr ld dpa ms tag data => Sys2Proof.Machine.execMemWr ld dpa ms tag data s
  | .memInv ld dpa tag => Sys2Proof.Machine.execMemInv ld dpa tag s
  | .birsp ld dpa r => Sys2Proof.Machine.execBirsp ld dpa r s
  | .getEventRecords mb log => Sys2Proof.Machine.execGetEventRecords mb log s
  | .clearEventRecords mb log handles => Sys2Proof.Machine.execClearEventRecords mb log handles s
  | .getEventInterruptPolicy mb => Sys2Proof.Machine.execGetEventInterruptPolicy mb s
  | .setEventInterruptPolicy mb policy => Sys2Proof.Machine.execSetEventInterruptPolicy mb policy s
  | .getTimestamp mb => Sys2Proof.Machine.execGetTimestamp mb s
  | .setTimestamp mb t => Sys2Proof.Machine.execSetTimestamp mb t s
  | .getSupportedLogs mb => Sys2Proof.Machine.execGetSupportedLogs mb s
  | .getLog mb uuid off len => Sys2Proof.Machine.execGetLog mb uuid off len s
  | .identifyMemoryDevice mb => Sys2Proof.Machine.execIdentifyMemoryDevice mb s
  | .getDcConfiguration mb => Sys2Proof.Machine.execGetDcConfiguration mb s
  | .getDcExtentList mb => Sys2Proof.Machine.execGetDcExtentList mb s
  | .mldManagement mb op input => Sys2Proof.Machine.execMldManagement mb op input s
  | .mailboxUnsupported mb op input => Sys2Proof.Machine.execMailboxUnsupported mb op input s
  | .engSubmit mb cls inst desc ups => Sys2Proof.Machine.execEngSubmit mb cls inst desc ups s
  | .engStepSuspend step => Sys2Proof.Machine.execEngStepSuspend step s
  | .engStepResume step => Sys2Proof.Machine.execEngStepResume step s
  | .winList mb => Sys2Proof.Machine.execWinList mb s
  | .tenantEnable mb tenant => Sys2Proof.Machine.execTenantEnable mb tenant s
  | .tenantDisable mb tenant => Sys2Proof.Machine.execTenantDisable mb tenant s
  | .ldEnable mb ld => Sys2Proof.Machine.execLdEnable mb ld s
  | .ldDisable mb ld => Sys2Proof.Machine.execLdDisable mb ld s
  | .fnState mb fn => Sys2Proof.Machine.execFnState mb fn s
  | .noticeSub mb op hub ep => Sys2Proof.Machine.execNoticeSub mb op hub ep s
  | .fnDrainDone fn => Sys2Proof.Machine.execFnDrainDone fn s
  | .fnDrainCut fn => Sys2Proof.Machine.execFnDrainCut fn s
  | .fnOff fn => Sys2Proof.Machine.execFnOff fn s
  | .ringTailWrite ld w => Sys2Proof.Machine.execRingTailWrite ld w s
  | .sysringTailWrite w => Sys2Proof.Machine.execSysringTailWrite w s
  | .ringCfgWrite ld r w => Sys2Proof.Machine.execRingCfgWrite ld r w s
  | .ringCoalesceTimer ld => Sys2Proof.Machine.execRingCoalesceTimer ld s
  | .hostLinkUp width rate => Sys2Proof.Machine.execHostLinkUp width rate s
  | .hostLinkDown => Sys2Proof.Machine.execHostLinkDown s
  | .perstAssert => Sys2Proof.Machine.execPerstAssert s
  | .perstRelease => Sys2Proof.Machine.execPerstRelease s
  | .abort inp c => Sys2Proof.Machine.execAbort inp c s
  | .herdForm mb job id minMembers => Sys2Proof.Machine.execHerdForm mb job id minMembers s
  | .herdAbort mb job => Sys2Proof.Machine.execHerdAbort mb job s
  | .herdCull mb job hub => Sys2Proof.Machine.execHerdCull mb job hub s
  | .herdReimage mb job va => Sys2Proof.Machine.execHerdReimage mb job va s
  | .herdRebalance mb job partner epoch partnerVa tiles dstVa => Sys2Proof.Machine.execHerdRebalance mb job partner epoch partnerVa tiles dstVa s
  | .herdShadow mb tenant va work id => Sys2Proof.Machine.execHerdShadow mb tenant va work id s
  | .herdStatus mb job => Sys2Proof.Machine.execHerdStatus mb job s
  | .herdScoreClear mb job hub => Sys2Proof.Machine.execHerdScoreClear mb job hub s
  | .beatSend => Sys2Proof.Machine.execBeatSend s
  | .beat inp c => Sys2Proof.Machine.execBeat inp c s
  | .memberLost job hub => Sys2Proof.Machine.execMemberLost job hub s
  | .epochDone inp c => Sys2Proof.Machine.execEpochDone inp c s
  | .epochCommit inp c => Sys2Proof.Machine.execEpochCommit inp c s
  | .restart inp c => Sys2Proof.Machine.execRestart inp c s
  | .restored inp c => Sys2Proof.Machine.execRestored inp c s
  | .restoreReq inp c => Sys2Proof.Machine.execRestoreReq inp c s
  | .restoreComplete job => Sys2Proof.Machine.execRestoreComplete job s
  | .digest inp c => Sys2Proof.Machine.execDigest inp c s
  | .digestMissing job => Sys2Proof.Machine.execDigestMissing job s
  | .members inp c => Sys2Proof.Machine.execMembers inp c s
  | .shadowPassed inp c => Sys2Proof.Machine.execShadowPassed inp c s
  | .herdMessageRetry msg => Sys2Proof.Machine.execHerdMessageRetry msg s
  | .scoreDecay => Sys2Proof.Machine.execScoreDecay s
  | .cullBudgetExpire => Sys2Proof.Machine.execCullBudgetExpire s
  | .energySample e => Sys2Proof.Machine.execEnergySample e s
  | .fastLimitStep => Sys2Proof.Machine.execFastLimitStep s
  | .fastLimitEnd => Sys2Proof.Machine.execFastLimitEnd s
  | .emergLower => Sys2Proof.Machine.execEmergLower s
  | .dampCapWrite w => Sys2Proof.Machine.execDampCapWrite w s
  | .pwrAlertAssert => Sys2Proof.Machine.execPwrAlertAssert s
  | .pwrAlertClear => Sys2Proof.Machine.execPwrAlertClear s
  | .internalAlert src => Sys2Proof.Machine.execInternalAlert src s
  | .internalAlertClear => Sys2Proof.Machine.execInternalAlertClear s
  | .dampAlertEnd => Sys2Proof.Machine.execDampAlertEnd s
  | .sensorRead t => Sys2Proof.Machine.execSensorRead t s
  | .auxPowerOn mode addr => Sys2Proof.Machine.execAuxPowerOn mode addr s
  | .powerStart => Sys2Proof.Machine.execPowerStart s
  | .mainEnFall => Sys2Proof.Machine.execMainEnFall s
  | .mainPowerFault f => Sys2Proof.Machine.execMainPowerFault f s
  | .warmResetPin => Sys2Proof.Machine.execWarmResetPin s
  | .warmResetReg w => Sys2Proof.Machine.execWarmResetReg w s
  | .watchdogExpire => Sys2Proof.Machine.execWatchdogExpire s
  | .pllLockLost dom => Sys2Proof.Machine.execPllLockLost dom s
  | .pllResetTimer => Sys2Proof.Machine.execPllResetTimer s
  | .powerDone => Sys2Proof.Machine.execPowerDone s
  | .romDone => Sys2Proof.Machine.execRomDone s
  | .verifyDone => Sys2Proof.Machine.execVerifyDone s
  | .configDone => Sys2Proof.Machine.execConfigDone s
  | .storeDone => Sys2Proof.Machine.execStoreDone s
  | .rngHealthFail => Sys2Proof.Machine.execRngHealthFail s
  | .rngHealthPass => Sys2Proof.Machine.execRngHealthPass s
  | .startStageTimeout => Sys2Proof.Machine.execStartStageTimeout s
  | .startRetry => Sys2Proof.Machine.execStartRetry s
  | .yokeHello inp c => Sys2Proof.Machine.execYokeHello inp c s
  | .yokeFormed authOk => Sys2Proof.Machine.execYokeFormed authOk s
  | .yokeRefused => Sys2Proof.Machine.execYokeRefused s
  | .applyEnd => Sys2Proof.Machine.execApplyEnd s
  | .cellarStore mb => Sys2Proof.Machine.execCellarStore mb s
  | .cellarWriteDone ok => Sys2Proof.Machine.execCellarWriteDone ok s
  | .cfgInfo mb => Sys2Proof.Machine.execCfgInfo mb s
  | .cfgIdent mb x => Sys2Proof.Machine.execCfgIdent mb x s
  | .lockSet mb => Sys2Proof.Machine.execLockSet mb s
  | .secLockWrite w => Sys2Proof.Machine.execSecLockWrite w s
  | .svnRaise mb idx val => Sys2Proof.Machine.execSvnRaise mb idx val s
  | .imageWrite mb off data => Sys2Proof.Machine.execImageWrite mb off data s
  | .imageCommit mb => Sys2Proof.Machine.execImageCommit mb s
  | .debugUnlock mb token => Sys2Proof.Machine.execDebugUnlock mb token s
  | .getVersion conn req => Sys2Proof.Machine.execGetVersion conn req s
  | .getCapabilities conn req => Sys2Proof.Machine.execGetCapabilities conn req s
  | .negotiateAlgorithms conn req => Sys2Proof.Machine.execNegotiateAlgorithms conn req s
  | .getDigests conn req => Sys2Proof.Machine.execGetDigests conn req s
  | .getCertificate conn req => Sys2Proof.Machine.execGetCertificate conn req s
  | .challenge conn req => Sys2Proof.Machine.execChallenge conn req s
  | .getMeasurements conn req => Sys2Proof.Machine.execGetMeasurements conn req s
  | .keyExchange conn req => Sys2Proof.Machine.execKeyExchange conn req s
  | .finish conn req => Sys2Proof.Machine.execFinish conn req s
  | .endSession conn req => Sys2Proof.Machine.execEndSession conn req s
  | .getCosign conn => Sys2Proof.Machine.execGetCosign conn s
  | .getPqChain conn off len => Sys2Proof.Machine.execGetPqChain conn off len s
  | .read64 off => Sys2Proof.Machine.execRead64 off s
  | .write64 off val => Sys2Proof.Machine.execWrite64 off val s
  | .mbxIn off data => Sys2Proof.Machine.execMbxIn off data s
  | .mbxStatus => Sys2Proof.Machine.execMbxStatus s
  | .mbxOut off len => Sys2Proof.Machine.execMbxOut off len s
  | .telemetry => Sys2Proof.Machine.execTelemetry s
  | .idcode => Sys2Proof.Machine.execIdcode s
  | .samplePreload => Sys2Proof.Machine.execSamplePreload s
  | .extest drive => Sys2Proof.Machine.execExtest drive s
  | .tokenLoad token => Sys2Proof.Machine.execTokenLoad token s
  | .tokenStatus => Sys2Proof.Machine.execTokenStatus s
  | .dbgAccess off val wr => Sys2Proof.Machine.execDbgAccess off val wr s
  | .bypass code tdi => Sys2Proof.Machine.execBypass code tdi s
  | .engineIntervalEnd cls inst job => Sys2Proof.Machine.execEngineIntervalEnd cls inst job s
  | .notice inp c => Sys2Proof.Machine.execNotice inp c s
  | .auxPowerLoss => Sys2Proof.Machine.execAuxPowerLoss s
  | .auxPowerReturn => Sys2Proof.Machine.execAuxPowerReturn s
  | .hubResetRelease => Sys2Proof.Machine.execHubResetRelease s
  | .railRampTimeout => Sys2Proof.Machine.execRailRampTimeout s
  | .ideKm conn req => Sys2Proof.Machine.execIdeKm conn req s
  | .i3cDynamicAddress addr how => Sys2Proof.Machine.execI3cDynamicAddress addr how s

end Sys2Proof.Machine
end

