-- ==== Sys2Proof/Machine/Step.lean ====
section
/-! DEFINITION. Machine/Step.lean: one step takes the command at the front of the queue; an empty queue lets one TBS cycle pass
(R17; log 3, DESIGN CHOICE). -/

namespace Sys2Proof.Machine

open Sys2Proof

/-- One step: the front command acts on the state with the queue's rest; on an empty queue the timebase advances (log 98, DESIGN CHOICE) (log 102, DESIGN CHOICE). -/
def step (s : State) : Host.Outcome State Fault Refusal :=
  match s.pending with
  | c :: rest => exec c { s with pending := rest }
  | [] => .next { s with time := s.time + 1 }

/-- The state with the command a table word spells at the front of its queue: no row gives bits, so nothing changes. -/
def State.withFetchWord (s : State) (nbits w : Nat) : State :=
  match decodeTableWord nbits w with
  | some c => { s with pending := c :: s.pending }
  | none => s

end Sys2Proof.Machine
end

