-- ==== Sys2Proof/Safety.lean ====
section
/-! DEFINITION. Safety.lean: the terms in which claims about the hub are made: what a command of each kind leaves of the state it
found, when a mailbox command reaches its own effect, and what a hub without main power holds. -/

namespace Sys2Proof.Machine

open Sys2Proof

/-- `t` with the supervisor and the queue of `s`: what a command of the hub proper leaves when its work makes `t` of `s`. -/
def State.under (t s : State) : State := { t with sup := s.sup, pending := s.pending }
/-- `t` with the queue of `s`. -/
def State.queued (t s : State) : State := { t with pending := s.pending }

/-- What of a state no notice, answer or counter touches: everything but the registers, the reserved area, what was sent, the fabric,
the host interface and the number of the next free value. -/
def State.core (s : State) : State := { s with regs := [], resv := [], out := [], fab := {}, host := {}, free := 0 }

/-- The mailbox can be reached and runs nothing, and the start is not in RECOVERY (R423, R494, R531, R543, R544). -/
def mbxFree (mb : Mbx) (s : State) : Prop :=
  s.on = true ∧ (mb = .sideband → s.sup.aux = true ∧ s.host.sb.state ≠ 1) ∧ s.host.busy.contains (mbxKey mb) = false ∧ s.sup.stage ≠ .recovery
/-- A vendor command of the mailbox reaches its own effect (R418, R427, R494). -/
def vendorReady (mb : Mbx) (iss : Issuer) (s : State) : Prop := mbxFree mb s ∧ ldRefusal s mb = none ∧ issuerOk s mb iss = true
/-- A CXL command of the mailbox reaches its own effect (R418, R424). -/
def cxlReady (mb : Mbx) (s : State) : Prop := mbxFree mb s ∧ mb ≠ .gone ∧ ldRefusal s mb = none
/-- A command that RECOVERY also accepts, from the mailbox of LD 0 or of the sideband, reaches its own effect (R494). -/
def recReady (mb : Mbx) (s : State) : Prop :=
  vendorReady mb .sys s ∨ (s.sup.stage = .recovery ∧ s.host.busy.contains (mbxKey mb) = false ∧ (mb = .ld 0 ∨ (mb = .sideband ∧ s.sup.aux = true ∧ s.host.sb.state ≠ 1)))
/-- The state a mailbox command's effect starts from: on the sideband its doorbell has been taken (R543). -/
def mbxIn (mb : Mbx) (s : State) : State := if mb = .sideband then sbGo s else s

/-- A cell is taken in at a port: as the hub takes it (link fields, filter, form, meter), and the state that has taken it (R192, R194, R205, R242). -/
def cellTaken (s : State) (inp : Nat) (c a : Cell) (u : State) : Prop := s.on = true ∧ ingress s inp c = (some a, u)
/-- A cell is taken in and is bound for this hub's own units (R219). -/
def cellHere (s : State) (inp : Nat) (c a : Cell) (u : State) : Prop := cellTaken s inp c a u ∧ routeOf u a = .here

/-- A write access to BAR0 sets a plain register: `r` is its row, `i` and `j` its indices, `new` the value it takes. The lock does not
hold it, its value lies in every stated range, and no other condition discards it (R9 to R12, R552). -/
def plainWrite (s : State) (a : Nat) (h : Half) (v : Nat) (r : RegRow) (i j new : Nat) : Prop :=
  regFind a = some (r, i, j)
  ∧ r.name ∉ ["SEC_LOCK", "CLK_RESET", "CLK_RESET_CAUSE", "DAMP_TRIP", "SEC_RNG", "DBG_STATUS", "SEGT_OP", "WIN_OP", "FLT_POP", "FLT_OVF_CLR", "HOST_RING_IDX_i", "HOST_SYSRING_TAIL", "COH_WIN_BASE_n", "COH_WIN_END_n"]
  ∧ new = rowWrite s.sup.lock (halfMask h) (halfVal h v) (s.reg a).toNat r.fields
  ∧ (s.sup.lock = true → r.fields.any (fun f => f.acc != .rwl && f.acc != .ro) = true) ∧ rangeOk s r.name i j new = true ∧ refuseWrite s r.name i j new = none

/-- The commands of the power stage, of the sideband and of the test access port, which main power does not gate (R528 to R546). -/
def ungated : Instr → Bool
  | .perstAssert => true
  | .perstRelease => true
  | .auxPowerOn _ _ => true
  | .powerStart => true
  | .mainEnFall => true
  | .mainPowerFault _ => true
  | .warmResetPin => true
  | .watchdogExpire => true
  | .auxPowerLoss => true
  | .auxPowerReturn => true
  | .hubResetRelease => true
  | .i3cDynamicAddress _ _ => true
  | .read64 _ => true
  | .write64 _ _ => true
  | .mbxIn _ _ => true
  | .mbxStatus => true
  | .mbxOut _ _ => true
  | .telemetry => true
  | .idcode => true
  | .samplePreload => true
  | .extest _ => true
  | .tokenLoad _ => true
  | .tokenStatus => true
  | .dbgAccess _ _ _ => true
  | .bypass _ _ => true
  | _ => false
/-- The commands that may also write the supervisor: the ungated ones, register writes, the start's, the Cellar's, the keys' and SPDM's. -/
def reachesSup : Instr → Bool
  | .regWrite _ => true
  | .tickTreeWrite _ => true
  | .tickPeriodWrite _ => true
  | .tickGuardWrite _ => true
  | .portCtlWrite _ _ => true
  | .fabCredInitWrite _ => true
  | .swxProfWrite _ _ _ => true
  | .swxBufWrite _ => true
  | .shaperWrite _ _ _ _ => true
  | .meterWrite _ _ _ => true
  | .gateWrite _ _ _ _ => true
  | .cohWinWrite _ _ _ => true
  | .segtRead _ => true
  | .segtWrite _ => true
  | .winRead _ => true
  | .winWrite _ => true
  | .fltPop _ => true
  | .fltOvfClr _ => true
  | .fnOff _ => true
  | .ringTailWrite _ _ => true
  | .sysringTailWrite _ => true
  | .ringCfgWrite _ _ _ => true
  | .dampCapWrite _ => true
  | .sensorRead _ => true
  | .warmResetReg _ => true
  | .pllLockLost _ => true
  | .pllResetTimer => true
  | .powerDone => true
  | .romDone => true
  | .verifyDone => true
  | .configDone => true
  | .storeDone => true
  | .rngHealthFail => true
  | .rngHealthPass => true
  | .startStageTimeout => true
  | .startRetry => true
  | .yokeHello _ _ => true
  | .yokeFormed _ => true
  | .yokeRefused => true
  | .applyEnd => true
  | .cellarWriteDone _ => true
  | .secLockWrite _ => true
  | .railRampTimeout => true
  | .cellarStore _ => true
  | .cfgInfo _ => true
  | .cfgIdent _ _ => true
  | .lockSet _ => true
  | .svnRaise _ _ _ => true
  | .imageWrite _ _ _ => true
  | .imageCommit _ => true
  | .debugUnlock _ _ => true
  | .getVersion _ _ => true
  | .getCapabilities _ _ => true
  | .negotiateAlgorithms _ _ => true
  | .getDigests _ _ => true
  | .getCertificate _ _ => true
  | .challenge _ _ => true
  | .getMeasurements _ _ => true
  | .keyExchange _ _ => true
  | .finish _ _ => true
  | .endSession _ _ => true
  | .getCosign _ => true
  | .getPqChain _ _ _ => true
  | .ideKm _ _ => true
  | c => ungated c

/-- The mailbox a command arrives in (R423, R424, R427). -/
def mailboxOf : Instr → Option Mbx
  | .jobAdmit mb _ => some mb
  | .jobStart mb _ _ => some mb
  | .jobRestart mb _ _ => some mb
  | .jobRelease mb _ => some mb
  | .migHint mb _ _ _ => some mb
  | .ckptCopy mb _ _ => some mb
  | .mcastSet mb _ _ => some mb
  | .tagSet mb _ _ => some mb
  | .lostWrites mb _ _ => some mb
  | .vtOpen mb _ => some mb
  | .vtSwitch mb _ _ => some mb
  | .vtClose mb _ => some mb
  | .strnOpen mb _ _ => some mb
  | .strnClose mb _ => some mb
  | .extAdd mb _ => some mb
  | .extRevoke mb _ => some mb
  | .extRelease mb _ => some mb
  | .leaseRenew mb _ _ => some mb
  | .addDcResponse ld _ => some (.ld ld)
  | .releaseDc ld _ => some (.ld ld)
  | .compSet mb _ _ => some mb
  | .compClear mb _ => some mb
  | .handover mb _ _ _ _ _ => some mb
  | .getEventRecords mb _ => some mb
  | .clearEventRecords mb _ _ => some mb
  | .getEventInterruptPolicy mb => some mb
  | .setEventInterruptPolicy mb _ => some mb
  | .getTimestamp mb => some mb
  | .setTimestamp mb _ => some mb
  | .getSupportedLogs mb => some mb
  | .getLog mb _ _ _ => some mb
  | .identifyMemoryDevice mb => some mb
  | .getDcConfiguration mb => some mb
  | .getDcExtentList mb => some mb
  | .mldManagement mb _ _ => some mb
  | .mailboxUnsupported mb _ _ => some mb
  | .engSubmit mb _ _ _ _ => some mb
  | .winList mb => some mb
  | .tenantEnable mb _ => some mb
  | .tenantDisable mb _ => some mb
  | .ldEnable mb _ => some mb
  | .ldDisable mb _ => some mb
  | .fnState mb _ => some mb
  | .noticeSub mb _ _ _ => some mb
  | .herdForm mb _ _ _ => some mb
  | .herdAbort mb _ => some mb
  | .herdCull mb _ _ => some mb
  | .herdReimage mb _ _ => some mb
  | .herdRebalance mb _ _ _ _ _ _ => some mb
  | .herdShadow mb _ _ _ _ => some mb
  | .herdStatus mb _ => some mb
  | .herdScoreClear mb _ _ => some mb
  | .cellarStore mb => some mb
  | .cfgInfo mb => some mb
  | .cfgIdent mb _ => some mb
  | .lockSet mb => some mb
  | .svnRaise mb _ _ => some mb
  | .imageWrite mb _ _ => some mb
  | .imageCommit mb => some mb
  | .debugUnlock mb _ => some mb
  | _ => none

/-- Without main power only the AON domain, the Cellar and what was sent hold anything (R534, R561). -/
def unpowered (s : State) : Prop :=
  s.regs = [] ∧ s.mem = [] ∧ s.resv = [] ∧ s.reqs = [] ∧ s.tk = {} ∧ s.seq = {} ∧ s.st = {} ∧ s.fab = {} ∧ s.xlt = {} ∧ s.damp = {}
  ∧ s.coh = {} ∧ s.ext = {} ∧ s.chrn = {} ∧ s.herd = {} ∧ s.hnd = {}

end Sys2Proof.Machine
end

