-- ==== Sys2Proof/WellFormed.lean ====
section
/-! DEFINITION. WellFormed.lean: which terms are commands a sender can spell: every operand within the width its row gives it. A
value in range that a rule refuses (a port that does not exist, a reserved code) is well-formed: the refusal is the command's effect. -/

namespace Sys2Proof

/-- The header fields within the widths of Table 06-4, at most 256 payload bytes (R191). -/
def Cell.wf (c : Cell) : Bool :=
  decide (c.ty < 256) && decide (c.vn < 4) && decide (c.colour < 4) && decide (c.dst < 2 ^ 16) && decide (c.src < 2 ^ 16) &&
  decide (c.dstEp < 256) && decide (c.srcEp < 256) && decide (c.addr < 2 ^ 64) && decide (c.tag < 2 ^ 16) &&
  decide (c.txn < 2 ^ 16) && decide (c.epoch < 2 ^ 16) && decide (c.opx < 256) && decide (c.len < 256) &&
  decide (c.ack < 2 ^ 12) && decide (c.cvn < 4) && decide (c.ccnt < 2 ^ 16) && decide (c.payload.length ≤ 256)
/-- A path names one of the 16 LDs where it names one (R436). -/
def RegPath.wf : RegPath → Bool
  | .bar2 ld => decide (ld < 16)
  | _ => true
/-- A half is 32 bits, a whole register 64 (R9). -/
def RegW.wf (w : RegW) : Bool :=
  w.path.wf && (match w.half with | .whole => decide (w.val < 2 ^ 64) | _ => decide (w.val < 2 ^ 32))
/-- An offset is 32 bits wide, of which BAR0 takes 64 MiB (spec/00_scope.md); an access carries no more than its size. -/
def RegAcc.wf (a : RegAcc) : Bool := a.path.wf && decide (a.off < 2 ^ 32) && decide (a.val < 2 ^ (8 * a.size))
/-- A mailbox that a command can arrive in (R423). -/
def Mbx.wf : Mbx → Bool
  | .ld i => decide (i < 16)
  | .gone => false
  | _ => true
def Fn.wf : Fn → Bool
  | .tenant n => decide (n < 2 ^ 16)
  | .ld i => decide (i < 256)
def Upset.wf (u : Upset) : Bool := decide (u.tile < 48234496)
def SpdmConn.wf : SpdmConn → Bool
  | .doe ld => decide (ld < 16)
  | _ => true
def DcRange.wf (r : DcRange) : Bool := decide (r.dpa < 2 ^ 64) && decide (r.len < 2 ^ 64)
/-- The widths of Table 14-1. -/
def ExtFields.wf (x : ExtFields) : Bool :=
  decide (x.flags < 256) && decide (x.tenant < 2 ^ 16) && decide (x.start < 2 ^ 64) && decide (x.len < 2 ^ 64) &&
  decide (x.holder < 2 ^ 32) && decide (x.rights < 256) && decide (x.period < 2 ^ 32)
/-- The sample is taken over 1 µs: each part of it fits 32 bits (R467). -/
def EnergySample.wf (e : EnergySample) : Bool :=
  decide (e.input < 2 ^ 32) && decide (e.rail0 < 2 ^ 32) && decide (e.rail1 < 2 ^ 32) && decide (e.rail2 < 2 ^ 32) &&
  decide (e.rail3 < 2 ^ 32) && decide (e.sched < 2 ^ 32) && decide (e.unsched < 2 ^ 32)
/-- The widths of Table 18-3's header. -/
def CfgIdent.wf (x : CfgIdent) : Bool :=
  decide (x.hubId < 2 ^ 16) && decide (x.pairId < 2 ^ 16) && decide (x.peerSerial < 2 ^ 64) && decide (x.level < 2 ^ 16)

/-- Every operand within the width its row gives it. -/
def Instr.wf : Instr → Bool
  | .regWrite a => a.wf
  | .tickBoundary => true
  | .tickLost => true
  | .tickTreeWrite w => w.wf
  | .tickPeriodWrite w => w.wf
  | .tickGuardWrite w => w.wf
  | .tick port frac c => decide (port < 26) && decide (frac < 16) && c.wf
  | .delayMeasure => true
  | .delayReq port frac c => decide (port < 26) && decide (frac < 16) && c.wf
  | .delayResp port frac c => decide (port < 26) && decide (frac < 16) && c.wf
  | .stretchReq port c => decide (port < 26) && c.wf
  | .jobAdmit mb va => mb.wf && decide (va < 2 ^ 64)
  | .roomClearingDone job => decide (job < 32)
  | .jobStart mb job start => mb.wf && decide (job < 256) && decide (start < 2 ^ 48)
  | .jobRestart mb job start => mb.wf && decide (job < 256) && decide (start < 2 ^ 48)
  | .jobRelease mb job => mb.wf && decide (job < 256)
  | .slotDispatch job slot ups => decide (job < 32) && decide (slot < 1024) && ups.all Upset.wf
  | .stepComplete _ _ => true
  | .stepDeadline _ _ => true
  | .boundaryWorkDone => true
  | .scrubTile ups => ups.all Upset.wf
  | .read inp c => decide (inp < 34) && c.wf
  | .write inp c => decide (inp < 34) && c.wf
  | .atomic inp c => decide (inp < 34) && c.wf
  | .readRsp inp c => decide (inp < 34) && c.wf
  | .writeRsp inp c => decide (inp < 34) && c.wf
  | .atomicRsp inp c => decide (inp < 34) && c.wf
  | .reqTimeout txn => decide (txn < 2 ^ 16)
  | .demandDecay => true
  | .migHint mb va n hint => mb.wf && decide (va < 2 ^ 64) && decide (n < 2 ^ 32) && decide (hint < 256)
  | .migCopyStart tile => decide (tile < 48234496)
  | .migPassEnd tile ups => decide (tile < 48234496) && ups.all Upset.wf
  | .migDrainDone tile => decide (tile < 48234496)
  | .migFlip tile => decide (tile < 48234496)
  | .migAbandon tile => decide (tile < 48234496)
  | .maintLockGrant _ => true
  | .migMaintWait _ => true
  | .reduce inp c => decide (inp < 34) && c.wf
  | .postedReduce inp c => decide (inp < 34) && c.wf
  | .postCutoff => true
  | .postConvert tile => decide (tile < 48234496)
  | .mcastStore inp c => decide (inp < 34) && c.wf
  | .ckptData inp c => decide (inp < 34) && c.wf
  | .ckptAssemblyTimeout tile => decide (tile < 48234496)
  | .ckptAck inp c => decide (inp < 34) && c.wf
  | .ckptAckTimeout _ tile => decide (tile < 48234496)
  | .ckptCopy mb _ ups => mb.wf && ups.all Upset.wf
  | .portCtlWrite n w => decide (n < 26) && w.wf
  | .portDetectDone n => decide (n < 26)
  | .portTrainDone n => decide (n < 26)
  | .portLockDone n _ => decide (n < 26)
  | .portNegotiateDone n => decide (n < 26)
  | .portStageTimeout n lanes => decide (n < 26) && decide (lanes < 256)
  | .portDownWait n => decide (n < 26)
  | .laneLockLost n lane => decide (n < 26) && decide (lane < 8)
  | .recoverTimeout n => decide (n < 26)
  | .idleBlock n b => decide (n < 26) && decide (b.length = 32)
  | .nak n b => decide (n < 26) && decide (b.length = 32)
  | .laneBlock n b => decide (n < 26) && decide (b.length = 32)
  | .negBlock n b => decide (n < 26) && decide (b.length = 32)
  | .retrain n b => decide (n < 26) && decide (b.length = 32)
  | .cellCrcFail n => decide (n < 26)
  | .nakRepeat n => decide (n < 26)
  | .fabBadCell inp c => decide (inp < 34) && c.wf
  | .switchCellArrive inp c => decide (inp < 34) && c.wf
  | .switchMatch => true
  | .cellEgress q => decide (q < 26)
  | .skimIssue g => decide (g < 2)
  | .fabCredInitWrite w => w.wf
  | .swxProfWrite v c w => decide (v < 4) && decide (c < 3) && w.wf
  | .swxBufWrite w => w.wf
  | .mcastSet mb group entry => mb.wf && decide (group < 2 ^ 16) && decide (entry < 2 ^ 64)
  | .tagSet mb tag entry => mb.wf && decide (tag < 2 ^ 16) && decide (entry < 2 ^ 64)
  | .shaperWrite q k _ w => decide (q < 26) && decide (k < 16) && w.wf
  | .meterWrite m _ w => decide (m < 1024) && w.wf
  | .gateWrite q g i w => decide (q < 26) && decide (g < 8) && decide (i < 4) && w.wf
  | .samplePeriodClose => true
  | .crdS inp c => decide (inp < 34) && c.wf
  | .crdE inp c => decide (inp < 34) && c.wf
  | .cupg inp c => decide (inp < 34) && c.wf
  | .cwb inp c => decide (inp < 34) && c.wf
  | .csnpRsp inp c => decide (inp < 34) && c.wf
  | .biconflict ld dpa => decide (ld < 16) && decide (dpa < 2 ^ 52)
  | .holdWindowEnd line => decide (line < 2 ^ 37)
  | .cohSnoopSlow line agent => decide (line < 2 ^ 37) && decide (agent < 64)
  | .predDecay => true
  | .lostWalkDone => true
  | .cohWinWrite n _ w => decide (n < 64) && w.wf
  | .lostWrites mb start count => mb.wf && decide (start < 2 ^ 16) && decide (count < 2 ^ 16)
  | .segtRead w => w.wf
  | .segtWrite w => w.wf
  | .winRead w => w.wf
  | .winWrite w => w.wf
  | .fltPop w => w.wf
  | .fltOvfClr w => w.wf
  | .vtOpen mb base => mb.wf && decide (base < 2 ^ 64)
  | .vtSwitch mb h base => mb.wf && decide (h < 2 ^ 16) && decide (base < 2 ^ 64)
  | .vtClose mb h => mb.wf && decide (h < 2 ^ 16)
  | .strnOpen mb va ups => mb.wf && decide (va < 2 ^ 64) && ups.all Upset.wf
  | .strnClose mb h => mb.wf && decide (h < 2 ^ 16)
  | .mutationCommit h => decide (h < 2 ^ 16)
  | .extAdd mb x => mb.wf && x.wf
  | .extRevoke mb lease => mb.wf && decide (lease < 2 ^ 32)
  | .extRelease mb lease => mb.wf && decide (lease < 2 ^ 32)
  | .leaseRenew mb lease seq => mb.wf && decide (lease < 2 ^ 32) && decide (seq < 2 ^ 32)
  | .ember inp c => decide (inp < 34) && c.wf
  | .extGrace i => decide (i < 4096)
  | .leaseExpire i => decide (i < 4096)
  | .extDrainDone i => decide (i < 4096)
  | .extDrainCut i => decide (i < 4096)
  | .extReleased i => decide (i < 4096)
  | .addDcResponse ld accepted => decide (ld < 16) && accepted.all DcRange.wf
  | .releaseDc ld r => decide (ld < 16) && r.wf
  | .extOfferLapsed i => decide (i < 4096)
  | .compSet mb idx image => mb.wf && decide (idx < 2 ^ 32) && decide (image.length = 64)
  | .compClear mb idx => mb.wf && decide (idx < 2 ^ 32)
  | .handover mb idx newOwner newTag newVa ckpt => mb.wf && decide (idx < 2 ^ 32) && decide (newOwner < 2 ^ 16) && decide (newTag < 2 ^ 16) && decide (newVa < 2 ^ 64) && decide (ckpt < 2 ^ 64)
  | .hoBegin inp c => decide (inp < 34) && c.wf
  | .hoReleaseCheck idx => decide (idx < 65536)
  | .hoReady inp c => decide (inp < 34) && c.wf
  | .hoRelease inp c => decide (inp < 34) && c.wf
  | .hoCommit inp c => decide (inp < 34) && c.wf
  | .hoRevert inp c => decide (inp < 34) && c.wf
  | .hoTimeout idx => decide (idx < 65536)
  | .ownQuery inp c => decide (inp < 34) && c.wf
  | .ownAnswer inp c => decide (inp < 34) && c.wf
  | .ownQueryTimer idx => decide (idx < 65536)
  | .compNoOwner _ => true
  | .hoMessageRetry _ => true
  | .memRd ld dpa _ tag => decide (ld < 16) && decide (dpa < 2 ^ 52) && decide (tag < 2 ^ 16)
  | .memInv ld dpa tag => decide (ld < 16) && decide (dpa < 2 ^ 52) && decide (tag < 2 ^ 16)
  | .birsp ld dpa _ => decide (ld < 16) && decide (dpa < 2 ^ 52)
  | .getEventRecords mb log => mb.wf && decide (log < 256)
  | .clearEventRecords mb log handles => mb.wf && decide (log < 256) && handles.all (fun x => decide (x < 2 ^ 16))
  | .getEventInterruptPolicy mb => mb.wf
  | .setEventInterruptPolicy mb _ => mb.wf
  | .getTimestamp mb => mb.wf
  | .setTimestamp mb t => mb.wf && decide (t < 2 ^ 64)
  | .getSupportedLogs mb => mb.wf
  | .getLog mb uuid off len => mb.wf && decide (uuid < 2 ^ 128) && decide (off < 2 ^ 32) && decide (len < 2 ^ 32)
  | .identifyMemoryDevice mb => mb.wf
  | .getDcConfiguration mb => mb.wf
  | .getDcExtentList mb => mb.wf
  | .mldManagement mb op _ => mb.wf && decide (op < 2 ^ 16)
  | .mailboxUnsupported mb op _ => mb.wf && decide (op < 2 ^ 16)
  | .engSubmit mb cls inst _ ups => mb.wf && decide (cls < 256) && decide (inst < 256) && ups.all Upset.wf
  | .engStepSuspend _ => true
  | .engStepResume _ => true
  | .winList mb => mb.wf
  | .tenantEnable mb tenant => mb.wf && decide (tenant < 2 ^ 16)
  | .tenantDisable mb tenant => mb.wf && decide (tenant < 2 ^ 16)
  | .ldEnable mb ld => mb.wf && decide (ld < 256)
  | .ldDisable mb ld => mb.wf && decide (ld < 256)
  | .fnState mb fn => mb.wf && fn.wf
  | .noticeSub mb op hub ep => mb.wf && decide (op < 256) && decide (hub < 2 ^ 16) && decide (ep < 256)
  | .fnDrainDone fn => fn.wf
  | .fnDrainCut fn => fn.wf
  | .fnOff fn => fn.wf
  | .ringTailWrite ld w => decide (ld < 16) && w.wf
  | .sysringTailWrite w => w.wf
  | .ringCfgWrite ld _ w => decide (ld < 16) && w.wf
  | .ringCoalesceTimer ld => decide (ld < 16)
  | .hostLinkUp width rate => decide (width < 17) && decide (rate < 16)
  | .hostLinkDown => true
  | .perstAssert => true
  | .perstRelease => true
  | .abort inp c => decide (inp < 34) && c.wf
  | .herdForm mb job id minMembers => mb.wf && decide (job < 256) && decide (id < 2 ^ 32) && decide (minMembers < 2 ^ 16)
  | .herdAbort mb job => mb.wf && decide (job < 256)
  | .herdCull mb job hub => mb.wf && decide (job < 256) && decide (hub < 2 ^ 16)
  | .herdReimage mb job va => mb.wf && decide (job < 256) && decide (va < 2 ^ 64)
  | .herdRebalance mb job partner epoch partnerVa tiles dstVa => mb.wf && decide (job < 256) && decide (partner < 2 ^ 16) && decide (epoch < 2 ^ 32) && decide (partnerVa < 2 ^ 64) && decide (tiles < 2 ^ 32) && decide (dstVa < 2 ^ 64)
  | .herdShadow mb tenant va work id => mb.wf && decide (tenant < 2 ^ 16) && decide (va < 2 ^ 64) && decide (work < 2 ^ 16) && decide (id < 2 ^ 32)
  | .herdStatus mb job => mb.wf && decide (job < 256)
  | .herdScoreClear mb job hub => mb.wf && decide (job < 256) && decide (hub < 2 ^ 16)
  | .beatSend => true
  | .beat inp c => decide (inp < 34) && c.wf
  | .memberLost job hub => decide (job < 32) && decide (hub < 2 ^ 16)
  | .epochDone inp c => decide (inp < 34) && c.wf
  | .epochCommit inp c => decide (inp < 34) && c.wf
  | .restart inp c => decide (inp < 34) && c.wf
  | .restored inp c => decide (inp < 34) && c.wf
  | .restoreReq inp c => decide (inp < 34) && c.wf
  | .restoreComplete job => decide (job < 32)
  | .digest inp c => decide (inp < 34) && c.wf
  | .digestMissing job => decide (job < 32)
  | .members inp c => decide (inp < 34) && c.wf
  | .shadowPassed inp c => decide (inp < 34) && c.wf
  | .herdMessageRetry _ => true
  | .scoreDecay => true
  | .cullBudgetExpire => true
  | .energySample e => e.wf
  | .fastLimitStep => true
  | .fastLimitEnd => true
  | .emergLower => true
  | .dampCapWrite w => w.wf
  | .pwrAlertAssert => true
  | .pwrAlertClear => true
  | .internalAlert _ => true
  | .internalAlertClear => true
  | .dampAlertEnd => true
  | .auxPowerOn _ addr => decide (addr < 128)
  | .powerStart => true
  | .mainEnFall => true
  | .mainPowerFault _ => true
  | .warmResetPin => true
  | .warmResetReg w => w.wf
  | .watchdogExpire => true
  | .pllLockLost dom => decide (dom < 15)
  | .pllResetTimer => true
  | .powerDone => true
  | .romDone => true
  | .verifyDone => true
  | .configDone => true
  | .storeDone => true
  | .rngHealthFail => true
  | .rngHealthPass => true
  | .startStageTimeout => true
  | .startRetry => true
  | .yokeHello inp c => decide (inp < 34) && c.wf
  | .yokeFormed _ => true
  | .yokeRefused => true
  | .applyEnd => true
  | .cellarStore mb => mb.wf
  | .cellarWriteDone _ => true
  | .cfgInfo mb => mb.wf
  | .cfgIdent mb x => mb.wf && x.wf
  | .lockSet mb => mb.wf
  | .secLockWrite w => w.wf
  | .svnRaise mb idx val => mb.wf && decide (idx < 256) && decide (val < 2 ^ 32)
  | .imageWrite mb off _ => mb.wf && decide (off < 2 ^ 32)
  | .imageCommit mb => mb.wf
  | .debugUnlock mb _ => mb.wf
  | .getVersion conn _ => conn.wf
  | .getCapabilities conn _ => conn.wf
  | .negotiateAlgorithms conn _ => conn.wf
  | .getDigests conn _ => conn.wf
  | .getCertificate conn _ => conn.wf
  | .challenge conn _ => conn.wf
  | .getMeasurements conn _ => conn.wf
  | .keyExchange conn _ => conn.wf
  | .finish conn _ => conn.wf
  | .endSession conn _ => conn.wf
  | .getCosign conn => conn.wf
  | .getPqChain conn off len => conn.wf && decide (off < 2 ^ 32) && decide (len < 2 ^ 32)
  | .read64 off => decide (off < 2 ^ 32)
  | .write64 off val => decide (off < 2 ^ 32) && decide (val < 2 ^ 64)
  | .mbxIn off _ => decide (off < 2 ^ 32)
  | .mbxStatus => true
  | .mbxOut off len => decide (off < 2 ^ 32) && decide (len < 2 ^ 32)
  | .telemetry => true
  | .idcode => true
  | .samplePreload => true
  | .extest drive => decide (drive.length = 16)
  | .tokenLoad _ => true
  | .tokenStatus => true
  | .dbgAccess off val _ => decide (off < 2 ^ 32) && decide (val < 2 ^ 64)
  | .bypass code _ => decide (code < 256)
  | .engineIntervalEnd cls inst job => decide (cls < 256) && decide (inst < 256) && decide (job < 32)
  | .notice inp c => decide (inp < 34) && c.wf
  | .auxPowerLoss => true
  | .auxPowerReturn => true
  | .hubResetRelease => true
  | .railRampTimeout => true
  | .ideKm conn _ => conn.wf
  | .i3cDynamicAddress addr _ => decide (addr < 128)
  | .memWr ld dpa _ tag data => decide (ld < 16) && decide (dpa < 2 ^ 52) && decide (tag < 2 ^ 16) && decide (data.length = 64)
  | .sensorRead t => decide (t.length = 64)

end Sys2Proof
end

