-- ==== Sys2Proof/Certificates/Slice0/Obligations.lean ====
section
/-! DEFINITION. Certificates/Slice0/Obligations.lean: what is claimed of the hub, one definition per statement. `exec` answers a
command's effect on everything but the queue; `under` and `queued` say what of the state found it leaves as it was. -/

open Sys2Proof Sys2Proof.Machine


/-- A step takes the command at the front of the queue and answers what exec answers with the queue's rest. -/
def Obligations.StepRunsTheFrontCommand : Prop :=
  ∀ (c : Instr) (rest : List Instr) (s : State), step { s with pending := c :: rest } = exec c { s with pending := rest }

/-- With no command waiting a step counts one TBS cycle and changes nothing else (the model's choice, log 3, DESIGN CHOICE). -/
def Obligations.AnEmptyQueueCountsOneCycle : Prop :=
  ∀ s : State, s.pending = [] → step s = .next { s with time := s.time + 1 }

/-- State.reset: auxiliary power on, main power off, every register at its reset value, nothing stored, nothing waiting. -/
def Obligations.ResetIsAHubWithoutMainPower : Prop :=
  State.reset.on = false ∧ unpowered State.reset ∧ State.reset.pending = [] ∧ State.reset.sup.aux = true ∧ State.reset.sup.stopped = false
  ∧ (∀ a : Nat, State.reset.reg a = regReset a) ∧ (∀ a : Nat, Memory.read State.reset.mem a = 0 ∧ Memory.read State.reset.resv a = 0)
  ∧ (∀ n : Nat, (tenantGet State.reset n).state = .off ∧ (ldGet State.reset n).state = .off)

/-- Every step answers a next state, and takes exactly the front command off the queue. -/
def Obligations.EveryStepTakesOneCommand : Prop :=
  ∀ s : State, ∃ t, step s = .next t ∧ t.pending = s.pending.tail

/-- No command outside the start, power, register, Cellar, key and SPDM commands writes the supervisor. -/
def Obligations.HubCommandsLeaveTheSupervisor : Prop :=
  ∀ (c : Instr) (s : State), reachesSup c = false → ∃ t, exec c s = .next t ∧ t.sup = s.sup

/-- Without main power every command but the power stage's, the sideband's and the test access port's changes nothing. -/
def Obligations.WithoutMainPowerTheHubIsStill : Prop :=
  ∀ (c : Instr) (s : State), s.on = false → ungated c = false → ∃ t, exec c s = .next t ∧ (t = s ∨ t = { s with out := .sideband (natLe 1 St.power) :: s.out })

/-- Every step keeps: a hub without main power holds nothing outside the AON domain, the Cellar and what was sent. -/
def Obligations.AnUnpoweredHubHoldsNothing : Prop :=
  ∀ s t : State, (s.on = false → unpowered s) → step s = .next t → (t.on = false → unpowered t)

/-- A byte-path store to a SHADOWED tile completes with E_BUSY and changes nothing. -/
def Obligations.ByteStoresToShadowedTilesAreBusy : Prop :=
  ∀ (s : State) (t off ten key : Nat) (d : List Byte), (tileGet s t).state = .shadowed → byteStore s t off d ten key = (St.busy, s)

/-- A byte-path store to an OPEN tile answers OK, writes its bytes, its checksum and its time of use, and nothing else. -/
def Obligations.ByteStoresToOpenTilesWriteTheirBytesAlone : Prop :=
  ∀ (s : State) (t off ten key : Nat) (d : List Byte), Memory.wf s.mem → smWf (fun _ => {}) s.st.tiles → (tileGet s t).state = .opened → collTile s t = false →
    let x := tileGet s t
    let r := byteStore s t off d ten key
    r.1 = St.ok
    ∧ (∀ a : Nat, Memory.read r.2.mem a = if slotKey x.loc off ≤ a ∧ a < slotKey x.loc off + d.length then d.getD (a - slotKey x.loc off) 0 else Memory.read s.mem a)
    ∧ (∀ k : Nat, tileGet r.2 k = if k = t then { x with lastUse := s.time, crc := crcChange x.crc off (s.slotRead x.loc off d.length) d } else tileGet s k)
    ∧ r.2 = { s with mem := r.2.mem, st := { s.st with tiles := r.2.st.tiles } }

/-- Bytes written to a slot are read back, no other slot changes, and a zeroised slot reads 0. -/
def Obligations.SlotsKeepWhatIsWritten : Prop :=
  (∀ (s : State) (l off : Nat) (d : List Byte), Memory.wf s.mem → off + d.length ≤ 65536 →
    Memory.wf (s.slotWrite l off d).mem ∧ (s.slotWrite l off d).slotRead l off d.length = d
    ∧ ∀ l' o : Nat, o < 65536 → (l' ≠ l ∨ o < off ∨ off + d.length ≤ o) → Memory.read (s.slotWrite l off d).mem (slotKey l' o) = Memory.read s.mem (slotKey l' o))
  ∧ (∀ (s : State) (l : Nat), Memory.wf s.mem →
    Memory.wf (s.slotZero l).mem ∧ (∀ o : Nat, o < 65536 → Memory.read (s.slotZero l).mem (slotKey l o) = 0)
    ∧ ∀ l' o : Nat, o < 65536 → l' ≠ l → Memory.read (s.slotZero l).mem (slotKey l' o) = Memory.read s.mem (slotKey l' o))

/-- rne_shift is the function of R132, gives the nearest integer with ties to even, and is symmetric. -/
def Obligations.RoundingIsToNearestTiesToEven : Prop :=
  (∀ (v : Int) (k : Nat), 1 ≤ k → 48 ≤ k → rneShift v k = 0)
  ∧ (∀ (v : Int) (k : Nat), 1 ≤ k → k < 48 →
    let q := v / 2 ^ k
    let r := v - q * 2 ^ k
    let h : Int := 2 ^ (k - 1)
    rneShift v k = if h < r then q + 1 else if r = h ∧ q % 2 = 1 then q + 1 else q)
  ∧ (∀ (v : Int) (k : Nat), 1 ≤ k → -(2 ^ 47) ≤ v → v < 2 ^ 47 →
    let d := v - rneShift v k * 2 ^ k
    0 ≤ 2 * d + 2 ^ k ∧ 2 * d ≤ 2 ^ k ∧ ((2 * d = 2 ^ k ∨ 2 * d + 2 ^ k = 0) → rneShift v k % 2 = 0))
  ∧ (∀ (v : Int) (k : Nat), 1 ≤ k → rneShift (-v) k = -(rneShift v k))

/-- The cell read from a cell's 288 bytes is that cell, and its CCRC passes. -/
def Obligations.CellsReadBackFromTheirBytes : Prop :=
  ∀ c : Cell, c.wf = true → c.payload.length = 256 → (cellBytes c).length = 288 ∧ cellOfBytes (cellBytes c) = c ∧ ccrcOk (cellBytes c) = true

/-- The composition entry read from an entry's 64-byte image is that entry. -/
def Obligations.CompositionEntriesReadBackFromTheirImage : Prop :=
  ∀ x : Piece, x.state < 256 → x.tenant < 65536 → x.tiles < 2 ^ 32 → x.va < 2 ^ 64 → x.owner < 65536 → x.ownerTag < 65536 → x.chgEpoch < 65536 → x.recHub < 65536 → x.ownerVa < 2 ^ 64 →
    x.recIdx < 2 ^ 32 → x.hoSeq < 2 ^ 32 → x.newVa < 2 ^ 64 → x.newOwner < 65536 → x.newTag < 65536 → x.ckpt < 2 ^ 32 → x.hoStart < 2 ^ 64 →
    (pieceBytes x).length = 64 ∧ pieceImage (pieceBytes x) = x

/-- The descrambler gives back the bits scrambled, and resynchronises to the scrambler's history. -/
def Obligations.DescramblingUndoesScrambling : Prop :=
  (∀ (h l : List Bool), descramble h (scramble h l).1 = (l, (scramble h l).2) ∧ (scramble h l).1.length = l.length)
  ∧ (∀ (h : List Bool) (data : Bool) (l : List Byte), l.length = 32 → (blockBits h data l).1.length = 257 ∧ (blockBits h data l).1.head? = some data ∧ descramble h ((blockBits h data l).1.tail) = (bytesBits l, (blockBits h data l).2))

/-- A register written whole through the bus reads as its access codes left it, and no other register changes. -/
def Obligations.PlainRegisterWritesReadBack : Prop :=
  ∀ (s : State) (p : RegPath) (a v i j new : Nat) (r : RegRow), smWf regReset s.regs → s.on = true → pathOpen s p = true → (∀ n, p ≠ .bar2 n) → a % 8 = 0 → new < 2 ^ 64 → plainWrite s a .whole v r i j new →
    r.name ∉ ["TICK_TREE", "TICK_CHILDREN", "FAB_PORT_CTL_n", "SHP_SHP_CFG_q_k", "SHP_SHP_MATCH_q_k", "SHP_METER_CFG_m", "SHP_METER_RATE_m", "DAMP_CAP", "DAMP_REASON_SEEN", "HOST_RING_BASE_i", "HOST_RING_CTL_i"] →
    ∃ t, exec (.regWrite { path := p, off := a, size := 8, val := v }) s = .next t ∧ (t.reg a).toNat = new ∧ (∀ b : Nat, b ≠ a → t.reg b = s.reg b) ∧ t = { s with regs := t.regs } ∧ smWf regReset t.regs

/-- A counter that is counted up stays within its width, and nothing else of the registers changes. -/
def Obligations.CountersSaturate : Prop :=
  ∀ (s : State) (f : Fld) (n : Nat), smWf regReset s.regs → f.lo ≤ f.hi → f.hi < 64 →
    (s.bump f n).fld f = min (s.fld f + n) (2 ^ (f.hi + 1 - f.lo) - 1)
    ∧ (s.fld f = 2 ^ (f.hi + 1 - f.lo) - 1 → (s.bump f n).fld f = s.fld f)
    ∧ (∀ g : Fld, g.addr = f.addr → g.lo ≤ g.hi → g.hi < 64 → (g.hi < f.lo ∨ f.hi < g.lo) → (s.bump f n).fld g = s.fld g)
    ∧ (∀ b : Nat, b ≠ f.addr → (s.bump f n).reg b = s.reg b)
    ∧ s.bump f n = { s with regs := (s.bump f n).regs }

/-- Any command in the mailbox of an LD or of the FM-owned LD that runs another is answered Busy, and changes nothing else. -/
def Obligations.ABusyMailboxAnswersBusyAlone : Prop :=
  ∀ (c : Instr) (s : State) (mb : Mbx), mailboxOf c = some mb → s.on = true → mb ≠ .sideband → mb ≠ .gone → s.host.busy.contains (mbxKey mb) = true →
    exec c s = .next ((s.cxl mb .busy).under s)

/-- In RECOVERY every mailbox command of an LD or of the FM-owned LD but CFG_INFO, IMAGE_WRITE and IMAGE_COMMIT answers E_BUSY alone. -/
def Obligations.InRecoveryOnlyTheImageCommandsRun : Prop :=
  ∀ (c : Instr) (s : State) (mb : Mbx), mailboxOf c = some mb → s.sup.stage = .recovery → mb ≠ .sideband → mb ≠ .gone → s.host.busy.contains (mbxKey mb) = false →
    (mb = .ld 0 → c ≠ .cfgInfo mb ∧ (∀ o d, c ≠ .imageWrite mb o d) ∧ c ≠ .imageCommit mb) →
    exec c s = .next ((s.reply mb St.busy).under s)

/-- AUX_POWER_ON, its loss and return, HUB_RESET_RELEASE, I3C_DYNAMIC_ADDRESS: the whole next state. -/
def Obligations.AuxiliarySupplyStrapsAndAddresses : Prop :=
  (∀ (s : State) (mode : Bool) (addr : Nat), s.on = false → exec (.auxPowerOn mode addr) s = .next { s with sup := { s.sup with aux := true, sbI3c := mode, sbAddr := addr % 4, sbDyn := none, cause := 1, trip := false, tripSensor := 0, tripTick := 0 } })
  ∧ (∀ s : State, exec .auxPowerLoss s = .next { s with sup := { s.sup with aux := false, sbDyn := none } })
  ∧ (∀ s : State, s.on = true → exec .auxPowerReturn s = .next { s with sup := { s.sup with aux := true } })
  ∧ (∀ s : State, exec .hubResetRelease s = .next { s with sup := { s.sup with warmHeld := false } })
  ∧ (∀ (s : State) (addr : Nat) (how : I3cHow), s.sup.aux = true → s.sup.sbI3c = true → exec (.i3cDynamicAddress addr how) s = .next { s with sup := { s.sup with sbDyn := some (addr % 128) } })

/-- MAIN_EN falling, or a main-power fault, turns a powered hub OFF and loses store and registers. -/
def Obligations.MainPowerLossEmptiesTheHub : Prop :=
  let lost := fun (s t : State) (c : Nat) => t.on = false ∧ unpowered t ∧ t.sup.cause = s.sup.cause ||| c ∧ t.sup.trip = s.sup.trip ∧ t.sup.tripSensor = s.sup.tripSensor
    ∧ t.sup.tripTick = s.sup.tripTick ∧ t.sup.cellar.mono = s.sup.cellar.mono ∧ t.sup.aux = s.sup.aux ∧ t.sup.sbI3c = s.sup.sbI3c ∧ t.sup.sbAddr = s.sup.sbAddr ∧ t.pending = s.pending
    ∧ t.sup.rails = 0 ∧ t.sup.pwrGood = false ∧ t.out = .pin "HUB_READY" false :: .pin "PWR_GOOD" false :: s.out
  (∀ s : State, s.on = true → ∃ t, exec .mainEnFall s = .next t ∧ lost s t 0)
  ∧ (∀ (s : State) (f : SupplyFault), s.on = true → ∃ t, exec (.mainPowerFault f) s = .next t ∧ lost s t (match f with | .under => 32 | .over => 64))

/-- POWER_START, WARM_RESET_PIN, WATCHDOG_EXPIRE and PLL_RESET_TIMER begin a start in POWER. -/
def Obligations.StartsAndResetsBeginInPower : Prop :=
  let cold := fun (s t : State) (c : Nat) => t.sup.stage = .power ∧ t.sup.cause = s.sup.cause ||| c ∧ t.regs = [] ∧ t.mem = [] ∧ t.resv = [] ∧ t.reqs = [] ∧ t.sup.rails = 0 ∧ t.sup.pwrGood = false ∧ t.sup.tripped = false ∧ t.pending = s.pending
  let warm := fun (s t : State) (c : Nat) => t.sup.stage = .power ∧ t.sup.cause = s.sup.cause ||| c ∧ t.regs = warmRegs s.regs ∧ t.mem = [] ∧ t.reqs = [] ∧ t.sup.rails = s.sup.rails ∧ t.sup.pwrGood = s.sup.pwrGood ∧ t.pending = s.pending ∧ t.out = .pin "HUB_READY" false :: s.out
  (∀ s : State, s.on = false → s.sup.aux = true → s.sup.tripped = false → ∃ t, exec .powerStart s = .next t ∧ cold s t 2)
  ∧ (∀ s : State, s.on = false → s.sup.aux = true → s.sup.tripped = true → s.sup.removed = true → ∃ t, exec .powerStart s = .next t ∧ cold s t 0x82 ∧ .pin "THERMTRIP_N" true ∈ t.out)
  ∧ (∀ s : State, s.on = false → s.sup.tripped = true → s.sup.removed = false → exec .powerStart s = .next s)
  ∧ (∀ s : State, s.on = true → s.sup.tripped = false → ∃ t, exec .warmResetPin s = .next t ∧ warm s t 4 ∧ t.sup.warmHeld = true)
  ∧ (∀ s : State, s.sup.stage = .run → s.sup.tripped = false → ∃ t, exec .watchdogExpire s = .next t ∧ warm s t 16)
  ∧ (∀ s : State, s.on = true → s.sup.tripped = false → s.sup.pllLost.isSome = true → ∃ t, exec .pllResetTimer s = .next t ∧ warm s t 0)

/-- PLL_LOCK_LOST, the RNG health tests and SENSOR_READ: what each leaves of the supervisor, and the trip. -/
def Obligations.ClocksHealthTestsAndSensors : Prop :=
  (∀ (s : State) (dom : Nat), s.sup.stage = .run → dom < 15 →
    let u : Sup := { s.sup with locks := clearBit s.sup.locks dom, pllLost := some (s.sup.pllLost.getD s.time) }
    ∃ st, (st = St.aborted ∨ st = St.link) ∧ exec (.pllLockLost dom) s = .next { faultAllJobs { s with sup := u, free := s.free + 1 } st 3 with sup := u, pending := s.pending })
  ∧ (∀ s : State, s.on = true → s.sup.rngEp = true → exec .rngHealthFail s = .next { s with sup := { s.sup with rngOk := false, rngFails := satAdd 32 s.sup.rngFails 1, rngEp := true } })
  ∧ (∀ s : State, s.on = true → s.sup.rngEp = false → exec .rngHealthFail s = .next (({ s with sup := { s.sup with rngOk := false, rngFails := satAdd 32 s.sup.rngFails 1, rngEp := true } } : State).notice 0x0B0D |>.queued s))
  ∧ (∀ s : State, s.on = true → exec .rngHealthPass s = .next { s with sup := { s.sup with rngOk := true, rngEp := false } })
  ∧ (∀ (s : State) (l : List (Option Int)), s.on = true → tripSensor (readSensors s l) = none → exec (.sensorRead l) s = .next ((seeReasons (readSensors s l)).under s))
  ∧ (∀ (s : State) (l : List (Option Int)) (i : Nat), s.on = true → tripSensor (readSensors s l) = some i →
    ∃ t, exec (.sensorRead l) s = .next t ∧ t.on = false ∧ unpowered t ∧ t.sup.trip = true ∧ t.sup.tripped = true ∧ t.sup.tripSensor = i ∧ t.sup.tripTick = (readSensors s l).tk.num
      ∧ .pin "THERMTRIP_N" false ∈ t.out ∧ .pin "SB_ALERT_N" false ∈ t.out)

/-- POWER_DONE, ROM_DONE, VERIFY_DONE, CONFIG_DONE, STORE_DONE, APPLY_END: what the end of each stage leaves. -/
def Obligations.StartStagesEndAsTheTableSays : Prop :=
  (∀ s : State, inStage s .power = true → s.sup.warmHeld = false →
    exec .powerDone s = .next { s with sup := { s.sup with rails := 8, pwrGood := true, locks := 0x7FFF, stage := .rom, stageAt := s.time, rngOk := !s.sup.rngEp }, out := .pin "PWR_GOOD" true :: s.out })
  ∧ (∀ s : State, inStage s .rom = true → exec .romDone s = .next { s with sup := if s.sup.cellar.identityOk = true then { s.sup with stage := .verify, stageAt := s.time } else { s.sup with reason := 9, stopped := true } })
  ∧ (∀ s : State, inStage s .verify = true → s.sup.cellar.imageTorn = none →
    let r := imgCheck s.sup.cellar s.sup.cellar.image
    exec .verifyDone s = .next { s with sup := if r = 0 then { runImg s.sup s.sup.cellar.image with stage := .config, stageAt := s.time } else { s.sup with stage := .recovery, stageAt := s.time, reason := r, recovered := some r } })
  ∧ (∀ s : State, inStage s .config = true → ∃ t, exec .configDone s = .next t ∧ t = (configStage s).queued s ∧ t.sup.stage = .store ∧ t.sup.aValid = cfgValid s.sup.cellar.copyA
      ∧ t.sup.bValid = cfgValid s.sup.cellar.copyB ∧ t.sup.cfgNone = (!t.sup.aValid && !t.sup.bValid) ∧ t.sup.level = (runLevel t.sup.hdr.level).1 ∧ t.regs = s.regs ∧ t.mem = s.mem)
  ∧ (∀ s : State, inStage s .store = true → s.sup.rngOk = true → (s.sup.hdr.yoke = true ∧ s.sup.cfgNone = false) →
    exec .storeDone s = .next ((yokeEnable { s with sup := { drawKeys s.sup with stage := .yoke, stageAt := s.time, yokeState := 1 } } true).queued s))
  ∧ (∀ s : State, inStage s .store = true → s.sup.rngOk = true → (s.sup.hdr.yoke = false ∨ s.sup.cfgNone = true) →
    exec .storeDone s = .next ((beginApply { s with sup := drawKeys s.sup }).queued s))
  ∧ (∀ s : State, inStage s .apply = true → exec .applyEnd s = .next ((enterRun s).queued s))

/-- START_STAGE_TIMEOUT, RAIL_RAMP_TIMEOUT and START_RETRY: a stage past its bound stops with reason 10, once retried. -/
def Obligations.StageBoundsStopAndRetryAStart : Prop :=
  (∀ s : State, s.sup.stage ∈ [Stage.power, .rom, .verify, .config, .store, .apply] → s.damp.forced = false → s.sup.stopped = false →
    exec .startStageTimeout s = .next { s with time := max s.time (s.sup.stageAt + stageBound s.sup.stage), sup := { s.sup with reason := 10, stopped := true } })
  ∧ (∀ s : State, s.sup.stage = .power → s.sup.stopped = false → exec .railRampTimeout s = .next { s with sup := { s.sup with reason := 10, stopped := true } })
  ∧ (∀ s : State, s.on = true → s.sup.stopped = true → s.sup.retried = false → s.sup.reason = 10 →
    ∃ t, exec .startRetry s = .next t ∧ t.sup.stage = .power ∧ t.sup.retried = true ∧ t.sup.stopped = false ∧ t.regs = [] ∧ t.mem = [] ∧ t.sup.rails = 0 ∧ t.pending = s.pending)

/-- YOKE_HELLO, YOKE_FORMED, YOKE_REFUSED: answer, checks, formation and refusal with its reason. -/
def Obligations.YokeFormsOrIsRefused : Prop :=
  (∀ (s u : State) (inp : Nat) (c a : Cell), s.sup.stage = .yoke → (inp = 24 ∨ inp = 25) → cellTaken s inp c a u → a.ty = 0x02 → a.tag = 0xFFFF → a.addr = 0x2E05CF00000 → getLE a.payload 0 1 = 1 →
    let v : State := { giveBack (sendPort u 33 inp (rspCell u a 0x12 St.ok 0 [])) inp a.vn with sup := s.sup }
    exec (.yokeHello inp c) s = .next ((if s.sup.helloOk = true then v else helloTake v inp (slice a.payload 0 64)).queued s))
  ∧ (∀ (s u : State) (inp : Nat) (c a : Cell), s.sup.stage = .yoke → (inp = 24 ∨ inp = 25) → cellTaken s inp c a u → isHello a = false →
    exec (.yokeHello inp c) s = .next (({ giveBack u inp a.vn with sup := s.sup } : State).queued s))
  ∧ (∀ s : State, inStage s .yoke = true → s.sup.helloOk = true →
    exec (.yokeFormed true) s = .next ((beginApply (({ s with sup := { s.sup with yoked := true, upper := s.sup.hdr.upper, hubId := s.sup.hdr.pairId, yokeState := 2 } } : State).notice 0x0B06)).queued s))
  ∧ (∀ s : State, inStage s .yoke = true → s.sup.helloOk = true → exec (.yokeFormed false) s = .next ((yokeRefuse s 9).queued s))
  ∧ (∀ s : State, inStage s .yoke = true → exec .yokeRefused s = .next ((yokeRefuse (stageOver s) (if yokePorts s = [] then 1 else if s.sup.hello = none then 2 else 9)).queued s))

/-- CELLAR_STORE, CFG_IDENT, CELLAR_WRITE_DONE, IMAGE_WRITE, IMAGE_COMMIT: what a Cellar write begins and ends with. -/
def Obligations.CellarWritesRecordsAndImages : Prop :=
  (∀ (s : State) (mb : Mbx), vendorReady mb .sys s → s.sup.job = none → exec (.cellarStore mb) s = .next ((beginStore 0 mb s.sup.hdr (mbxIn mb s)).queued s))
  ∧ (∀ (s : State) (mb : Mbx) (x : CfgIdent), vendorReady mb .sys s → s.sup.job = none → s.sup.lock = false → x.hubId ≤ 4095 → x.pairId ≤ 4095 →
    let h : CfgHdr := { s.sup.hdr with hubId := x.hubId, yoke := x.yoke, upper := x.upper, pairId := x.pairId, peerSerial := x.peerSerial, level := x.level }
    exec (.cfgIdent mb x) s = .next ((beginStore 1 mb h { mbxIn mb s with sup := { s.sup with hdr := h } }).queued s))
  ∧ (∀ (s : State) (w : CellarJob), s.on = true → s.sup.job = some w → w.kind < 2 → s.sup.yoked = false →
    exec (.cellarWriteDone true) s = .next (((({ s with sup := { putCopy { s.sup with job := none } w.toB w.data with current := w.toB, hdr := { s.sup.hdr with seq := w.seq } } } : State).notice 0x0B08).replyBg (w.mb.getD .gone) St.ok (natLe 4 w.seq)).queued s))
  ∧ (∀ (s : State) (w : CellarJob), s.on = true → s.sup.job = some w → w.kind < 2 → w.attempt = 1 →
    exec (.cellarWriteDone false) s = .next { s with sup := { s.sup with job := some { w with attempt := 2 } } })
  ∧ (∀ (s : State) (w : CellarJob), s.on = true → s.sup.job = some w → w.kind < 2 → w.attempt = 2 →
    exec (.cellarWriteDone false) s = .next (((({ s with sup := putCopy { s.sup with job := none } w.toB [] } : State).notice 0x0B09).replyBg (w.mb.getD .gone) St.checksum).queued s))
  ∧ (∀ (s : State) (mb : Mbx) (off : Nat) (data : List Byte), recReady mb s → off + data.length ≤ 16777216 →
    exec (.imageWrite mb off data) s = .next ((({ mbxIn mb s with sup := { s.sup with sram := sramPut s.sup.sram off data } } : State).reply mb St.ok).queued s))
  ∧ (∀ (s : State) (mb : Mbx), recReady mb s → s.sup.job = none →
    let img := stagedImage s.sup
    let r := imgCheck s.sup.cellar img
    let a := mbxIn mb s
    exec (.imageCommit mb) s = .next (
      (if r ≠ 0 then replyReason a mb (imgStatus r) r
       else if s.sup.stage = .recovery then (let b := a.notice 0x0B05 [s.sup.recovered.getD 0]; ({ b with sup := { runImg s.sup img with stage := .config, stageAt := s.time, job := some { kind := 3, mb := none, data := img } } } : State).reply mb St.ok [0])
       else { a.hold mb with sup := { s.sup with job := some { kind := 2, mb := some mb, data := img } } }).queued s))

/-- CFG_INFO, LOCK_SET, DEBUG_UNLOCK, MCAST_SET, TAG_SET: answer and what each writes. -/
def Obligations.CellarAnswersAndTables : Prop :=
  (∀ (s : State) (mb : Mbx), recReady mb s → ∃ a b t, (s.sup.aValid = true → a = getLE s.sup.cellar.copyA 8 4) ∧ (s.sup.bValid = true → b = getLE s.sup.cellar.copyB 8 4)
      ∧ exec (.cfgInfo mb) s = .next ((({ mbxIn mb s with free := t } : State).reply mb St.ok (natLe 1 (b2n s.sup.current) ++ natLe 1 (b2n s.sup.aValid + 2 * b2n s.sup.bValid) ++ natLe 4 a ++ natLe 4 b)).queued s))
  ∧ (∀ (s : State) (mb : Mbx), vendorReady mb .sys s → s.sup.lock = false →
    exec (.lockSet mb) s = .next (((({ mbxIn mb s with sup := { s.sup with lock := true } } : State).notice 0x0B0A).reply mb St.ok).queued s))
  ∧ (∀ (s : State) (mb : Mbx), vendorReady mb .sys s → s.sup.lock = true → exec (.lockSet mb) s = .next (((mbxIn mb s).reply mb St.ok).queued s))
  ∧ (∀ (s : State) (mb : Mbx) (token : List Byte), vendorReady mb .sys s → 3437 ≤ token.length →
    exec (.debugUnlock mb token) s = .next (((tokenRun (mbxIn mb s) (token.take 3437)).2.reply mb (tokenStatus s (token.take 3437))).queued s))
  ∧ (∀ (s : State) (mb : Mbx) (g e : Nat), vendorReady mb .sys s → exec (.mcastSet mb g e) s = .next
      ((if 0 < g ∧ g < 65536 then (let a := mbxIn mb s; { a with fab := { a.fab with groups := smSet (fun _ => 0) a.fab.groups g (mcastEntry e) } } : State).reply mb St.ok else (mbxIn mb s).reply mb St.badDesc).under s))
  ∧ (∀ (s : State) (mb : Mbx) (g e : Nat), vendorReady mb .sys s → exec (.tagSet mb g e) s = .next
      ((if g < 65536 ∧ e % 1024 < 512 then (let a := mbxIn mb s; { a with fab := { a.fab with tags := smSet (fun _ => 0) a.fab.tags g (bits e 15 15 * 32768 + bits e 9 0) } } : State).reply mb St.ok else (mbxIn mb s).reply mb St.badDesc).under s))

/-- SVN_RAISE sets a counter to a greater value, answers OK alone to an equal one and E_BAD_DESC to a lower one or one that would make the running image fail. -/
def Obligations.SvnRaiseNeverLowersACounter : Prop :=
  (∀ (s : State) (mb : Mbx) (i v : Nat), vendorReady mb .sys s → i < 16 → v < 2 ^ 32 → monoGet s.sup.cellar i < v → (i = 0 → v ≤ s.sup.imgSvn) → (i = 1 → v ≤ s.sup.imgKey) →
    ∃ t, exec (.svnRaise mb i v) s = .next t
      ∧ t = ((({ mbxIn mb s with sup := { s.sup with cellar := { s.sup.cellar with mono := smSet (fun _ => 0) s.sup.cellar.mono i v } } } : State).notice 0x0B0C).reply mb St.ok).queued s
      ∧ (smWf (fun _ => 0) s.sup.cellar.mono → monoGet t.sup.cellar i = v ∧ ∀ k : Nat, k ≠ i → monoGet t.sup.cellar k = monoGet s.sup.cellar k))
  ∧ (∀ (s : State) (mb : Mbx) (i v : Nat), vendorReady mb .sys s → i < 16 → v < 2 ^ 32 → v = monoGet s.sup.cellar i → (i = 0 → v ≤ s.sup.imgSvn) → (i = 1 → v ≤ s.sup.imgKey) →
    exec (.svnRaise mb i v) s = .next (((mbxIn mb s).reply mb St.ok).queued s))
  ∧ (∀ (s : State) (mb : Mbx) (i v : Nat), vendorReady mb .sys s → i < 16 → v < 2 ^ 32 → (v < monoGet s.sup.cellar i ∨ (i = 0 ∧ s.sup.imgSvn < v) ∨ (i = 1 ∧ s.sup.imgKey < v)) →
    exec (.svnRaise mb i v) s = .next (((mbxIn mb s).reply mb St.badDesc).queued s))
  ∧ (∀ (s : State) (mb : Mbx) (i v : Nat), vendorReady mb .sys s → (16 ≤ i ∨ 2 ^ 32 ≤ v) → exec (.svnRaise mb i v) s = .next (((mbxIn mb s).reply mb St.badDesc).queued s))

/-- READ64, WRITE64, MBX_IN, MBX_STATUS, MBX_OUT, TELEMETRY: the sideband's answers and what they write. -/
def Obligations.SidebandRequestsAnswer : Prop :=
  (∀ (s : State) (off : Nat), s.sup.aux = true → off % 8 = 0 → (s.on = true ∨ off = 0x30010 ∨ off = 0x40060) → exec (.read64 off) s = .next { s with out := .sideband (natLe 1 St.ok ++ natLe 8 (regRead s off)) :: s.out })
  ∧ (∀ (s : State) (off : Nat), s.sup.aux = true → s.on = false → off ≠ 0x30010 → off ≠ 0x40060 → exec (.read64 off) s = .next { s with out := .sideband (natLe 1 St.power) :: s.out })
  ∧ (∀ (s : State) (off v : Nat), s.sup.aux = true → off % 8 = 0 → (s.on = true ∨ off = 0x30010) → exec (.write64 off v) s = .next ((regWrite s off .whole v).emit (.sideband (natLe 1 St.ok)) |>.queued s))
  ∧ (∀ (s : State) (off v : Nat), s.sup.aux = true → s.on = true → off % 8 ≠ 0 → exec (.read64 off) s = .next { s with out := .regBad .sideband off :: s.out } ∧ exec (.write64 off v) s = .next { s with out := .regBad .sideband off :: s.out })
  ∧ (∀ (s : State) (off v : Nat), s.sup.aux = true → s.on = false → off ≠ 0x30010 → exec (.write64 off v) s = .next { s with out := .sideband (natLe 1 St.power) :: s.out })
  ∧ (∀ (s : State) (off : Nat) (d : List Byte), s.sup.aux = true → s.on = true → s.host.sb.state ≠ 1 → 1 ≤ d.length → d.length ≤ 32 → off + d.length ≤ 4096 →
    exec (.mbxIn off d) s = .next { s with host := { s.host with sb := { s.host.sb with inp := sbPut s.host.sb.inp off d } }, out := .sideband (natLe 1 St.ok) :: s.out })
  ∧ (∀ s : State, s.sup.aux = true → s.on = true → exec .mbxStatus s = .next { s with out := .sideband (natLe 1 St.ok ++ (natLe 1 s.host.sb.state ++ natLe 2 s.host.sb.rc ++ natLe 4 s.host.sb.outp.length)) :: s.out })
  ∧ (∀ (s : State) (off len : Nat), s.sup.aux = true → s.on = true → 1 ≤ len → len ≤ 32 → off + len ≤ 4096 →
    ∃ rest f, exec (.mbxOut off len) s = .next { s with free := f, out := .sideband (natLe 1 St.ok ++ ((s.host.sb.outp.drop off).take len ++ rest)) :: s.out })
  ∧ (∀ s : State, s.sup.aux = true → s.on = true → ∃ d, exec .telemetry s = .next { s with out := .sideband (natLe 1 St.ok ++ d) :: s.out }
      ∧ d = natLe 8 (regRead s 0x40040) ++ natLe 1 (hottest s) ++ natLe 2 (ofSigned 16 (sensorTemp s (hottest s))) ++ natLe 2 (regRead s 0x40050) ++ natLe 8 (regRead s 0x10000))

/-- IDCODE, SAMPLE_PRELOAD, EXTEST, TOKEN_LOAD, TOKEN_STATUS, DBG_ACCESS, BYPASS: answer and state. -/
def Obligations.TestAccessPortInstructions : Prop :=
  let seen := fun (s : State) => ({ s with sup := { s.sup with tck := some s.time } } : State)
  (∀ s : State, exec .idcode s = .next ((seen s).emit (.tap 0x01 (natLe 4 0x1B3C0B53))))
  ∧ (∀ s : State, ∃ b f, exec .samplePreload s = .next (({ seen s with free := f } : State).emit (.tap 0x02 b)))
  ∧ (∀ (s : State) (d : List Bool), (s.sup.stage = .off ∨ (s.sup.stage = .rom ∧ s.sup.reason = 9)) →
    ∃ b f, exec (.extest d) s = .next ((({ seen s with free := f } : State).emit (.tap 0x03 b)).emit (.event "EXTEST" (d.map b2n))))
  ∧ (∀ (s : State) (t : List Byte), s.on = true → exec (.tokenLoad t) s = .next
      ((let r := tokenRun (seen s) t; ({ r.2.emit (.tap 0x10 []) with sup := { r.2.sup with tapLast := r.1 } } : State)).queued s))
  ∧ (∀ s : State, exec .tokenStatus s = .next ((seen s).emit (.tap 0x11 (natLe 1 s.sup.tapLast))))
  ∧ (∀ (s : State) (off v : Nat), s.on = true → s.sup.debug ≠ 0 → off % 8 = 0 → exec (.dbgAccess off v false) s = .next ((seen s).emit (.tap 0x20 (natLe 1 St.ok ++ natLe 8 (regRead (seen s) off)))))
  ∧ (∀ (s : State) (off v : Nat), s.on = true → s.sup.debug = 2 → off % 8 = 0 → exec (.dbgAccess off v true) s = .next (((regWrite (seen s) off .whole v).emit (.tap 0x20 (natLe 1 St.ok))).queued s))
  ∧ (∀ (s : State) (off v : Nat) (w : Bool), s.on = true → (s.sup.debug = 2 ∨ (s.sup.debug = 1 ∧ w = false)) → off % 8 ≠ 0 → exec (.dbgAccess off v w) s = .next ((seen s).emit (.regBad .tap off)))
  ∧ (∀ (s : State) (off v : Nat), s.on = true → s.sup.debug = 1 → exec (.dbgAccess off v true) s = .next ((seen s).emit (.tap 0x20 (natLe 1 St.rights))))
  ∧ (∀ (s : State) (off v : Nat) (w : Bool), s.sup.debug = 0 → exec (.dbgAccess off v w) s = .next ((seen s).emit (.tap 0xFF (natLe 1 0))))
  ∧ (∀ (s : State) (code : Nat) (tdi : Bool), exec (.bypass code tdi) s = .next ((seen s).emit (.tap 0xFF (natLe 1 (b2n tdi)))))

/-- The thirteen SPDM requests on an open connection: the answer's code and what the connection keeps. -/
def Obligations.SpdmRequestsAreAnswered : Prop :=
  let ready := fun (s : State) (c : SpdmConn) (l : Nat) => s.on = true ∧ connOpen s c = true ∧ l ≤ (spdmGet s c).level
  let tells := fun (s : State) (c : SpdmConn) (i : Instr) (code : Nat) (x : SpdmSt) => ∃ p1 p2 body f, exec i s = .next { s with free := f, sup := { s.sup with spdm := smSet (fun _ => {}) s.sup.spdm (connKey c) x }, out := .spdm c (spdmMsg code p1 p2 body) :: s.out }
  let keeps := fun (s : State) (c : SpdmConn) (i : Instr) (code : Nat) => ∃ p1 p2 body f, exec i s = .next { s with free := f, out := .spdm c (spdmMsg code p1 p2 body) :: s.out }
  (∀ s c q, ready s c 0 → tells s c (.getVersion c q) 0x04 { level := 1 })
  ∧ (∀ s c q, ready s c 1 → tells s c (.getCapabilities c q) 0x61 { spdmGet s c with level := max 2 (spdmGet s c).level })
  ∧ (∀ s c q, ready s c 2 → tells s c (.negotiateAlgorithms c q) 0x63 { spdmGet s c with level := 3 })
  ∧ (∀ s c q, ready s c 3 → keeps s c (.getDigests c q) 0x01)
  ∧ (∀ s c q, ready s c 3 → getLE q 2 1 % 16 = 0 → getLE q 4 2 ≤ (edChain s.sup).length → keeps s c (.getCertificate c q) 0x02)
  ∧ (∀ s c q, ready s c 3 → getLE q 2 1 % 16 = 0 → ∃ m, tells s c (.challenge c q) 0x03 { spdmGet s c with signed := some m })
  ∧ (∀ s c q, ready s c 3 → getLE q 3 1 ≤ 4 → bitOf (getLE q 2 1) 0 = true → ∃ m, tells s c (.getMeasurements c q) 0x60 { spdmGet s c with signed := some m })
  ∧ (∀ s c q, ready s c 3 → getLE q 3 1 ≤ 4 → bitOf (getLE q 2 1) 0 = false → keeps s c (.getMeasurements c q) 0x60)
  ∧ (∀ s c q, ready s c 3 → tells s c (.keyExchange c q) 0x64 { spdmGet s c with keyEx := true })
  ∧ (∀ s c q, ready s c 3 → (spdmGet s c).keyEx = true → tells s c (.finish c q) 0x65 { spdmGet s c with keyEx := false, session := true })
  ∧ (∀ s c q, ready s c 3 → (spdmGet s c).session = true → tells s c (.endSession c q) 0x6C { spdmGet s c with session := false, ide := none })
  ∧ (∀ s c, ready s c 0 → (spdmGet s c).signed.isSome = true → keeps s c (.getCosign c) 0x7E)
  ∧ (∀ s c a n, ready s c 3 → keeps s c (.getPqChain c a n) 0x7E)
  ∧ (∀ s c q, ready s c 3 → (spdmGet s c).session = true → tells s c (.ideKm c q) 0x7E { spdmGet s c with ide := some q })

/-- The CXL mailbox commands of Table 15-3 answer Success, and what each writes. -/
def Obligations.CxlMailboxCommandsAnswer : Prop :=
  (∀ (s : State) (mb : Mbx) (log : Nat), cxlReady mb s → exec (.getEventRecords mb log) s = .next (((mbxIn mb s).cxl mb .success (natLe 2 (mbxEvents s mb log).length ++ (mbxEvents s mb log).flatMap (fun e => natLe 2 e.1 ++ e.2))).under s))
  ∧ (∀ (s : State) (mb : Mbx) (log : Nat) (hs : List Nat), cxlReady mb s → (∀ h ∈ hs, ∃ e ∈ mbxEvents s mb log, e.1 = h) →
    exec (.clearEventRecords mb log hs) s = .next (((let a := mbxIn mb s; { a with host := { a.host with events := a.host.events.filter (fun e => !(e.1 == mbxKey mb && e.2.1 == log && hs.contains e.2.2.1)) } } : State).cxl mb .success).under s))
  ∧ (∀ (s : State) (mb : Mbx) (log : Nat) (hs : List Nat), cxlReady mb s → (∃ h ∈ hs, ∀ e ∈ mbxEvents s mb log, e.1 ≠ h) → exec (.clearEventRecords mb log hs) s = .next (((mbxIn mb s).cxl mb .invalidInput).under s))
  ∧ (∀ (s : State) (mb : Mbx), cxlReady mb s → exec (.getEventInterruptPolicy mb) s = .next (((mbxIn mb s).cxl mb .success (((s.host.policy.find? (fun p => p.1 == mbxKey mb)).map Prod.snd).getD [])).under s))
  ∧ (∀ (s : State) (mb : Mbx) (p : List Byte), cxlReady mb s → exec (.setEventInterruptPolicy mb p) s = .next
      (((let a := mbxIn mb s; { a with host := { a.host with policy := (mbxKey mb, p) :: a.host.policy.filter (fun q => q.1 != mbxKey mb) } } : State).cxl mb .success).under s))
  ∧ (∀ (s : State) (mb : Mbx), cxlReady mb s → exec (.getTimestamp mb) s = .next (((mbxIn mb s).cxl mb .success (natLe 8 (hostTime s))).under s))
  ∧ (∀ (s : State) (mb : Mbx) (t : Nat), cxlReady mb s → exec (.setTimestamp mb t) s = .next (((let a := mbxIn mb s; { a with host := { a.host with timestamp := some (t, s.time) } } : State).cxl mb .success).under s))
  ∧ (∀ (s : State) (mb : Mbx), cxlReady mb s → ∃ d f, exec (.getSupportedLogs mb) s = .next ((({ mbxIn mb s with free := f } : State).cxl mb .success d).under s))
  ∧ (∀ (s : State) (mb : Mbx) (u o n : Nat), cxlReady mb s → ∃ d f, exec (.getLog mb u o n) s = .next ((({ mbxIn mb s with free := f } : State).cxl mb .success d).under s))
  ∧ (∀ (s : State) (mb : Mbx), cxlReady mb s → ∃ d f, exec (.identifyMemoryDevice mb) s = .next ((({ mbxIn mb s with free := f } : State).cxl mb .success d).under s))
  ∧ (∀ (s : State) (op : Nat) (d : List Byte), cxlReady .fm s → 0x5400 ≤ op → op ≤ 0x5406 → ∃ b f, exec (.mldManagement .fm op d) s = .next ((({ s with free := f } : State).cxl .fm .success b).under s))
  ∧ (∀ (s : State) (i : Nat), cxlReady (.ld i) s → s.fld (F.HOST_LD_DC_DC_LEN i) ≠ 0 → exec (.getDcConfiguration (.ld i)) s = .next ((s.cxl (.ld i) .success (natLe 1 1 ++ natLe 1 1 ++ natLe 6 0
      ++ (natLe 8 (s.fld (F.HOST_LD_DC_DC_BASE i) * 65536) ++ natLe 8 (s.fld (F.HOST_LD_DC_DC_LEN i) * 65536) ++ natLe 8 (s.fld (F.HOST_LD_DC_DC_LEN i) * 65536) ++ natLe 8 65536 ++ natLe 8 0))).under s))
  ∧ (∀ (s : State) (i : Nat), cxlReady (.ld i) s → ∃ g f, exec (.getDcExtentList (.ld i)) s = .next ((({ s with free := f } : State).cxl (.ld i) .success
      (let l := dcdExts s i 2 ++ dcdExts s i 3; natLe 4 l.length ++ natLe 4 l.length ++ natLe 4 g ++ natLe 4 0 ++ l.flatMap (fun e => natLe 8 (extDpa s i e.2) ++ natLe 8 e.2.len ++ natLe 4 (leaseId e.1 e.2) ++ natLe 20 0))).under s))
  ∧ (∀ (s : State) (mb : Mbx) (op : Nat) (d : List Byte), mbxFree mb s → mb ≠ .gone → (op < 0xC000 ∨ 0xC0FF < op) → exec (.mailboxUnsupported mb op d) s = .next (((mbxIn mb s).cxl mb .unsupported).under s))

/-- TENANT_ENABLE, LD_ENABLE, TENANT_DISABLE, LD_DISABLE, FN_STATE, FN_DRAIN_DONE, FN_DRAIN_CUT, FN_OFF. -/
def Obligations.FunctionsTurnOnDrainAndTurnOff : Prop :=
  (∀ (s : State) (mb : Mbx) (f : Fn) (i : Instr), (∃ n, (f = .tenant n ∧ i = .tenantEnable mb n) ∨ (f = .ld n ∧ i = .ldEnable mb n ∧ ldBound s n = true)) → vendorReady mb .sys s → fnValid f = true → (fnGet s f).state = .off → (fnGet s f).ready ≤ s.tk.num →
    exec i s = .next (((rejoinAll ((fnSet (mbxIn mb s) f { fnGet s f with state := .on }).notice 0x0B41 [fnName f] (fnTenant (fnSet (mbxIn mb s) f { fnGet s f with state := .on }) f))).reply mb St.ok).under s))
  ∧ (∀ (s : State) (mb : Mbx) (f : Fn) (i : Instr), (∃ n, (f = .tenant n ∧ i = .tenantEnable mb n) ∨ (f = .ld n ∧ i = .ldEnable mb n ∧ ldBound s n = true)) → vendorReady mb .sys s → fnValid f = true → (fnGet s f).state = .on →
    exec i s = .next (((mbxIn mb s).reply mb St.ok).under s))
  ∧ (∀ (s : State) (mb : Mbx) (n : Nat), vendorReady mb .sys s → n < 512 → (tenantGet s n).state = .on → tenantJobs s n = [] →
    let l := lockRuns (mbxIn mb s) .zeroise (tileRuns ((tenantTiles s n).filter (fun t => !isPeer t)))
    exec (.tenantDisable mb n) s = .next ((if l.1 = St.ok then tenantSet (l.2.2.hold mb) n { tenantGet s n with state := .draining, since := l.2.2.time, mb := some mb, locks := l.2.1 } else l.2.2.reply mb l.1).under s))
  ∧ (∀ (s : State) (mb : Mbx) (n : Nat), vendorReady mb .sys s → n < 16 → (ldGet s n).state = .on →
    let a := ldSet ((mbxIn mb s).hold mb) n { ldGet s n with state := .draining, since := s.time, mb := some mb }
    exec (.ldDisable mb n) s = .next ((pump (holderGone ((slotsOfLd a n).foldl (fun s a => declareLost s a true) a) (reqLd a n))).under s))
  ∧ (∀ (s : State) (mb : Mbx) (f : Fn), mbxFree mb s → mb ≠ .gone → (∀ i, mb ≠ .ld i) → fnValid f = true →
    exec (.fnState mb f) s = .next (((mbxIn mb s).reply mb St.ok (natLe 1 (match (fnGet s f).state with | .off => 0 | .on => 1 | .draining => 2 | .zeroising => 3) ++ natLe 6 (fnGet s f).ready)).under s))
  ∧ (∀ (s : State) (f : Fn), s.on = true → (fnGet s f).state = .draining → fnReqs s f = [] → queuedAny s (fnQueued f) = false → fnSteps s f = [] → exec (.fnDrainDone f) s = .next ((zeroiseBegin s f).under s))
  ∧ (∀ (s : State) (f : Fn), s.on = true → (fnGet s f).state = .draining → 
    let a := ({ s with time := max s.time ((fnGet s f).since + 25000) } : State)
    let b := cutQueued ((fnReqs a f).foldl (fun s r => cutReq s r St.lease) a) (fnQueued f) St.lease
    let c := (fnSteps b f).foldl (fun s x => endUnsched s { x with status := St.lease, data := [] }) b
    exec (.fnDrainCut f) s = .next ((zeroiseBegin (pump c) f).under s))
  ∧ (∀ (s : State) (n : Nat), s.on = true → (tenantGet s n).state = .zeroising → fnExts s (.tenant n) = [] → s.sup.rngOk = true →
    let z : State := { zeroiseTenant s n with sup := s.sup }
    let k : Sup := { s.sup with keyGen := smSet (fun _ => 0) s.sup.keyGen n ((smGet (fun _ => 0) s.sup.keyGen n + 1) % 2 ^ 32) }
    exec (.fnOff (.tenant n)) s = .next (({ fnOff { z with sup := k } (.tenant n) with sup := k } : State).queued s))
  ∧ (∀ (s : State) (i : Nat), s.on = true → (ldGet s i).state = .zeroising → fnExts s (.ld i) = [] → exec (.fnOff (.ld i)) s = .next ((fnOff (zeroiseLd s i) (.ld i)).under s))

/-- HOST_LINK_UP, HOST_LINK_DOWN, PERST_ASSERT, PERST_RELEASE, NOTICE_SUB, WIN_LIST, RING_COALESCE_TIMER. -/
def Obligations.HostLinkSubscribersAndRings : Prop :=
  (∀ (s : State) (w r : Nat), s.on = true → s.host.linkUp = false → s.host.perst = false → s.sup.stage ≠ .power →
    let a := ((({ s with host := { s.host with linkUp := true } } : State).put F.HOST_LINK_UP 1).put F.HOST_LINK_WIDTH w).put F.HOST_LINK_RATE r
    let b := a.put F.HOST_LINK_DEGRADED (b2n (decide (w < 16 ∨ r < 6)))
    exec (.hostLinkUp w r) s = .next ((rejoinAll (if w < 16 ∨ r < 6 then b.notice 0x0B43 else b)).under s))
  ∧ (∀ s : State, s.on = true → s.host.linkUp = true →
    let a := (((({ s with host := { s.host with linkUp := false } } : State).put F.HOST_LINK_UP 0).put F.HOST_LINK_WIDTH 0).put F.HOST_LINK_RATE 0).put F.HOST_LINK_DEGRADED 0
    exec .hostLinkDown s = .next ((pump ((List.range 16).foldl (fun s i => (slotsOfLd s i).foldl (fun s a => declareLost s a true) s) (a.notice 0x0B44))).under s))
  ∧ (∀ s : State, s.on = true → let m := loseMailboxes { s with host := { s.host with perst := true } }
    exec .perstAssert s = .next (({ linkDown m with sup := m.sup } : State).queued s))
  ∧ (∀ s : State, s.on = false → exec .perstAssert s = .next { s with host := { s.host with perst := true } })
  ∧ (∀ s : State, exec .perstRelease s = .next { s with host := { s.host with perst := false } })
  ∧ (∀ (s : State) (i hub ep : Nat), vendorReady (.ld i) .ten s → hub < 4096 → (ep ≤ 0x2F ∨ ep = 0xFE ∨ ep = 0xFF) → (ldTenant s i, hub, ep) ∉ s.host.subs →
    exec (.noticeSub (.ld i) 1 hub ep) s = .next ((if 8 ≤ (s.host.subs.filter (fun x => x.1 == ldTenant s i)).length then s.reply (.ld i) St.busy
      else ({ s with host := { s.host with subs := s.host.subs ++ [(ldTenant s i, hub, ep)] } } : State).reply (.ld i) St.ok).under s))
  ∧ (∀ (s : State) (i hub ep : Nat), vendorReady (.ld i) .ten s → hub < 4096 → (ep ≤ 0x2F ∨ ep = 0xFE ∨ ep = 0xFF) →
    exec (.noticeSub (.ld i) 2 hub ep) s = .next ((({ s with host := { s.host with subs := s.host.subs.filter (· != (ldTenant s i, hub, ep)) } } : State).reply (.ld i) St.ok).under s))
  ∧ (∀ (s : State) (i op hub ep : Nat), vendorReady (.ld i) .ten s → (4096 ≤ hub ∨ (0x30 ≤ ep ∧ ep ≤ 0xFD) ∨ 256 ≤ ep ∨ (op ≠ 1 ∧ op ≠ 2)) → exec (.noticeSub (.ld i) op hub ep) s = .next ((s.reply (.ld i) St.badDesc).under s))
  ∧ (∀ (s : State) (i : Nat), vendorReady (.ld i) .ten s → exec (.winList (.ld i)) s = .next ((s.reply (.ld i) St.ok ((winList s i).flatMap (fun p => natLe 8 p.1 ++ natLe 8 p.2))).under s))
  ∧ (∀ (s : State) (i t : Nat), s.on = true → (sigGet s i).since = some t → exec (.ringCoalesceTimer i) s = .next ((ringSignal { s with time := max s.time (t + us (s.fld (F.HOST_RING_CTL_COAL_US i))) } i).under s))

/-- JOB_ADMIT, ROOM_CLEARING_DONE, JOB_START, JOB_RESTART, JOB_RELEASE: the slot's next state and the answer. -/
def Obligations.JobCommandsMoveTheirSlot : Prop :=
  (∀ (s : State) (i va : Nat), vendorReady (.ld i) .ten s → exec (.jobAdmit (.ld i) va) s = .next
      ((match readImage s (ldTenant s i) va (reqLd s i), idleSlot s with
        | ((_, some g), u), some j => if roomOver (admitJob u j g) = true then clearGo (jobSet (u.hold (.ld i)) j { tenant := g.tenant, image := g, holds := true, clearing := some (.ld i) }) else (admitJob u j g).reply (.ld i) St.ok (natLe 1 j)
        | ((st, _), u), _ => u.reply (.ld i) st).under s))
  ∧ (∀ (s : State) (j : Nat) (mb : Mbx), s.on = true → (jobGet s j).clearing = some mb →
    let u := clearGo s
    exec (.roomClearingDone j) s = .next ((if roomOver u = true then (if clearFailed u = true then (unadmitted u j).replyBg mb St.busy else u)
      else if (jobGet u j).prior = none then (admitJob u j (jobGet u j).image).replyBg mb St.ok (natLe 1 j) else (reimaged u j).replyBg mb St.ok).under s))
  ∧ (∀ (s : State) (mb : Mbx) (j start : Nat), vendorReady mb .ten s → s.damp.forced = false → jobMine s mb j = true → s.tk.num + 4 ≤ start → (jobGet s j).clearing = none → ((jobGet s j).state = .admitted ∨ ((jobGet s j).state = .faulted ∧ (jobGet s j).everRan = false)) →
    let r := if (jobGet s j).state = .admitted then 0 else (jobGet s j).resume
    exec (.jobStart mb j start) s = .next (((jobSet (mbxIn mb s) j { jobGet s j with state := .armed, start := start, resume := r, tick := r, fault := none, stopAt := none }).reply mb St.ok).under s))
  ∧ (∀ (s : State) (mb : Mbx) (j start : Nat), vendorReady mb .tenSys s → s.damp.forced = false → jobMine s mb j = true → s.tk.num + 4 ≤ start → (jobGet s j).clearing = none → (jobGet s j).state = .faulted →
    exec (.jobRestart mb j start) s = .next (((jobSet (mbxIn mb s) j { jobGet s j with state := .armed, start := start, resume := resumeTick s j, tick := resumeTick s j, fault := none, stopAt := none }).reply mb St.ok).under s))
  ∧ (∀ (s : State) (mb : Mbx) (j : Nat), vendorReady mb .tenSys s → jobMine s mb j = true → (jobGet s j).state = .idle → exec (.jobRelease mb j) s = .next (((mbxIn mb s).reply mb St.ok).under s))
  ∧ (∀ (s : State) (mb : Mbx) (j : Nat), vendorReady mb .tenSys s → jobMine s mb j = true → (jobGet s j).state = .running → hasHerd s j = false →
    exec (.jobRelease mb j) s = .next ((jobSet ((mbxIn mb s).hold mb) j { jobGet s j with release := (jobGet s j).release ++ [mb], stopAt := some ((jobGet s j).stopAt.getD (s.tk.num + 1)) }).under s))
  ∧ (∀ (s : State) (mb : Mbx) (j : Nat), vendorReady mb .tenSys s → jobMine s mb j = true → (jobGet s j).state = .running → hasHerd s j = true →
    let u := raiseFault ((mbxIn mb s).hold mb) j St.aborted 5
    exec (.jobRelease mb j) s = .next ((jobSet u j { jobGet u j with release := (jobGet u j).release ++ [mb], stopAt := some ((jobGet u j).stopAt.getD (u.tk.num + 1)) }).under s))
  ∧ (∀ (s : State) (mb : Mbx) (j : Nat), vendorReady mb .tenSys s → jobMine s mb j = true → (jobGet s j).state ∉ [JobState.idle, .running] →
    exec (.jobRelease mb j) s = .next (((releaseJob (match (jobGet s j).clearing with | some m => (mbxIn mb s).replyBg m St.aborted | none => mbxIn mb s) j).reply mb St.ok).under s))

/-- SLOT_DISPATCH, STEP_COMPLETE, STEP_DEADLINE, ENGINE_INTERVAL_END, ENG_SUBMIT, ENG_STEP_SUSPEND, ENG_STEP_RESUME. -/
def Obligations.StepsAreDispatchedAndEnd : Prop :=
  let stepOver := fun (s : State) (x : Step) => (x.done = true ∨ x.kind = 0x30) ∧ x.waiting = false ∧ x.suspended = false ∧ x.blocked = false ∧ inputsIn x = true ∧ workOver s x = true
  (∀ (s : State) (j k : Nat) (ups : List Upset) (e : SlotE) (d : List Byte), s.on = true → (jobGet s j).state = .running → (jobGet s j).image.slots[k]? = some e → (jobGet s j).image.steps[e.step]? = some d
    → imageTick (jobGet s j).image (jobGet s j).tick = some e.tick → s.seq.dispatched.contains (j, k) = false → max s.time (s.tk.start + unitAt s e.start) < s.tk.start + unitAt s e.fin →
    ∃ (u : State) (id : Nat), exec (.slotDispatch j k ups) s = .next ((match stepGet u id with | some y => runStep u y | none => u).under s)
      ∧ u.time = max s.time (s.tk.start + unitAt s e.start) ∧ u.seq.dispatched = (j, k) :: s.seq.dispatched ∧ id = s.seq.nextStep ∧ u.seq.nextStep = id + 1
      ∧ u.seq.jobs = smSet (fun _ => {}) s.seq.jobs j { jobGet s j with phase := e.phase } ∧ u.mem = s.mem ∧ u.regs = s.regs ∧ u.st = { s.st with ups := s.st.ups ++ ups } ∧ u.out = s.out)
  ∧ (∀ (s : State) (id energy : Nat) (x : Step), s.on = true → stepGet s id = some x → stepOver s x → x.job = none → exec (.stepComplete id energy) s = .next ((startWaiting (endUnsched (chargeStep s x) x)).under s))
  ∧ (∀ (s : State) (id energy j : Nat) (x : Step), s.on = true → stepGet s id = some x → stepOver s x → x.job = some j →
    let u := phaseLearn s j x.phase x.cls energy
    exec (.stepComplete id energy) s = .next ((retryVn2 (if x.deadline ≤ u.time then overrunStep u x else if x.status = St.ok then epochStep (x.locks.foldl lockDrop (stepDrop u x.id)) j x else stepFail u x x.status (failClass x.status))).under s))
  ∧ (∀ (s : State) (id energy j : Nat) (x : Step), s.on = true → stepGet s id = some x → x.job = some j →
    exec (.stepDeadline id energy) s = .next ((retryVn2 (overrunStep (phaseLearn { s with time := max s.time x.deadline } j x.phase x.cls energy) x)).under s))
  ∧ (∀ (s : State) (inst j : Nat), s.on = true → exec (.engineIntervalEnd 1 inst j) s = .next ((startWaiting { s with
      chrn := { s.chrn with images := s.chrn.images.filter (fun i => !(i.eng == inst && i.job == j)) }
      seq := { s.seq with steps := s.seq.steps.map (fun x => if x.cls = 1 ∧ x.inst = inst ∧ x.job = some j then { x with frames := x.frames.filter Frame.done } else x) } }).under s))
  ∧ (∀ (s : State) (i inst : Nat) (desc : List Byte) (ups : List Upset), vendorReady (.ld i) .ten s → s.damp.forced = false → (inst = 255 ∨ inst < 8) → (getLE desc 0 1 = 0x10 ∨ getLE desc 0 1 = 0x11) → getLE desc 1 1 = 1 → getLE desc 8 4 = 0
    → getLE desc 4 4 = bodyLen (getLE desc 0 1) → desc.length = 16 + bodyLen (getLE desc 0 1) →
    let u := withUps s ups
    ∃ x : Step, exec (.engSubmit (.ld i) 2 inst desc ups) s = .next ((startWaiting (stepAdd (u.hold (.ld i)) (strnBind u (rowBind u x))).2).under s) ∧ x.kind = getLE desc 0 1 ∧ x.cls = 2 ∧ x.inst = inst ∧ x.body = desc.drop 16 ∧ x.mb = some (.ld i) ∧ x.tenant = ldTenant s i ∧ x.waiting = true ∧ x.job = none)
  ∧ (∀ (s : State) (id : Nat) (x : Step), s.on = true → stepGet s id = some x → x.job = none → x.waiting = false → exec (.engStepSuspend id) s = .next ((stepPut s { x with suspended := true }).under s))
  ∧ (∀ (s : State) (id : Nat) (x : Step), s.on = true → stepGet s id = some x → x.suspended = true → inReserved s x.cls x.inst = false → exec (.engStepResume id) s = .next ((stepPut s { x with suspended := false }).under s))

/-- TICK_BOUNDARY, TICK_LOST, TICK, DELAY_MEASURE, DELAY_REQ, DELAY_RESP, STRETCH_REQ, BOUNDARY_WORK_DONE, SAMPLE_PERIOD_CLOSE. -/
def Obligations.TickBoundariesAndTickCells : Prop :=
  (∀ s : State, s.on = true → exec .tickBoundary s = .next ((boundaryCells (boundary ((s.tk.num + 1) % 2 ^ 48) (s.tk.start + tickLen s) { s with time := max s.time (s.tk.start + tickLen s) })).under s))
  ∧ (∀ s : State, s.on = true → isRoot s = false → 16 ≤ s.tk.missed →
    let a := faultAllJobs ((s.put F.TICK_STATUS_LOST 1).notice 0x0104) St.link 3
    exec .tickLost s = .next (({ a with tk := { a.tk with lostRoot := true, holdover := false, missed := 0 } } : State).under s))
  ∧ (∀ (s u : State) (port frac : Nat) (c a : Cell), cellTaken (atFrac frac s) port c a u → a.ty = 0x30 → getLE a.payload 0 1 = 1 → foreign u a = false → isRoot u = false → port = parentPort u → getLE a.payload 24 4 = u.tk.base →
    exec (.tick port frac c) s = .next ((giveBack ((if (forwardTick u port a).tk.joined = true then tickTake (forwardTick u port a) a else tickStep (forwardTick u port a) a)) port a.vn).under s))
  ∧ (∀ (s u : State) (port frac : Nat) (c a : Cell), cellTaken (atFrac frac s) port c a u → a.ty = 0x30 → getLE a.payload 0 1 = 1 → foreign u a = true → exec (.tick port frac c) s = .next ((giveBack { u with tk := { u.tk with foreign := satAdd 32 u.tk.foreign 1 } } port a.vn).under s))
  ∧ (∀ s : State, s.on = true → isRoot s = false → (∀ t, s.tk.delayTick = some t → t + 64 ≤ s.tk.num) → exec .delayMeasure s = .next
      ((sendPort { s with tk := { s.tk with delayTick := some s.tk.num } } 33 (parentPort s) (tickCell s (tickPayload s 2 0 s.tk.cur 0 0 s.tk.base 0 0 0 0))).under s))
  ∧ (∀ (s : State) (t : Nat), s.on = true → s.tk.delayTick = some t → s.tk.num < t + 64 → exec .delayMeasure s = .next s)
  ∧ (∀ (s u : State) (port frac : Nat) (c a : Cell), cellTaken (atFrac frac s) port c a u → foreign u a = false → exec (.delayReq port frac c) s = .next
      ((giveBack (sendPort u 33 port (tickCell u (tickPayload u 3 0 u.tk.cur 0 0 u.tk.base 0 (getLE a.payload 40 8) (stamp u u.tk.frac) 0))) port a.vn).under s))
  ∧ (∀ (s u : State) (port frac : Nat) (c a : Cell), cellTaken (atFrac frac s) port c a u → foreign u a = false → port = parentPort u → isRoot u = false → u.tk.delayReq = some (getLE a.payload 40 8) →
    let d := tdivI (((stamp u u.tk.frac : Int) - getLE a.payload 40 8) - ((getLE a.payload 56 8 : Int) - getLE a.payload 48 8)) 2 + toSigned 16 (u.fld (F.TICK_PORT_ASYM_ASYM port))
    let ds := (d :: u.tk.delays).take 8
    exec (.delayResp port frac c) s = .next ((giveBack (({ u with tk := { u.tk with delays := ds, delayReq := none } } : State).put (F.TICK_PORT_DELAY_DELAY port) (ofSigned 32 (tdivI (ds.foldl (· + ·) 0) ds.length))) port a.vn).under s))
  ∧ (∀ (s u : State) (port : Nat) (c a : Cell), cellTaken s port c a u → foreign u a = false → port ∈ childPorts u → exec (.stretchReq port c) s = .next
      ((giveBack (askStretch { u with tk := { u.tk with childReq := (port, min 64 (getLE a.payload 15 1)) :: u.tk.childReq.filter (fun e => e.1 != port) } }) port a.vn).under s))
  ∧ (∀ s : State, s.on = true → exec .boundaryWorkDone s = .next { s with tk := { s.tk with workLeft := false } })
  ∧ (∀ s : State, s.on = true → s.fab.sampFrom + s.fld F.SHP_SAMP_CTL_PERIOD ≤ s.tk.num → let a := (List.range 136).foldl sampClose s
      exec .samplePeriodClose s = .next (({ a with fab := { a.fab with samps := [], sampFrom := a.tk.num } } : State).under s))

/-- PWR_ALERT_ASSERT, PWR_ALERT_CLEAR, INTERNAL_ALERT and its clear, DAMP_ALERT_END, ENERGY_SAMPLE, FAST_LIMIT_STEP, FAST_LIMIT_END, EMERG_LOWER. -/
def Obligations.DamperAlertsAndLimits : Prop :=
  let enter := fun (s : State) (d : Damp) (src : Nat) => let a := ({ s with damp := { d with forced := true, forcedSrc := src, cleared := none } } : State).notice 0x0A02 [src]
    seeReasons (stopUnsched ((a.st.copies.filter (fun c => c.close.isNone)).foldl (fun s c => abandonCopy s c.tile) a) St.power)
  (∀ s : State, s.on = true → s.damp.forced = false → exec .pwrAlertAssert s = .next ((enter s { s.damp with alertExt := true } 1).under s))
  ∧ (∀ s : State, s.on = true → s.damp.forced = true → exec .pwrAlertAssert s = .next ((seeReasons { s with damp := { s.damp with alertExt := true, forcedSrc := s.damp.forcedSrc ||| 1, cleared := none } }).under s))
  ∧ (∀ (s : State) (w : AlertCause), s.on = true → s.damp.forced = false → exec (.internalAlert w) s = .next ((enter s { s.damp with alertInt := true } 2).under s))
  ∧ (∀ (s : State) (w : AlertCause), s.on = true → s.damp.forced = true → exec (.internalAlert w) s = .next ((seeReasons { s with damp := { s.damp with alertInt := true, forcedSrc := s.damp.forcedSrc ||| 2, cleared := none } }).under s))
  ∧ (∀ s : State, s.on = true → s.damp.forced = true → s.damp.cleared = none → exec .pwrAlertClear s = .next { s with damp := { s.damp with alertExt := false, cleared := if s.damp.alertInt = true then none else some s.time } })
  ∧ (∀ s : State, s.on = true → s.damp.forced = true → s.damp.cleared = none → exec .internalAlertClear s = .next { s with damp := { s.damp with alertInt := false, cleared := if s.damp.alertExt = true then none else some s.time } })
  ∧ (∀ (s : State) (t : Nat), s.on = true → s.damp.forced = true → s.damp.cleared = some t → exec .dampAlertEnd s = .next
      ((({ s with time := max s.time (t + us (s.fld F.DAMP_CTL_ALERT_HOLD)), damp := { s.damp with forced := false, forcedSrc := 0, cleared := none, emerg := 7, lowerAt := max s.time (t + us (s.fld F.DAMP_CTL_ALERT_HOLD)) } } : State).notice 0x0A03).under s))
  ∧ (∀ (s : State) (e : EnergySample), s.on = true → let n := max s.time (s.damp.sampleAt + us 1)
    exec (.energySample e) s = .next ((energySample { s with time := n, damp := { s.damp with sampleAt := n } } e).under s))
  ∧ (∀ s : State, s.on = true → s.damp.fastEp = true → capFast s * 1000 ≤ fastPower s → let n := max s.time (s.damp.stepAt + us 10)
    exec .fastLimitStep s = .next { s with time := n, damp := { s.damp with emerg := min 7 (s.damp.emerg + 1), stepAt := n } })
  ∧ (∀ (s : State) (t : Nat), s.on = true → s.damp.fastEp = true → s.damp.fastLow = some t → let n := max s.time (t + us 100)
    exec .fastLimitEnd s = .next { s with time := n, damp := { s.damp with fastEp := false, lowerAt := n } })
  ∧ (∀ s : State, s.on = true → s.damp.fastEp = false → s.damp.throttle = false → s.damp.forced = false → let n := max s.time (s.damp.lowerAt + us 100)
    exec .emergLower s = .next { s with time := n, damp := { s.damp with emerg := s.damp.emerg - 1, lowerAt := n } })

/-- MIG_COPY_START, MIG_PASS_END, MIG_DRAIN_DONE, MIG_FLIP, MIG_ABANDON, DEMAND_DECAY, MIG_HINT, SCRUB_TILE, MAINT_LOCK_GRANT, MIG_MAINT_WAIT. -/
def Obligations.BarrowCopiesHintsAndScrub : Prop :=
  (∀ (s : State) (t : Nat) (m : Move), s.on = true → moveFor (prefGo s) t = some m →
    exec (.migCopyStart t) s = .next ((prefGo (startCopy (prefGo s) m)).under s))
  ∧ (∀ (u v : State) (m : Move) (d k : Nat), moveStale u m = false → (m.promote = true → m.job = none → nearRoom u none = true) → copySlot u m = some d
    → u.st.locks.any (fun k => k.act == .migration && k.first == m.tile) = false → lockInternal u .migration m.tile 1 = (true, k, v) → startCopy u m = beginCopy v m d
    ∧ (beginCopy v m d).st.tiles = smSet (fun _ => {}) v.st.tiles m.tile { tileGet v m.tile with state := .inTransit, alt := d, shCharge := if m.promote = true then m.job else none })
  ∧ (∀ (s : State) (t : Nat) (c : Copy) (ups : List Upset), s.on = true → copyOf (withUps s ups) t = some c → c.close = none →
    let r := if c.passes = 0 then verify (withUps s ups) t (copyReader (withUps s ups) c) else (true, withUps s ups)
    let c' := { c.read c.left.length with passes := c.passes + 1 }
    exec (.migPassEnd t ups) s = .next ((if r.1 = false then sourceBad r.2 c
      else if c'.dirty.length ≤ r.2.fld F.MIG_CTL_CUT_DIRTY then copySet r.2 { c' with close := some r.2.time }
      else if r.2.fld F.MIG_CTL_MAX_PASSES ≤ c.passes + 1 then cutEnd (abandonCopy r.2 t) else copySet r.2 { c' with left := (List.range 128).filter c'.dirty.contains }).under s))
  ∧ (∀ (s : State) (t c0 : Nat) (c : Copy), s.on = true → copyOf s t = some c → c.close = some c0 → exec (.migDrainDone t) s = .next ((if draining s t c0 = true then s else copySet s { c with drained := true }).under s))
  ∧ (∀ (s : State) (t c0 : Nat) (c : Copy), s.on = true → copyOf s t = some c → c.close = some c0 → c.drained = true → s.time < c0 + 1000 → exec (.migFlip t) s = .next ((cutEnd (flipCopy s t)).under s))
  ∧ (∀ (s : State) (t c0 : Nat) (c : Copy), s.on = true → copyOf s t = some c → c.close = some c0 → exec (.migAbandon t) s = .next ((cutEnd (abandonCopy { s with time := max s.time (c0 + 1000) } t)).under s))
  ∧ (∀ s : State, s.on = true → s.st.decayed + s.fld F.MIG_DEMAND_DECAY ≤ s.tk.num →
    exec .demandDecay s = .next { s with st := { s.st with decayed := s.tk.num, demand := s.st.demand.foldl (fun m e => smSet (fun _ => {}) m e.1 (if e.2.count / 2 = 0 then {} else { e.2 with count := e.2.count / 2 })) s.st.demand } })
  ∧ (∀ (s : State) (i va n hint : Nat), vendorReady (.ld i) .ten s → va % 65536 = 0 → va < 2 ^ 52 → 0 < n → n ≤ 16777216 → hint ≤ 4 → tenantCheck s (ldTenant s i) = St.ok →
    let l := (List.range n).map (fun k => hintTile s (ldTenant s i) (va + 65536 * k) (reqLd s i))
    let after := pinCount (l.foldl (fun s (e : Nat × Nat) => tileSet s e.2 { tileGet s e.2 with hint := hint }) s)
    exec (.migHint (.ld i) va n hint) s = .next ((match l.find? (fun (e : Nat × Nat) => e.1 != St.ok) with
      | some e => s.reply (.ld i) e.1
      | none => if hint = 3 ∧ s.fld F.MIG_PIN_MAX < after then (s.notice 0x0213 [after] (ldTenant s i)).reply (.ld i) St.busy else (l.foldl (fun s (e : Nat × Nat) => setHint hint s e.2) s).reply (.ld i) St.ok).under s))
  ∧ (∀ (s : State) (ups : List Upset), s.on = true → s.flag F.TILE_SCRUB_CTL_EN = true → s.damp.forced = false → s.st.locks.any (fun l => l.act == .scrub) = false → (s.st.scrubOn = true ∨ s.st.scrubDue ≤ s.time) →
    let v := if s.st.scrubOn = true then withUps s ups else { withUps s ups with st := { (withUps s ups).st with scrubOn := true, scrubDue := s.time + scrubPeriod s } }
    exec (.scrubTile ups) s = .next ((match (ownTiles v).find? (fun (e : Nat × Tile) => v.st.scrubNext ≤ e.1 && e.2.state == TState.sealed) with
      | none => { v with st := { v.st with scrubNext := 0, scrubOn := false, scrubPasses := satAdd 32 v.st.scrubPasses 1 } }
      | some e => let l := lockInternal { v with st := { v.st with scrubNext := e.1 + 1 } } .scrub e.1 1
        if l.1 = true then lockDrop (scrubOne l.2.2 e.1) l.2.1 else l.2.2).under s))
  ∧ (∀ (s : State) (ups : List Upset), s.on = true → s.st.scrubOn = false → s.time < s.st.scrubDue → exec (.scrubTile ups) s = .next { s with st := { s.st with ups := s.st.ups ++ ups } })
  ∧ (∀ (s : State) (k : Nat) (l : MLock), s.on = true → s.st.locks.find? (fun l => l.id == k && !l.held) = some l → grantable s l = true → l.act = .scrub → exec (.maintLockGrant k) s = .next ((lockDrop (scrubOne (lockGrant s l) l.first) k).under s))
  ∧ (∀ (s : State) (k : Nat) (l : MLock), s.on = true → s.st.locks.find? (fun l => l.id == k && !l.held) = some l → grantable s l = true → l.act = .checkpoint → exec (.maintLockGrant k) s = .next ((wake (lockGrant s l)).under s))
  ∧ (∀ (s : State) (k : Nat) (l : MLock), s.on = true → s.st.locks.find? (fun l => l.id == k && !l.held) = some l → grantable s l = false → exec (.maintLockGrant k) s = .next s)
  ∧ (∀ (s : State) (k : Nat) (l : MLock), s.on = true → s.st.locks.find? (fun l => l.id == k && !l.held && !l.warned) = some l →
    exec (.migMaintWait k) s = .next ((({ s with time := max s.time (l.time + ms 1000), st := { s.st with locks := s.st.locks.map (fun x => if x.id = k then { x with warned := true } else x) } } : State).notice 0x0212 [l.first, l.count]).under s))

/-- Every row that carries one cell: performed at its home, sent on by the route table, or dropped at the port. -/
def Obligations.CellsActAtTheirHomeOrGoOn : Prop :=
  let rows : List ((Nat → Cell → Instr) × Nat × (Nat → Cell → State → State)) :=
    [(.read, 0x01, requestHere), (.write, 0x02, requestHere), (.atomic, 0x03, requestHere), (.readRsp, 0x11, fun _ c s => rspTake c s), (.writeRsp, 0x12, fun _ c s => rspTake c s), (.atomicRsp, 0x13, fun _ c s => rspTake c s),
     (.notice, 0x32, fun _ c s => s.emit (.event "NOTICE" ((slice c.payload 0 64).map (fun b => b.toNat)))), (.crdS, 0x40, fun inp c s => pump (acceptCell inp c s)), (.crdE, 0x41, fun inp c s => pump (acceptCell inp c s)),
     (.cupg, 0x42, fun inp c s => pump (acceptCell inp c s)), (.cwb, 0x43, fun inp c s => pump (acceptCell inp c s)), (.csnpRsp, 0x4A, fun _ c s => wake (csnpRsp c s)), (.ckptData, 0x22, fun _ c s => ckptDataTake c s), (.ckptAck, 0x14, fun _ c s => ckptAckTake c s), (.ember, 0x31, fun _ c s => emberTake c s)]
  (∀ r ∈ rows, ∀ (s u : State) (inp : Nat) (c a : Cell), cellHere s inp c a u → a.ty = r.2.1 → exec (r.1 inp c) s = .next ((giveBack (r.2.2 inp a u) inp a.vn).under s))
  ∧ (∀ r ∈ rows, ∀ (s u : State) (inp : Nat) (c a : Cell), cellTaken s inp c a u → routeOf u a ≠ .here → exec (r.1 inp c) s = .next ((sendFrom u inp a).under s))
  ∧ (∀ r ∈ rows, ∀ (s u : State) (inp : Nat) (c : Cell), s.on = true → ingress s inp c = (none, u) → exec (r.1 inp c) s = .next (u.under s))
  ∧ (∀ (s u : State) (inp : Nat) (c a : Cell), cellHere s inp c a u → a.ty = 0x20 → getLE a.payload 0 2 ≠ 0 → exec (.reduce inp c) s = .next ((retryVn2 (vn2Cell u inp a u.time)).under s))
  ∧ (∀ (s u : State) (inp : Nat) (c a : Cell), cellHere s inp c a u → a.ty = 0x20 → getLE a.payload 0 2 = 0 → exec (.postedReduce inp c) s = .next ((vn2Cell u inp a u.time).under s))

/-- SWITCH_CELL_ARRIVE, SWITCH_MATCH, SKIM_ISSUE, REQ_TIMEOUT, MCAST_STORE, ABORT. -/
def Obligations.SwitchArrivalsMatchingAndTimeouts : Prop :=
  let enters := fun (v : State) (inp : Nat) (a : Cell) => inp < 26 ∨ (v.fab.unsent.any (fun x => x.unit == inp) = false ∧ hasEntry v inp a = true)
  (∀ (s u : State) (inp p : Nat) (c a : Cell), cellTaken s inp c a u → a.ty ∉ [0x21, 0x30, 0x33] → routeOf u a = .ext p →
    exec (.switchCellArrive inp c) s = .next ((let x := slotOf u a; enqueue (newCellId x.2).2 inp p x.1 a (newCellId x.2).1).under s))
  ∧ (∀ (s u : State) (inp : Nat) (c a : Cell) (p : Place) (r : Req), cellTaken s inp c a u → ((1 ≤ a.ty ∧ a.ty ≤ 3) ∨ isCoh a.ty = true) → a.tag ≠ 0xFFFF → routeOf u a = .here →
    cellVerdict u (newReq u inp a).1 = (.here p, r) → exec (.switchCellArrive inp c) s = .next ((queueHere inp a (some p) u).under s))
  ∧ (∀ (s u : State) (inp : Nat) (c a : Cell) (p : Place) (r : Req), cellTaken s inp c a u → ((1 ≤ a.ty ∧ a.ty ≤ 3) ∨ isCoh a.ty = true) → a.tag ≠ 0xFFFF → routeOf u a = .here →
    cellVerdict u (newReq u inp a).1 = (.away p, r) → exec (.switchCellArrive inp c) s = .next ((yokePass (farAccess u (r.put p)) inp a).under s))
  ∧ (∀ (s u : State) (inp : Nat) (c a : Cell), cellTaken s inp c a u → a.ty ∉ [0x20, 0x21, 0x22] → (a.ty = 0x30 ∨ a.ty = 0x33 ∨ (routeOf u a = .here ∧ (a.tag = 0xFFFF ∨ ¬ ((1 ≤ a.ty ∧ a.ty ≤ 3) ∨ isCoh a.ty = true)))) →
    exec (.switchCellArrive inp c) s = .next ((queueHere inp a none u).under s))
  ∧ (∀ (s u : State) (inp : Nat) (c a : Cell), cellTaken s inp c a u → (a.ty = 0x20 ∨ a.ty = 0x22) → routeOf u a = .here → exec (.switchCellArrive inp c) s = .next ((vn2In inp a u).under s))
  ∧ (∀ (inp : Nat) (c : Cell) (p : Option Place) (s : State), let x := slotHere s c; let v := (newCellId x.2).2
    queueHere inp c p s = enqueueCopy true v { qcell v inp (internalPort v c) x.1 c (newCellId x.2).1 with place := p, stamp := if c.ty = 0x30 then some (stamp v v.tk.frac) else none })
  ∧ (∀ (s u : State) (inp : Nat) (c a : Cell), cellTaken s inp c a u → a.ty ∉ [0x21, 0x30, 0x33] → routeOf u a = .lost → exec (.switchCellArrive inp c) s = .next ((unroutable u inp a).under s))
  ∧ (∀ s : State, s.on = true → exec .switchMatch s = .next ((((moved (matchSlot s)).filter (fun x => 26 ≤ x.out)).foldl deliver (matchSlot s)).under s))
  ∧ (∀ (s u : State) (g : Nat) (e : Skim), s.on = true → skimPick s (31 + g % 2) = (some e, u) →
    exec (.skimIssue g) s = .next ((wake (pump (({ u with fab := { u.fab with skims := u.fab.skims.erase e } } : State).atTime e.time (carryOut e.inp e.c e.place e.riders)))).under s))
  ∧ (∀ (s : State) (txn : Nat) (t : Txn), s.on = true → s.fab.txns.find? (fun t => t.txn == txn) = some t →
    let a : State := { s with time := max s.time t.deadline, fab := { s.fab with txns := s.fab.txns.erase t, late := s.fab.late ++ [t.txn] } }
    exec (.reqTimeout txn) s = .next ((wake (pump (txnEnd ((a.bump F.FAB_TIMEOUT_COUNT_TIMEOUTS).onceTick 0x0406 t.dst [t.dst]) t St.link 0 []))).under s))
  ∧ (∀ (s u : State) (inp : Nat) (c a : Cell), cellTaken s inp c a u → a.ty = 0x21 → let v := (newCellId u).2; enters v inp a → (bitOf (groupGet u a.txn) 47 = false ∨ bits (groupGet u a.txn) 63 48 ≠ a.tag) →
    exec (.mcastStore inp c) s = .next ((giveBack ((v.bump F.SWX_MCAST_DROP_COUNT).onceTick 0x0411 a.txn [a.txn]) inp a.vn).under s))
  ∧ (∀ (s u : State) (inp : Nat) (c a : Cell), cellTaken s inp c a u → a.ty = 0x21 → let v := (newCellId u).2; enters v inp a → bitOf (groupGet u a.txn) 47 = true → bits (groupGet u a.txn) 63 48 = a.tag →
    let x := slotOf v a
    let w := ((List.range 26).filter (fun n => bitOf (groupGet u a.txn) n && portUp x.2 n && n != inp) ++ (if bitOf (groupGet u a.txn) 46 = true then [gatewayOf x.2 a] else [])).foldl (fun s n => enqueueCopy false s (qcell s inp n x.1 a (newCellId u).1)) x.2
    exec (.mcastStore inp c) s = .next ((if w.fab.voq.any (fun x => x.id == (newCellId u).1) = true then w else giveBack w inp a.vn).under s))
  ∧ (∀ (s u : State) (inp : Nat) (c a : Cell), cellTaken s inp c a u → a.ty = 0x21 → let v := (newCellId u).2; ¬ enters v inp a →
    exec (.mcastStore inp c) s = .next (({ v with fab := { v.fab with unsent := v.fab.unsent ++ [{ id := (newCellId u).1, unit := inp, c := a }] } } : State).under s))
  ∧ (∀ (s u : State) (inp : Nat) (c a : Cell), cellTaken s inp c a u → exec (.abort inp c) s = .next ((giveBack (abortTake inp a u) inp a.vn).under s))

/-- BIRSP, BICONFLICT, HOLD_WINDOW_END, COH_SNOOP_SLOW, PRED_DECAY, LOST_WALK_DONE, LOST_WRITES, MEM_RD, MEM_WR, MEM_INV. -/
def Obligations.CoherenceRowsAndCxlMemory : Prop :=
  (∀ (s : State) (ld dpa l : Nat) (k : BiRsp) (p : Snp), s.on = true → ldLine s ld dpa = some l → s.coh.snoops.find? (fun p => p.line == l && (slotsOfLd s ld).contains p.agent) = some p → isLost s p.agent = false →
    let e := dirGet s p.line
    let a := if k = .e ∧ e.owner = p.agent ∧ e.state = .pend then dirSet s p.line { e with keepX := true } else s
    exec (.birsp ld dpa k) s = .next ((wake (pump (snoopAnswer a p.line p.agent (decide (k = .s)) none))).under s))
  ∧ (∀ (s : State) (ld dpa l : Nat), s.on = true → ldLine s ld dpa = some l → s.coh.snoops.any (fun p => p.line == l && (slotsOfLd s ld).contains p.agent) = true → s.coh.conflicts = [] →
    exec (.biconflict ld dpa) s = .next { s with coh := { s.coh with conflicts := [(ld, dpa, l)] } })
  ∧ (∀ (s : State) (ld dpa l : Nat), s.on = true → ldLine s ld dpa = some l → s.coh.snoops.any (fun p => p.line == l && (slotsOfLd s ld).contains p.agent) = false → s.coh.conflicts = [] →
    exec (.biconflict ld dpa) s = .next { s with out := .event "BIConflictAck" [ld, dpa] :: s.out })
  ∧ (∀ (s : State) (l : Nat), s.on = true → (dirGet s l).valid = true → exec (.holdWindowEnd l) s = .next ((pump { s with time := max s.time (((dirGet s l).holdEnd * 2 + 4) / 5) }).under s))
  ∧ (∀ (s : State) (l a : Nat) (p : Snp), s.on = true → s.coh.snoops.find? (fun p => p.line == l && p.agent == a && !p.warned) = some p →
    exec (.cohSnoopSlow l a) s = .next ((({ s with time := max s.time (p.since + us (s.fld F.COH_CTL_SNP_WARN)), coh := { s.coh with snoops := s.coh.snoops.map (fun q => if q.line = l ∧ q.agent = a then { q with warned := true } else q) } } : State).notice 0x0503 [l, a]).under s))
  ∧ (∀ s : State, s.on = true → s.tk.num < s.coh.predAt + s.fld F.COH_PRED_DECAY → exec .predDecay s = .next s)
  ∧ (∀ s : State, s.on = true → s.coh.predAt + s.fld F.COH_PRED_DECAY ≤ s.tk.num → exec .predDecay s = .next { s with coh := { s.coh with predAt := s.tk.num, pred := s.coh.pred.foldl (fun m e => smSet (fun _ => 0) m e.1 (e.2 - 1)) s.coh.pred } })
  ∧ (∀ s : State, s.on = true → exec .lostWalkDone s = .next ((s.coh.decls.foldl walkDone s).under s))
  ∧ (∀ (s : State) (i start count : Nat), vendorReady (.ld i) .ten s → ∃ u : State, exec (.lostWrites (.ld i) start count) s = .next (u.under s)
      ∧ u.out = .reply (.ld i) St.ok 0 ((((smGet (fun _ => []) s.coh.recs (ldTenant s i)).drop start).take count).flatMap lostBytes) :: s.out ∧ u.mem = s.mem ∧ u.regs = s.regs ∧ u.coh.dir = s.coh.dir ∧ u.coh.lost = s.coh.lost)
  ∧ (∀ (s : State) (ld dpa tag : Nat) (ms : MetaState), s.on = true → exec (.memRd ld dpa ms tag) s = .next ((pump (acceptLd ld (match ms with | .i => 0x01 | .s => 0x40 | .a => 0x41) dpa tag ms [] s)).under s))
  ∧ (∀ (s : State) (ld dpa tag : Nat) (ms : MetaState) (d : List (Option Byte)), s.on = true → exec (.memWr ld dpa ms tag d) s = .next ((pump (acceptLd ld 0x02 dpa tag ms d s)).under s))
  ∧ (∀ (s : State) (ld dpa tag : Nat), s.on = true → exec (.memInv ld dpa tag) s = .next ((pump (acceptLd ld 0x42 dpa tag .a [] s)).under s))

/-- POST_CUTOFF, POST_CONVERT, CKPT_ASSEMBLY_TIMEOUT, CKPT_ACK_TIMEOUT, CKPT_COPY. -/
def Obligations.ChurnTimersAndCheckpointRows : Prop :=
  (∀ s : State, s.on = true → exec .postCutoff s = .next { s with time := max s.time (postCut s), chrn := { s.chrn with posts := s.chrn.posts.map (fun p => { p with closed := p.over (max s.time (postCut s)) }) } })
  ∧ (∀ (s : State) (t : Nat) (p : Post), s.on = true → s.chrn.posts.find? (fun p => p.tile == t) = some p → exec (.postConvert t) s = .next ((postConvert s p).under s))
  ∧ (∀ (s : State) (t : Nat) (a : Asm), s.on = true → s.chrn.asms.find? (fun a => a.tile == t) = some a → a.tick + s.fld F.CHRN_CKPT_CTL_TIMEOUT ≤ s.tk.num →
    exec (.ckptAssemblyTimeout t) s = .next ((match a.trailer with | some c => ckptReply (asmDrop s t) c St.link (churnPort (t % 16)) | none => asmDrop s t).under s))
  ∧ (∀ (s : State) (rid t : Nat) (x : Step) (k : Ack), s.on = true → ckptStep s rid none = some x → k ∈ x.acks → k.idx = t → k.status = none → (∃ n, k.left = some n ∧ n + s.fld F.CHRN_CKPT_CTL_TIMEOUT + 2 ≤ s.tk.num) → exec (.ckptAckTimeout rid t) s = .next ((ackTile s x t St.link).under s))
  ∧ (∀ (s : State) (i : Nat) (body : List Byte) (ups : List Upset), vendorReady (.ld i) .ten s →
    let x : Step := { id := 0, mb := some (.ld i), tenant := ldTenant s i, kind := 4, cls := 1, inst := 0, body := body, expect := getLE body 8 4, start := s.time }
    let a := stepAdd ((withUps s ups).hold (.ld i)) x
    exec (.ckptCopy (.ld i) body ups) s = .next ((match stepGet a.2 a.1 with | some x => runCkpt a.2 x | none => a.2).under s))

/-- Extents from EXT_ADD to EXT_RELEASED: creation, offers, renewal, grace, expiry, drain and release. -/
def Obligations.ExtentsAreGrantedRenewedFencedAndFreed : Prop :=
  (∀ (s : State) (mb : Mbx) (x : ExtFields) (i : Nat), vendorReady mb .sys s → extAddOk (mbxIn mb s) x = true → (List.range 16384).find? (fun i => (extGet (mbxIn mb s) i).state == 0) = some i →
    let a := mbxIn mb s
    let d := bitOf x.flags 1
    let e : Ext := { state := if d then 1 else 2, zero := bitOf x.flags 0, dcd := d, tenant := x.tenant, gen := (extGet a i).gen, start := x.start, len := x.len, holder := x.holder, rights := x.rights, period := if x.period = 0 then a.fld F.EXT_CTL_PERIOD else x.period, renewed := if d then 0 else a.time, offered := a.time }
    exec (.extAdd mb x) s = .next ((((if d then dcEvent (extSet a i e) i 0 else extSet a i e)).reply mb St.ok (natLe 4 (leaseId i e))).under s))
  ∧ (∀ (s u : State) (mb : Mbx) (lease i : Nat) (ids : List Nat), vendorReady mb .sys s → leaseFor (mbxIn mb s) lease none = some i →
    let a := mbxIn mb s
    let ts := extTiles a (extGet a i)
    ((extGet a i).zero = true → ts.any (collTile a) = false) → lockRuns a .zeroise (tileRuns ts) = (St.ok, ids, u) →
    let f := fence u i u.time false ids none
    exec (.extRevoke mb lease) s = .next (((if (extGet a i).dcd = true then dcEvent f i 2 else f).reply mb St.ok).under s))
  ∧ (∀ (s u : State) (n lease i : Nat) (ids : List Nat), vendorReady (.ld n) .ten s → leaseFor s lease (some (ldReq s (.ld n))) = some i →
    let ts := extTiles s (extGet s i)
    ((extGet s i).zero = true → ts.any (collTile s) = false) → lockRuns s .zeroise (tileRuns ts) = (St.ok, ids, u) →
    exec (.extRelease (.ld n) lease) s = .next (((fence u i u.time false ids none).reply (.ld n) St.ok).under s))
  ∧ (∀ (s u : State) (ld : Nat) (r : DcRange) (e : Nat × Ext) (ids : List Nat), cxlReady (.ld ld) s → (dcdExts s ld 2 ++ dcdExts s ld 3).find? (fun e => r.dpa == extDpa s ld e.2 && r.len == e.2.len) = some e →
    let ts := extTiles s (extGet s e.1)
    ((extGet s e.1).zero = true → ts.any (collTile s) = false) → lockRuns s .zeroise (tileRuns ts) = (St.ok, ids, u) →
    exec (.releaseDc ld r) s = .next (((fence u e.1 u.time false ids (some (.ld ld))).hold (.ld ld)).under s))
  ∧ (∀ (s : State) (ld : Nat) (l : List DcRange), cxlReady (.ld ld) s → (∀ r ∈ l, ∃ e ∈ dcdExts s ld 1, r.dpa = extDpa s ld e.2 ∧ r.len = e.2.len) →
    exec (.addDcResponse ld l) s = .next ((((dcdExts s ld 1).foldl (fun t e => if l.any (fun r => r.dpa == extDpa s ld e.2 && r.len == e.2.len) then extSet t e.1 { e.2 with state := 2, renewed := t.time } else offerLapse t e.1) s).cxl (.ld ld) .success).under s))
  ∧ (∀ (s : State) (i : Nat), s.on = true → (extGet s i).state = 1 →
    exec (.extOfferLapsed i) s = .next (((extSet { s with time := max s.time ((extGet s i).offered + ms (s.fld F.EXT_CTL_OFFER)) } i { gen := (extGet s i).gen }).notice 0x0805 [leaseId i (extGet s i)] (extGet s i).tenant).under s))
  ∧ (∀ (s : State) (n lease seq : Nat), vendorReady (.ld n) .ten s →
    let r := renew s (ldTenant s n) (ldReq s (.ld n)) lease seq
    exec (.leaseRenew (.ld n) lease seq) s = .next ((r.2.reply (.ld n) r.1.1 (natLe 1 r.1.1 ++ natLe 3 0 ++ natLe 4 r.1.2.1 ++ natLe 8 r.1.2.2)).under s))
  ∧ (∀ (s : State) (i : Nat), s.on = true → (extGet s i).state = 2 →
    let x := extGet s i
    exec (.extGrace i) s = .next (((extSet { s with time := max s.time (x.renewed + x.p) } i { x with state := 3 }).notice 0x0801 [leaseId i x] x.tenant none (reqDest { s with time := max s.time (x.renewed + x.p) } x.holder)).under s))
  ∧ (∀ (s : State) (i : Nat), s.on = true → ((extGet s i).state = 2 ∨ (extGet s i).state = 3) → (extGet s i).renewed + 2 * (extGet s i).p ≤ s.tk.start →
    let f := fenceOwn (enterGrace s i) i s.tk.start true
    exec (.leaseExpire i) s = .next ((pump (((reqAgents f (extGet s i).holder).foldl (fun s a => declareLost s a false) f).notice 0x0802 [leaseId i (extGet s i)] (extGet s i).tenant)).under s))
  ∧ (∀ (s : State) (i : Nat), s.on = true → (extGet s i).state = 4 → extDrained s i = true →
    let t := s.put F.EXT_DRAIN_LONGEST_CYCLES (max (s.fld F.EXT_DRAIN_LONGEST_CYCLES) (min (s.time - (extGet s i).fence) 25000))
    exec (.extDrainDone i) s = .next ((extSet t i { extGet s i with state := 5 }).under s))
  ∧ (∀ (s : State) (i : Nat), s.on = true → (extGet s i).state = 4 →
    let a : State := { s with time := max s.time ((extGet s i).fence + 25000) }
    extDrained a i = false →
    let m := fun (p : Snp) => (extTiles a (extGet s i)).contains (lineTile p.line) && (reqAgents a (extGet s i).holder).contains p.agent
    let b := (a.coh.snoops.filter m).foldl (fun s p => lostEntry s p.agent false p.line) a
    let d := (holderLines b (extGet s i)).foldl (fun u l => (reqAgents u (extGet s i).holder).foldl (fun u a => lostEntry u a false l) u) b
    let c := cutQueued ((d.reqs.filter (fun r => r.ext == some i)).foldl (fun s r => cutReq s r St.lease) d) (fun p => p.ext == some i) St.lease
    exec (.extDrainCut i) s = .next ((drainEnd (pump (c.notice 0x0806 [leaseId i (extGet s i)] (extGet s i).tenant)) i).under s))
  ∧ (∀ (s : State) (i : Nat), s.on = true → (extGet s i).state = 5 → (extGet s i).locks.any (fun id => s.st.locks.any (fun l => l.id == id && !l.held)) = false →
    ((extGet s i).zero = true → zeroWaits s i (extGet s i) = false ∧ zeroLines s i (extGet s i) = []) →
    let x := extGet s i
    let a := (extSet (x.locks.foldl lockDrop (if x.zero then zeroExt s i else s)) i { gen := (x.gen + 1) % 2 ^ 18 }).notice 0x0804 [leaseId i x] x.tenant
    exec (.extReleased i) s = .next ((rejoinAll (match x.mb with
      | some mb => { (a.cxl mb .success) with host := { a.host with busy := a.host.busy.filter (· != mbxKey mb) } }
      | none => a)).under s))
  ∧ (∀ (s : State) (i : Nat), s.on = true → (extGet s i).state = 5 → (extGet s i).locks.any (fun id => s.st.locks.any (fun l => l.id == id && !l.held)) = false → (extGet s i).zero = true → zeroWaits s i (extGet s i) = false → zeroLines s i (extGet s i) ≠ [] →
    exec (.extReleased i) s = .next ((backInvalidate s (zeroLines s i (extGet s i))).under s))

/-- COMP_SET and COMP_CLEAR keep the change for the next boundary; HANDOVER starts one. -/
def Obligations.CompositionEntriesChangeAtABoundary : Prop :=
  (∀ (s : State) (mb : Mbx) (i : Nat) (d : List Byte), vendorReady mb .sys s → compOk (mbxIn mb s) i (pieceImage d) d = true → (pieceGet s i).state ≠ 2 →
    let a := mbxIn mb s
    exec (.compSet mb i d) s = .next ((({ a with ext := { a.ext with next := a.ext.next.filter (fun e => e.1 != i) ++ [(i, pieceImage d)] } } : State).reply mb St.ok).under s))
  ∧ (∀ (s : State) (mb : Mbx) (i : Nat), vendorReady mb .sys s → i < 65536 → (pieceGet s i).state ≠ 2 →
    let a := mbxIn mb s
    exec (.compClear mb i) s = .next ((({ a with ext := { a.ext with next := a.ext.next.filter (fun e => e.1 != i) ++ [(i, {})] } } : State).reply mb St.ok).under s))
  ∧ (∀ (s : State) (mb : Mbx) (i o tg va ck : Nat), vendorReady mb .sys s → i < 65536 → (pieceGet s i).state ≠ 0 → (pieceGet s i).home = true → o < 4096 → tg < 0xFFFF → va + 65536 * ((pieceGet s i).tiles - 1) < 2 ^ 52 →
    s.ext.pieces.any (fun e => e.2.tenant == (pieceGet s i).tenant && e.2.home && e.2.state == 2) = false → s.ext.next.any (fun e => e.1 == i) = false →
    let a := mbxIn mb s
    let x := pieceGet s i
    let b := hoSet (pieceSet a i { x with state := 2, hoSeq := (x.hoSeq + 1) % 2 ^ 32, newVa := va, newOwner := o, newTag := tg, ckpt := ck, hoStart := a.time }) { idx := i }
    exec (.handover mb i o tg va ck) s = .next ((([x.owner, o].eraseDups.foldl (fun s h => hoSend s i h 0x01 0 (epochOf s x.tenant) o 0) b).reply mb St.ok).under s))

/-- HO_BEGIN, HO_READY, HO_RELEASE, HO_COMMIT, HO_REVERT, OWN_QUERY and OWN_ANSWER are taken once and acknowledged. -/
def Obligations.HandOverMessagesAreTakenAndAcknowledged : Prop :=
  let rows : List ((Nat → Cell → Instr) × Nat × (Cell → State → State)) :=
    [(.hoBegin, 0x01, hoBegin), (.hoReady, 0x02, hoReady), (.hoRelease, 0x03, hoRelease), (.hoCommit, 0x04, hoCommit), (.hoRevert, 0x05, hoReverted), (.ownQuery, 0x06, ownQuery), (.ownAnswer, 0x07, ownAnswer)]
  (∀ r ∈ rows, ∀ (s u : State) (inp : Nat) (c a : Cell), cellHere s inp c a u → isMsg 0x2E05C900000 r.2.1 a = true →
    exec (r.1 inp c) s = .next ((giveBack (respond (r.2.2 a u) a 0x12 St.ok 0 []) inp a.vn).under s))
  ∧ (∀ (s : State) (c : Cell), applied s c = true → hoBegin c s = s ∧ hoReady c s = s ∧ hoRelease c s = s ∧ hoCommit c s = s ∧ hoReverted c s = s)
  ∧ (∀ (s : State) (c : Cell) (i : Nat) (x : Piece), applied s c = false → pieceOfMsg s c = some (i, x) → (hoGet s i).begun = false → (x.owner = s.hubId ∨ getLE c.payload 14 2 = s.hubId) →
    let y : Piece := { x with state := 2, hoSeq := getLE c.payload 8 4, newOwner := getLE c.payload 14 2, newVa := getLE c.payload 24 8, newTag := getLE c.payload 32 2, ckpt := getLE c.payload 36 4, hoStart := if x.home then x.hoStart else s.time }
    let t := hoSet (pieceSet s i y) { hoGet s i with begun := true }
    hoBegin c s = if y.newOwner = t.hubId then hoSend t i (recOf t i y).1 0x02 (readyStatus t y) 0 y.newOwner 0 else t)
  ∧ (∀ (s : State) (c : Cell) (i : Nat) (x : Piece), applied s c = false → pieceOfMsg s c = some (i, x) → x.home = true → x.state = 2 → x.hoSeq = getLE c.payload 8 4 → (hoGet s i).commit = none →
    hoReady c s = hoDecide (hoSet s { hoGet s i with ready := some (getLE c.payload 1 1) }) i ∧ hoRelease c s = hoDecide (hoSet s { hoGet s i with release := some (getLE c.payload 1 1) }) i)
  ∧ (∀ (s : State) (c : Cell) (i : Nat) (x : Piece), applied s c = false → pieceOfMsg s c = some (i, x) →
    let k := getLE c.payload 16 6
    let e := getLE c.payload 12 2
    let t := pieceSet s i { x with hoSeq := getLE c.payload 8 4, newOwner := getLE c.payload 14 2, newVa := getLE c.payload 24 8, newTag := getLE c.payload 32 2 }
    (t.tk.num < k → hoCommit c s = hoSet t { hoGet t i with commit := some (k, e) })
    ∧ (k ≤ t.tk.num → hoCommit c s = pump (((epochAdvance (commitPiece t i e) x.tenant e (recOf t i x).1 k).bump F.EXT_HO_LATE).notice 0x0813 [] x.tenant)))
  ∧ (∀ (s : State) (c : Cell) (i : Nat) (x : Piece), applied s c = false → pieceOfMsg s c = some (i, x) → x.state = 2 → x.hoSeq = getLE c.payload 8 4 → hoReverted c s = pump (hoDone (pieceSet s i { pieceGet s i with state := 1 }) i))
  ∧ (∀ (s : State) (c : Cell) (i : Nat) (x : Piece), pieceOfMsg s c = some (i, x) → x.home = true →
    ((hoGet s i).commit = none → x.state = 2 → ownQuery c s = hoSend s i c.src 0x07 St.busy 0 x.owner 0)
    ∧ (∀ k e, (hoGet s i).commit = some (k, e) → x.state = 2 → ownQuery c s = hoSend s i c.src 0x07 St.ok e x.newOwner k)
    ∧ (x.state ≠ 2 → ownQuery c s = hoSend s i c.src 0x07 St.ok (epochOf s x.tenant) x.owner 0))
  ∧ (∀ (s : State) (c : Cell) (i : Nat) (x : Piece), pieceOfMsg s c = some (i, x) → getLE c.payload 1 1 = St.ok → ownAnswer c s = if getLE c.payload 14 2 = x.owner then hoReverted c s else hoCommit c s)

/-- HO_RELEASE_CHECK, HO_TIMEOUT, OWN_QUERY_TIMER, COMP_NO_OWNER, HO_MESSAGE_RETRY. -/
def Obligations.HandOverTimersAndHeldRequests : Prop :=
  (∀ (s : State) (i : Nat), s.on = true → (pieceGet s i).state = 2 → (pieceGet s i).owner = s.hubId → (hoGet s i).begun = true → (hoGet s i).released = false → pieceDrained s (pieceGet s i) = true →
    exec (.hoReleaseCheck i) s = .next ((hoSend (hoSet s { hoGet s i with released := true }) i (recOf s i (pieceGet s i)).1 0x03 (releaseStatus s (pieceGet s i)) 0 (pieceGet s i).newOwner 0).under s))
  ∧ (∀ (s : State) (i : Nat), s.on = true → (pieceGet s i).home = true → (pieceGet s i).state = 2 → (hoGet s i).commit = none →
    exec (.hoTimeout i) s = .next ((hoRevert { s with time := max s.time ((pieceGet s i).hoStart + 250000), free := s.free + 1 } i (Config.freeNat s.free)).under s))
  ∧ (∀ (s : State) (i : Nat) (r : Req), s.on = true → s.reqs.find? (fun r => r.wait == .piece i) = some r → (pieceGet s i).state = 2 → (hoGet s i).commit.isNone = true →
    let a : State := { s with time := max s.time ((hoGet s i).asked.getD r.time + us (s.fld F.EXT_COMP_CTL_QUERY)) }
    exec (.ownQueryTimer i) s = .next ((hoSend (hoSet a { hoGet s i with asked := some a.time }) i (recOf s i (pieceGet s i)).1 0x06 0 0 0 0).under s))
  ∧ (∀ (s : State) (id i : Nat) (r : Req), s.on = true → s.reqs.find? (fun r => r.id == id) = some r → r.wait = .piece i →
    exec (.compNoOwner id) s = .next ((pump (onceTickTen (cutReq (({ s with time := max s.time (r.time + 500000) } : State).bump F.EXT_NO_OWNER_COUNT) r St.noOwner) 0x0812 i r.ten none [])).under s))
  ∧ (∀ (s : State) (id : Nat) (m : Msg), s.on = true → s.ext.msgs.find? (fun m => m.id == id && !m.herd) = some m →
    exec (.hoMessageRetry id) s = .next ((msgGive { s with time := max s.time (m.sent + us (s.fld F.EXT_COMP_CTL_QUERY)) } m).under s))

/-- HERD_FORM, HERD_ABORT, HERD_CULL, HERD_SCORE_CLEAR, HERD_STATUS, HERD_SHADOW, HERD_REIMAGE, HERD_REBALANCE. -/
def Obligations.HerdCommandsAnswer : Prop :=
  (∀ (s : State) (mb : Mbx) (j id n : Nat), vendorReady mb .sys s → j < 32 → (jobGet s j).state = .admitted → 1 ≤ n → n ≤ (jobGet s j).image.members → (herdSlots s).any (fun k => k != j && (herdGet s k).id == id) = false →
    exec (.herdForm mb j id n) s = .next (((herdSet (mbxIn mb s) j { state := 1, id := id, min := n, members := memberTable s (jobGet s j).image, formed := s.time, halved := s.time }).reply mb St.ok).under s))
  ∧ (∀ (s : State) (mb : Mbx) (j : Nat), vendorReady mb .tenSys s → herdMine (mbxIn mb s) mb j = true → exec (.herdAbort mb j) s = .next (((raiseFault (mbxIn mb s) j St.aborted 5).reply mb St.ok).under s))
  ∧ (∀ (s : State) (mb : Mbx) (j hub : Nat), vendorReady mb .sys s → j < 32 → (herdGet s j).state ≠ 0 → isLeader s (herdGet s j) = true → (memberOf (herdGet s j) hub).isSome = true → mayCull s (herdGet s j) = true →
    exec (.herdCull mb j hub) s = .next (((cull (mbxIn mb s) j hub).reply mb St.ok).under s))
  ∧ (∀ (s : State) (mb : Mbx) (j hub : Nat), vendorReady mb .sys s → j < 32 → (herdGet s j).state ≠ 0 → isLeader s (herdGet s j) = true → (memberOf (herdGet s j) hub).isSome = true →
    exec (.herdScoreClear mb j hub) s = .next (((herdSet (mbxIn mb s) j (setMember (herdGet s j) hub (fun m => { m with score := 0, suspect := false }))).reply mb St.ok).under s))
  ∧ (∀ (s : State) (mb : Mbx) (j : Nat), vendorReady mb .tenSys s → herdMine (mbxIn mb s) mb j = true → let h := herdGet s j
    exec (.herdStatus mb j) s = .next (((mbxIn mb s).reply mb St.ok (natLe 1 h.state ++ natLe 2 (current h).length ++ natLe 4 (h.committed.getD 0) ++ natLe 4 h.inProgress ++ natLe 6 h.lastStop)).under s))
  ∧ (∀ (s u : State) (mb : Mbx) (ten va work id st j : Nat) (g : Image), vendorReady mb .sys s → ten < 512 → work < 4096 → (herdSlots s).any (fun k => (herdGet s k).id == id) = false →
    readImageAs (mbxIn mb s) work ten va reqSys = ((st, some g), u) → idleSlot (mbxIn mb s) = some j →
    let v := herdSet u j { state := 5, id := id, min := 1, members := memberTable u g, work := work, formed := u.time, halved := u.time }
    exec (.herdShadow mb ten va work id) s = .next ((if roomOver (admitJob v j g) = true then clearGo (jobSet (v.hold mb) j { tenant := g.tenant, image := g, holds := true, clearing := some mb }) else (admitJob v j g).reply mb St.ok (natLe 1 j)).under s))
  ∧ (∀ (s u : State) (i j va st : Nat) (g : Image), vendorReady (.ld i) .ten s → herdMine s (.ld i) j = true → (jobGet s j).state = .faulted → (jobGet s j).clearing = none → ((herdGet s j).state ∈ [3, 4] ∨ ((herdGet s j).state = 5 ∧ (herdGet s j).passed = true)) →
    readImage (jobSet s j {}) (ldTenant s i) va (ldReq s (.ld i)) = ((st, some g), u) → namesHerd (jobSet u j (jobGet s j)) (herdGet s j) g = true →
    let t := jobSet (jobSet u j (jobGet s j)) j { jobGet s j with image := g, holds := true, prior := some (jobGet s j).image }
    exec (.herdReimage (.ld i) j va) s = .next ((if roomOver t = true then clearGo (jobSet (t.hold (.ld i)) j { jobGet t j with clearing := some (.ld i) }) else (reimaged t j).reply (.ld i) St.ok).under s))
  ∧ (∀ (s : State) (j : Nat),
    let t := jobSet s j { jobGet s j with clearing := none, prior := none }
    let ms := (memberTable t (jobGet s j).image).map (fun m => match memberOf (herdGet s j) m.hub with | some o => { o with idx := m.idx, restored := none } | none => { m with stopped := true })
    let u := herdSet t j { herdGet s j with state := 1, members := ms, told := none, joining := [], work := 0, matched := 0, passed := false, active := false }
    reimaged s j = if isLeader u (herdGet u j) ∧ u.flag F.HERD_CTL_AUTO then sendRestore u j else u)
  ∧ (∀ (s u : State) (i j partner e pva n dva : Nat) (ids : List Nat), vendorReady (.ld i) .ten s → herdMine s (.ld i) j = true → partner < 4096 → tileVa pva n = true → tileVa dva n = true → 1 ≤ n → n ≤ 65536 →
    let ten := (jobGet s j).tenant
    lockRuns s .rebalance (tileRuns (rangeIds s ten dva n)) = (St.ok, ids, u) →
    let tag := tagOf u ten partner
    let r : Rebal := { job := j, mb := .ld i, locks := ids, epoch := e, partner := partner, tag := tag, partnerVa := pva, dstVa := dva, tiles := n, tick := u.tk.num, left := (List.range n).map (fun i => dva / 65536 + i) }
    exec (.herdRebalance (.ld i) j partner e pva n dva) s = .next ((herdSend { (u.hold (.ld i)) with herd := { u.herd with rebals := u.herd.rebals ++ [r] } } j partner 0x08 0 e 0 pva (n + tag * 2 ^ 32) dva).under s))

/-- BEAT, EPOCH_DONE, EPOCH_COMMIT, RESTART, RESTORED, DIGEST, MEMBERS, RESTORE_REQ and SHADOW_PASSED are applied once. -/
def Obligations.HerdMessagesAreTakenAndAcknowledged : Prop :=
  let rows : List ((Nat → Cell → Instr) × Nat × HerdEff) :=
    [(.beat, 0x01, beatMsg), (.epochDone, 0x02, epochDoneMsg), (.epochCommit, 0x03, epochCommitMsg), (.restart, 0x04, restartMsg), (.restored, 0x05, restoredMsg), (.digest, 0x06, digestMsg), (.members, 0x07, membersMsg),
     (.restoreReq, 0x08, fun s _ c => restoreReq s c), (.shadowPassed, 0x09, shadowPassedMsg)]
  (∀ r ∈ rows, ∀ (s u : State) (inp : Nat) (c a : Cell), cellHere s inp c a u → isMsg herdInbox r.2.1 a = true → slotOfHerd u (getLE a.payload 4 4) = none → exec (r.1 inp c) s = .next ((giveBack (respond u a 0x12 St.ok 0 []) inp a.vn).under s))
  ∧ (∀ r ∈ rows, ∀ (s u : State) (inp j : Nat) (c a : Cell), cellHere s inp c a u → isMsg herdInbox r.2.1 a = true → slotOfHerd u (getLE a.payload 4 4) = some j →
    (getLE a.payload 2 2, getLE a.payload 0 1, getLE a.payload 8 4) ∈ (herdGet u j).applied → exec (r.1 inp c) s = .next ((giveBack (respond u a 0x12 St.ok 0 []) inp a.vn).under s))
  ∧ (∀ r ∈ rows, ∀ (s u : State) (inp j : Nat) (c a : Cell), cellHere s inp c a u → isMsg herdInbox r.2.1 a = true → slotOfHerd u (getLE a.payload 4 4) = some j →
    let key := (getLE a.payload 2 2, getLE a.payload 0 1, getLE a.payload 8 4)
    key ∉ (herdGet u j).applied → let e := r.2.2 u j a
    let v := if e.1 = St.ok ∧ hasHerd e.2 j then herdSet e.2 j { (herdGet e.2 j) with applied := key :: (herdGet e.2 j).applied } else e.2
    exec (r.1 inp c) s = .next ((giveBack (respond v a 0x12 e.1 0 []) inp a.vn).under s))
  ∧ (∀ (s : State) (j : Nat) (c : Cell), beatMsg s j c = (St.ok, herdAdvance (herdSet s j (setMember (herdGet s j) (getLE c.payload 2 2) (fun m => { m with beat := s.tk.num, stopped := m.stopped || bitOf (getLE c.payload 1 1) 0 }))) j)
    ∧ epochDoneMsg s j c = (St.ok, herdSet s j (setMember (herdGet s j) (getLE c.payload 2 2) (fun m => { m with done := some (getLE c.payload 12 4) }))) ∧ epochCommitMsg s j c = (St.ok, commitEpoch s j (getLE c.payload 12 4)))
  ∧ (∀ (s : State) (j : Nat) (c : Cell), ((herdGet s j).state = 3 ∨ (herdGet s j).state = 4 → restartMsg s j c = (St.busy, s))
    ∧ ((herdGet s j).state ∉ [3, 4, 5] → (jobGet s j).state ≠ .faulted → restartMsg s j c = (St.ok, s))
    ∧ ((herdGet s j).state ∉ [3, 4, 5] → (jobGet s j).state = .faulted → getLE c.payload 16 6 = 0 → getLE c.payload 24 8 ≠ 0 → restartMsg s j c = (St.ok, startRestore (commitEpoch s j (getLE c.payload 12 4)) j (getLE c.payload 12 4) (getLE c.payload 24 8)))
    ∧ ((herdGet s j).state ∉ [3, 4, 5] → (jobGet s j).state = .faulted → getLE c.payload 16 6 ≠ 0 →
      let a := armJob s j (getLE c.payload 16 6) (getLE c.payload 24 8)
      let b := herdSet a j { (herdGet a j) with active := false, stop := none, matched := 0, digestWait := 0, copies := [], members := (herdGet a j).members.map (fun m => { m with stopped := false, restored := none, beat := a.tk.num }) }
      let d := herdSet { b with free := b.free + 1 } j { (herdGet b j) with shadower := Config.shadower b.free }
      restartMsg s j c = (St.ok, herdNote (d.bump (F.HERD_COUNT_RESTARTS j)) j 0x0902 [getLE c.payload 12 4, getLE c.payload 24 8, getLE c.payload 16 6])))
  ∧ (∀ (s : State) (j : Nat) (c : Cell), (memberOf (setMember (herdGet s j) (getLE c.payload 2 2) (fun m => { m with restored := some (getLE c.payload 1 1) })) (getLE c.payload 2 2)).isSome = true → getLE c.payload 1 1 ≠ St.ok →
    restoredMsg s j c = (St.ok, dataLost (herdSet s j (setMember (herdGet s j) (getLE c.payload 2 2) (fun m => { m with restored := some (getLE c.payload 1 1) }))) j))
  ∧ (∀ (s : State) (j : Nat) (c : Cell), getLE c.payload 1 1 = St.ok → let h := setMember (herdGet s j) (getLE c.payload 2 2) (fun m => { m with restored := some St.ok })
    (memberOf h (getLE c.payload 2 2)).isSome = true → isLeader (herdSet s j h) h = true → restoredMsg s j c = (St.ok, if (current h).all (fun m => m.restored == some St.ok) = true then sendArm (herdSet s j h) j else herdSet s j h))
  ∧ (∀ (s : State) (j : Nat) (c : Cell), (herdGet s j).active = true → getLE c.payload 2 2 = (herdGet s j).work → getLE c.payload 16 6 = (herdGet s j).digest.1 → (getLE c.payload 24 8, getLE c.payload 32 8) ≠ (herdGet s j).digest.2 → digestMsg s j c = (St.ok, shadowFail s j))
  ∧ (∀ (s : State) (j : Nat) (c : Cell), (jobGet s j).state ≠ .faulted → membersMsg s j c = (St.ok, herdSet s j { herdGet s j with told := some (getLE c.payload 24 8) }))
  ∧ (∀ (s : State) (j : Nat) (c : Cell), isLeader s (herdGet s j) = true → shadowPassedMsg s j c = (St.ok, herdSet s j { herdGet s j with joining := (getLE c.payload 2 2 :: (herdGet s j).joining).eraseDups }))
  ∧ (∀ (s : State) (c : Cell), (s.xlt.wins.map Prod.snd).find? (fun w => w.en && w.src == getLE c.payload 2 2 && w.tag == bits (getLE c.payload 32 8) 47 32) = none → restoreReq s c = (St.window, s))

/-- BEAT_SEND, MEMBER_LOST, SCORE_DECAY, CULL_BUDGET_EXPIRE, RESTORE_COMPLETE, DIGEST_MISSING, HERD_MESSAGE_RETRY. -/
def Obligations.HerdTimersAndLiveness : Prop :=
  (∀ s : State, s.on = true → s.herd.beatAt + s.fld F.HERD_CTL_BEAT ≤ s.tk.num → exec .beatSend s = .next (((herdSlots s).foldl sendBeat { s with herd := { s.herd with beatAt := s.tk.num } }).under s))
  ∧ (∀ s : State, s.on = true → s.tk.num < s.herd.beatAt + s.fld F.HERD_CTL_BEAT → exec .beatSend s = .next s)
  ∧ (∀ (s : State) (j hub : Nat) (m : Member), s.on = true → (herdGet s j).state ≠ 0 → (beatFrom s (herdGet s j)).find? (fun m => m.hub == hub) = some m → m.beat + 3 * s.fld F.HERD_CTL_BEAT ≤ s.tk.num →
    exec (.memberLost j hub) s = .next (((herdSlots s).foldl (fun s j => loseMember s j hub) s).under s))
  ∧ (∀ (s : State) (n : Nat), s.on = true → earliest ((herdSlots s).map (decayEnd s)) = some n →
    let a : State := { s with time := max s.time n }
    exec .scoreDecay s = .next ((((herdSlots s).filter (fun j => decayEnd s j ≤ max s.time n)).foldl (fun s j => herdSet s j { herdGet s j with halved := decayEnd s j, members := (herdGet s j).members.map (fun m => { m with score := m.score / 2, suspect := m.suspect && decide (s.fld F.HERD_CULL_THRESH ≤ m.score / 2) }) }) a).under s))
  ∧ (∀ (s : State) (c : Nat), s.on = true → earliest ((herdSlots s).flatMap (fun j => (herdGet s j).culls)) = some c →
    let n := max s.time (c + 1800000000000)
    exec .cullBudgetExpire s = .next (((herdSlots s).foldl (fun u j => herdSet u j { herdGet u j with culls := (herdGet u j).culls.filter (fun c => u.time < c + 1800000000000) }) { s with time := n }).under s))
  ∧ (∀ (s : State) (j e : Nat), s.on = true → s.damp.forced = false → (herdGet s j).restore = some e → (herdGet s j).restoreSt = none → (herdGet s j).wanted = [] →
    exec (.restoreComplete j) s = .next ((herdSend (herdSet s j { herdGet s j with restore := none, state := if (herdGet s j).state = 5 then 5 else 1 }) j (leaderHub (herdGet s j)) 0x05 St.ok e 0 0 0 0).under s))
  ∧ (∀ (s : State) (j e st : Nat), s.on = true → s.damp.forced = false → (herdGet s j).restore = some e → (herdGet s j).restoreSt = some st →
    exec (.restoreComplete j) s = .next ((herdSend (herdSet s j { herdGet s j with restore := none, wanted := [], restoreSt := none, state := if (herdGet s j).state = 5 then 5 else 4 }) j (leaderHub (herdGet s j)) 0x05 st e 0 0 0 0).under s))
  ∧ (∀ (s : State) (j : Nat), s.on = true → (herdGet s j).active = true → 2 ≤ (herdGet s j).digestWait → exec (.digestMissing j) s = .next ((shadowFail s j).under s))
  ∧ (∀ (s : State) (id : Nat) (m : Msg), s.on = true → s.ext.msgs.find? (fun m => m.id == id && m.herd) = some m → exec (.herdMessageRetry id) s = .next ((msgGive { s with time := max s.time (m.sent + 50000) } m).under s))

/-- The bring-up and recovery events of a port move it as Table 06-1 and R185 to R188 say. -/
def Obligations.PortsAreBroughtUpRecoverAndGoDown : Prop :=
  (∀ (s : State) (n : Nat), s.on = true → n < 26 → (portGet s n).state = .detect → exec (.portDetectDone n) s = .next ((portSet s n { portGet s n with state := .train, since := s.time }).under s))
  ∧ (∀ (s : State) (n : Nat), s.on = true → n < 26 → stageOf (portGet s n) = .train →
    let t := toStage s n .lock
    exec (.portTrainDone n) s = .next (({ t with out := (List.range 8).map (fun l => Emit.block n (laneBlock l 0)) ++ t.out } : State).under s)
    ∧ t = portSet s n (if (portGet s n).state = .recover then { portGet s n with stage := .lock } else { portGet s n with state := .lock, since := s.time }))
  ∧ (∀ (s : State) (n k : Nat), s.on = true → n < 26 → (portGet s n).state = .lock → lanesMissing (portGet s n) = 0 → k ≤ 8 → counterSkew (portGet s n) ≤ 8 →
    let u := grantNow s n
    let t := toStage (portSet u n { portGet u n with lanes := 255, neg := none, negSame := 0, negAcked := false }) n .negotiate
    exec (.portLockDone n k) s = .next (({ t with out := .block n (negBlock t n) :: t.out } : State).under s))
  ∧ (∀ (s : State) (n k : Nat), s.on = true → n < 26 → (portGet s n).state = .recover → (portGet s n).stage = .lock → lanesMissing (portGet s n) = 0 → k ≤ 8 → counterSkew (portGet s n) ≤ 8 →
    let t := toStage (portSet s n { portGet s n with lanes := 255, neg := none, negSame := 0, negAcked := false }) n .negotiate
    exec (.portLockDone n k) s = .next (({ t with out := .block n (negBlock t n) :: t.out } : State).under s))
  ∧ (∀ (s : State) (n k : Nat), s.on = true → n < 26 → stageOf (portGet s n) = .lock → lanesMissing (portGet s n) = 0 → (8 < k ∨ 8 < counterSkew (portGet s n)) → exec (.portLockDone n k) s = .next ((stageFail s n 0x0404 [255]).under s))
  ∧ (∀ (s : State) (n k : Nat), s.on = true → lanesMissing (portGet s n) ≠ 0 → exec (.portLockDone n k) s = .next s)
  ∧ (∀ (s : State) (n : Nat) (g : Neg), s.on = true → n < 26 → (portGet s n).neg = some g → 2 ≤ (portGet s n).negSame → (portGet s n).negAcked = true →
    ((portGet s n).state = .negotiate → exec (.portNegotiateDone n) s = .next ((if peerFits s n g = true then portUpFrom s n g else portFail s n 0x0405 []).under s))
    ∧ ((portGet s n).state = .recover → (portGet s n).stage = .negotiate → exec (.portNegotiateDone n) s = .next ((if peerFits s n g = true then
        resend (portSet s n { ackPort (portGet s n) g.rxNext with state := .up, since := s.time, peer := some g, neg := none, negSame := 0, negAcked := false, nakWait := false }) n else stageFail s n 0x0405 []).under s)))
  ∧ (∀ (s : State) (n l : Nat), s.on = true → n < 26 → (portGet s n).state ∈ [.detect, .train, .lock] →
    let bound := match (portGet s n).state with | .detect => ms 100 | .train => ms 20 | _ => ms 1
    exec (.portStageTimeout n l) s = .next ((portFail { s with time := max s.time ((portGet s n).since + bound) } n 0x0404 [l]).under s))
  ∧ (∀ (s : State) (n l : Nat), s.on = true → n < 26 → (portGet s n).state = .negotiate → exec (.portStageTimeout n l) s = .next ((portFail { s with time := max s.time ((portGet s n).since + ms 1) } n 0x0405 []).under s))
  ∧ (∀ (s : State) (n : Nat), s.on = true → n < 26 → (portGet s n).state = .down → s.flag (F.FAB_PORT_CTL_EN n) = true → mayEnable s n = true →
    exec (.portDownWait n) s = .next ((portEnter { s with time := max s.time ((portGet s n).since + ms 100) } n .detect).under s))
  ∧ (∀ (s : State) (n : Nat), s.on = true → n < 26 → (portGet s n).state = .recover →
    exec (.recoverTimeout n) s = .next ((portLost { s with time := max s.time ((portGet s n).since + ms (s.fld F.FAB_LINK_CTL_HOLD)) } n .down).under s))
  ∧ (∀ (s : State) (n l : Nat), s.on = true → n < 26 → l < 8 → (portGet s n).state = .up →
    exec (.laneLockLost n l) s = .next ((recover ({ s with out := .block n (ctlBlock (natLe 1 0x55)) :: s.out } : State) n).under s)
    ∧ recover s n = (portSet s n { portGet s n with state := .recover, stage := .train, since := s.time, neg := none, negSame := 0, negAcked := false, lanes := 0, lanesSeen := [], naks := [], replay := (portGet s n).replay.map (fun e => (e.1, 0)) }).notice 0x0403 [n])

/-- IDLE, NAK, LANE, NEG and RETRAIN blocks, CELL_CRC_FAIL, NAK_REPEAT, FAB_BAD_CELL and CELL_EGRESS. -/
def Obligations.LinkLayerBlocksAndCells : Prop :=
  let good (b : List Byte) (ty : Nat) : Prop := getLE b 28 4 = crc32c (slice b 0 28) ∧ getLE b 0 1 = ty
  (∀ (s : State) (n : Nat) (b : List Byte), s.on = true → n < 26 → portUp s n = true → good b 0x1E →
    exec (.idleBlock n b) s = .next ((portSet s n { ackPort (portGet s n) (getLE b 1 2 % 4096) with returned := (List.range 4).map (fun v => getLE b (4 + 2 * v) 2) }).under s))
  ∧ (∀ (s : State) (n : Nat) (b : List Byte), s.on = true → n < 26 → portUp s n = true → good b 0x2D →
    let e := getLE b 1 2 % 4096
    let p := ackPort (portGet s n) e
    let naks := s.time :: p.naks.filter (fun t => s.time < t + 500000)
    let t := resend ((portSet s n { p with naks := naks }).bump (F.FAB_PORT_ERR_REPLAYS n)) n
    exec (.nak n b) s = .next ((if (portGet t n).replay.any (fun e => t.fld F.FAB_LINK_CTL_NAK_LIMIT ≤ e.2) = true ∨ 16 ≤ naks.length then recoverOwn t n else t).under s))
  ∧ (∀ (s : State) (n : Nat) (b : List Byte), s.on = true → n < 26 → portUp s n = true → good b 0x55 → exec (.retrain n b) s = .next ((recover s n).under s))
  ∧ (∀ (s : State) (n : Nat) (b : List Byte), s.on = true → n < 26 → stageOf (portGet s n) = .lock → good b 0x33 → getLE b 1 1 < 8 →
    exec (.laneBlock n b) s = .next ((portSet s n { (portGet s n) with lanesSeen := (getLE b 1 1, getLE b 4 4) :: (portGet s n).lanesSeen.filter (fun e => e.1 != getLE b 1 1), lanes := (portGet s n).lanes ||| 2 ^ getLE b 1 1 }).under s))
  ∧ (∀ (s : State) (n : Nat) (b : List Byte) (g : Neg), s.on = true → n < 26 → stageOf (portGet s n) = .negotiate → good b 0x4B → negOf b = some g →
    let p := portGet s n
    let same := match p.neg with | some o => sameNeg o g | none => false
    let t := portSet s n { p with neg := some g, negSame := if same then p.negSame + 1 else 1, negAcked := (same && p.negAcked) || g.acked }
    exec (.negBlock n b) s = .next (({ t with out := .block n (negBlock t n) :: t.out } : State).under s))
  ∧ (∀ (s : State) (n : Nat) (b : List Byte), s.on = true → n < 26 → receiving (portGet s n) = true → getLE b 28 4 ≠ crc32c (slice b 0 28) →
    ∀ i ∈ ([.idleBlock n b, .nak n b, .retrain n b, .laneBlock n b, .negBlock n b] : List Instr), exec i s = .next ((s.bump (F.FAB_PORT_ERR_CRC_ERR n)).under s))
  ∧ (∀ (s : State) (n : Nat), s.on = true → n < 26 → portUp s n = true →
    exec (.cellCrcFail n) s = .next ((sendNak (portSet (s.bump (F.FAB_PORT_ERR_CRC_ERR n)) n { portGet s n with nakWait := true }) n).under s))
  ∧ (∀ (s : State) (n : Nat), s.on = true → n < 26 → portUp s n = true → (portGet s n).nakWait = true → exec (.nakRepeat n) s = .next ((sendNak s n).under s))
  ∧ (∀ (s u : State) (inp : Nat) (c : Cell), s.on = true → ingress s inp c = (none, u) → exec (.fabBadCell inp c) s = .next (u.under s))
  ∧ (∀ (s : State) (q : Nat), s.on = true → q < 26 → portUp s q = true → ((portGet s q).replay.length ≥ 2048 ∨ egressNext s q = none) → exec (.cellEgress q) s = .next { s with out := .block q (idleBlock (portGet s q)) :: s.out })
  ∧ (∀ (s : State) (q : Nat) (x : QCell), s.on = true → q < 26 → portUp s q = true → (portGet s q).replay.length < 2048 → egressNext s q = some x →
    let d := trailerLeft (dequeue s x) x.c
    let g := if gateLate d x = true then (d.bump F.SHP_GATE_LATE_COUNT).onceTick 0x0420 q [q] else d
    let t := if x.c.ty = 0x30 ∧ getLE x.c.payload 0 1 = 2 then { g with tk := { g.tk with delayReq := some (stamp g g.tk.frac) } } else g
    let p := portGet g q
    let c : Cell := { x.c with payload := if x.c.ty = 0x30 then tickOut t x else x.c.payload, ack := p.rxNext, cvn := p.cvn, ccnt := nth4 p.freed p.cvn }
    exec (.cellEgress q) s = .next (((portSet t q { p with txNext := (p.txNext + 1) % 4096, cvn := (p.cvn + 1) % 4, replay := p.replay ++ [(c, 0)], sent := add4 p.sent c.vn 1 }).emit (.cell q c)).under s))

/-- A write of a plain register, raw or by its own row, sets the fields its access codes let it set, and acts. -/
def Obligations.PlainRegisterWritesSetTheirFields : Prop :=
  (∀ (s : State) (p : RegPath) (a : Nat) (h : Half) (v i j new : Nat) (r : RegRow), s.on = true → pathOpen s p = true → (∀ n, p ≠ .bar2 n) → a % 8 = 0 → plainWrite s a h v r i j new →
    exec (.regWrite { path := p, off := if h = .hi then a + 4 else a, size := if h = .whole then 8 else 4, val := v }) s = .next ((writeActs (s.setReg a (BitVec.ofNat 64 new)) r.name i j h).under s))
  ∧ (∀ (s : State) (p : RegPath) (a v i j : Nat) (r : RegRow), s.on = true → pathOpen s p = true → (∀ n, p ≠ .bar2 n) → a % 8 = 0 → regFind a = some (r, i, j) →
    r.name ∉ ["SEC_LOCK", "CLK_RESET", "CLK_RESET_CAUSE", "DAMP_TRIP", "SEC_RNG", "DBG_STATUS", "SEGT_OP", "WIN_OP", "FLT_POP", "FLT_OVF_CLR", "HOST_RING_IDX_i", "HOST_SYSRING_TAIL"] → s.sup.lock = true → r.fields.all (fun f => f.acc == .rwl || f.acc == .ro) = true →
    exec (.regWrite { path := p, off := a, size := 8, val := v }) s = .next s)
  ∧ (∀ (s : State) (p : RegPath) (off size v : Nat), s.on = true → pathOpen s p = true → (∀ n, p ≠ .bar2 n) → ¬ (size = 8 ∧ off % 8 = 0) → ¬ (size = 4 ∧ off % 4 = 0) →
    exec (.regWrite { path := p, off := off, size := size, val := v }) s = .next { s with out := .regBad p off :: s.out })
  ∧ (∀ (s : State) (w : RegW) (n c k g x : Nat), s.on = true → pathOpen s w.path = true → (∀ n, w.path ≠ .bar2 n) →
    ∀ e ∈ ([(.tickTreeWrite w, 0x100028, True), (.tickPeriodWrite w, 0x100000, True), (.tickGuardWrite w, 0x100008, True), (.fabCredInitWrite w, 0x400010, True), (.swxBufWrite w, 0x410010, True), (.dampCapWrite w, 0x040008, True),
      (.portCtlWrite n w, 0x400100 + 8 * n, n < 26), (.swxProfWrite n c w, 0x410100 + 0x20 * n + 8 * c, n < 4 ∧ c < 3), (.shaperWrite n k .cfg w, 0x424000 + 0x200 * n + 0x20 * k, n < 26 ∧ k < 16), (.shaperWrite n k .mtch w, 0x424008 + 0x200 * n + 0x20 * k, n < 26 ∧ k < 16),
      (.meterWrite n .cfg w, 0x42A000 + 0x10 * n, n < 1024), (.meterWrite n .rate w, 0x42A008 + 0x10 * n, n < 1024), (.gateWrite n g x w, 0x428000 + 0x100 * n + 0x20 * g + 8 * x, n < 26 ∧ g < 8 ∧ x < 4),
      (.cohWinWrite n .va w, 0x501010 + 0x20 * n, n < 64), (.cohWinWrite n .agents w, 0x501018 + 0x20 * n, n < 64), (.ringCfgWrite n .base w, 0x700120 + 0x40 * n, n < 16), (.ringCfgWrite n .ctl w, 0x700128 + 0x40 * n, n < 16)] : List (Instr × Nat × Prop)),
      ∀ (r : RegRow) (i j new : Nat), e.2.2 → plainWrite s e.2.1 w.half w.val r i j new → exec e.1 s = .next ((writeActs (s.setReg e.2.1 (BitVec.ofNat 64 new)) r.name i j w.half).under s))
  ∧ (∀ (s : State) (w : RegW) (n i j new : Nat) (r : RegRow) (q : RingReg), s.on = true → n < 16 → w.path = .bar2 n →
    let a := match q with | .base => 0x700120 + 0x40 * n | .ctl => 0x700128 + 0x40 * n
    plainWrite s a w.half w.val r i j new → exec (.ringCfgWrite n q w) s = .next ((writeActs (s.setReg a (BitVec.ofNat 64 new)) r.name i j w.half).under s))

/-- SEC_LOCK, WARM_RESET_REG, the coherent windows' bounds, SEGT and WIN operations, FLT_POP, FLT_OVF_CLR and ring TAIL writes. -/
def Obligations.ActingRegisterWritesAct : Prop :=
  (∀ (s : State) (p : RegPath) (h : Half) (v : Nat), s.on = true → pathOpen s p = true → (∀ n, p ≠ .bar2 n) → h ≠ .hi → v % 2 = 1 →
    (s.sup.lock = false → exec (.secLockWrite { path := p, half := h, val := v }) s = .next ((({ s with sup := { s.sup with lock := true } } : State).notice 0x0B0A).queued s))
    ∧ (s.sup.tripped = false → exec (.warmResetReg { path := p, half := h, val := v }) s = .next (((beginStart s true false 8).emit (.pin "HUB_READY" false)).queued s)))
  ∧ (∀ (s : State) (w : RegW), s.on = true → pathOpen s w.path = true → (∀ n, w.path ≠ .bar2 n) → w.half ≠ .hi →
    (let e := ent3Get s.xlt.segsNext (s.fld F.SEGT_SEL_INDEX)
     exec (.segtRead w) s = .next (((((s.put F.SEGT_WORD0_WORD e.w0).put F.SEGT_WORD1_WORD e.w1).put F.SEGT_WORD2_WORD e.w2).put F.SEGT_OP_RESULT 0).under s))
    ∧ (let r := segWrite s (s.fld F.SEGT_SEL_INDEX) { w0 := s.fld F.SEGT_WORD0_WORD, w1 := s.fld F.SEGT_WORD1_WORD, w2 := s.fld F.SEGT_WORD2_WORD }
       exec (.segtWrite w) s = .next ((r.2.put F.SEGT_OP_RESULT r.1).under s))
    ∧ (let e := ent3Get s.xlt.winsNext (s.fld F.WIN_SEL_INDEX)
       exec (.winRead w) s = .next (((((s.put F.WIN_WORD0_WORD e.w0).put F.WIN_WORD1_WORD e.w1).put F.WIN_WORD2_WORD e.w2).put F.WIN_OP_RESULT 0).under s))
    ∧ (let r := winWrite s (s.fld F.WIN_SEL_INDEX) { w0 := s.fld F.WIN_WORD0_WORD, w1 := s.fld F.WIN_WORD1_WORD, w2 := s.fld F.WIN_WORD2_WORD }
       exec (.winWrite w) s = .next ((r.2.put F.WIN_OP_RESULT r.1).under s))
    ∧ (∀ (e : FltE) (rest : List FltE), (s.put F.FLT_POP_SEQ (halfVal w.half w.val)).xlt.faults = e :: rest → e.seq = halfVal w.half w.val % 2 ^ 32 →
       exec (.fltPop w) s = .next ((((List.range 10).zip (fltWords e)).foldl (fun (s : State) p => s.put (F.FLT_POP_DATA_WORD p.1) p.2) { s.put F.FLT_POP_SEQ (halfVal w.half w.val) with xlt := { s.xlt with faults := rest } }).under s))
    ∧ exec (.fltOvfClr w) s = .next ((ovfSet (s.put F.FLT_OVF_CLR_TENANT (halfVal w.half w.val)) (halfVal w.half w.val % 512) {}).under s))
  ∧ (∀ (s : State) (w : RegW) (n k new : Nat) (q : CohWinReg), s.on = true → pathOpen s w.path = true → (∀ n, w.path ≠ .bar2 n) → n < 64 → q = .base ∨ q = .fin →
    let a := 0x501000 + 0x20 * n + (if q = .fin then 8 else 0)
    let name := if q = .fin then "COH_WIN_END_n" else "COH_WIN_BASE_n"
    ∀ r : RegRow, regFind a = some (r, n, k) → r.name = name → s.sup.lock = false → new = rowWrite s.sup.lock (halfMask w.half) (halfVal w.half w.val) (s.reg a).toNat r.fields → rangeOk s name n k new = true →
    exec (.cohWinWrite n q w) s = .next ((winStore s n (if q = .fin then 1 else 0) a new).under s))
  ∧ (∀ (s : State) (w : RegW) (ld : Nat), s.on = true → w.path = .bar2 ld → ld < 16 → w.half ≠ .lo →
    let tail := halfVal w.half w.val / 2 ^ 32
    let head := s.fld (F.HOST_RING_IDX_HEAD ld)
    (2 ^ s.fld (F.HOST_RING_CTL_SIZE_LOG2 ld) < (head + 2 ^ 32 - tail) % 2 ^ 32 → exec (.ringTailWrite ld w) s = .next ((s.put (F.HOST_RING_STAT_BAD_TAIL ld) 1).under s))
    ∧ ((head + 2 ^ 32 - tail) % 2 ^ 32 ≤ 2 ^ s.fld (F.HOST_RING_CTL_SIZE_LOG2 ld) →
      let t := s.put (F.HOST_RING_IDX_TAIL ld) tail
      exec (.ringTailWrite ld w) s = .next ((if ringCount t ld = 0 then sigSet t ld {} else if ringCount s ld = 0 then ringSignal t ld else t).under s)))
  ∧ (∀ (s : State) (w : RegW), s.on = true → pathOpen s w.path = true → (∀ n, w.path ≠ .bar2 n) → w.half ≠ .hi → 
    let tail := halfVal w.half w.val % 2 ^ 32
    let head := s.fld F.HOST_SYSRING_HEAD_HEAD
    let old := s.fld F.HOST_SYSRING_TAIL_TAIL
    (65536 < (head + 2 ^ 32 - tail) % 2 ^ 32 → exec (.sysringTailWrite w) s = .next (s.under s))
    ∧ ((head + 2 ^ 32 - tail) % 2 ^ 32 ≤ 65536 →
      let t := s.put F.HOST_SYSRING_TAIL_TAIL tail
      exec (.sysringTailWrite w) s = .next ((if old = tail then t else if head = tail then t.emit (.pin "SB_ALERT_N" true) else if head = old then t.emit (.pin "SB_ALERT_N" false) else t).under s)))

/-- VT_OPEN, VT_SWITCH, VT_CLOSE, STRN_OPEN, STRN_CLOSE and MUTATION_COMMIT. -/
def Obligations.HandlesOpenSwitchCloseAndCommit : Prop :=
  let held := fun (s : State) (h : Nat) (x : Step) => resLines s x (mutOf x.body) ++ mutLines s x (mutRun x (mutOf x.body) (collGet s h).cr { st := St.ok, img := [], dirty := [], lists := [], s := s }).2
  (∀ (s : State) (i base h : Nat), vendorReady (.ld i) .priv s → base % 65536 = 0 → base < 2 ^ 52 → (List.range 256).find? (fun h => !(vtGet s h).isOpen) = some h →
    exec (.vtOpen (.ld i) base) s = .next (((vtSet s h { isOpen := true, tenant := ldTenant s i, cur := base }).reply (.ld i) St.ok (natLe 2 h)).under s))
  ∧ (∀ (s : State) (i h base : Nat), vendorReady (.ld i) .priv s → vtMine s (.ld i) h = true → base % 65536 = 0 → base < 2 ^ 52 → (vtGet s h).next = none → (vtGet s h).old = none →
    exec (.vtSwitch (.ld i) h base) s = .next (((vtSet s h { vtGet s h with next := some base }).reply (.ld i) St.ok).under s))
  ∧ (∀ (s : State) (i h : Nat), vendorReady (.ld i) .priv s → vtMine s (.ld i) h = true → vtSteps s h = 0 → exec (.vtClose (.ld i) h) s = .next (((vtSet s h {}).reply (.ld i) St.ok).under s))
  ∧ (∀ (s : State) (i va h : Nat) (ups : List Upset), vendorReady (.ld i) .ten s →
    let x := cmdStep (ldTenant s i)
    let a := snapBytes x none { st := St.ok, cache := [], s := withUps s ups } va 64
    let c := collRec a.1
    let b := areaBytes x a.2 c.ctab (8 * c.ncent)
    let u := b.2.s
    let runs := c.areas.flatMap (fun a => tileRuns (rangeIds u x.tenant a.1 a.2))
    a.2.st = St.ok → c.ok = true → b.2.st = St.ok → listsOk c (listsOf c b.1) = true → u.hnd.colls.any (fun e => e.2.taken && e.2.areas.any (fun a => runs.any (fun b => overlaps a.1 a.2 b.1 b.2))) = false →
    (List.range 64).any (fun n => u.flag (F.COH_WIN_BASE_EN n) && runs.any (fun b => overlaps b.1 b.2 (u.fld (F.COH_WIN_BASE_BASE n)) (u.fld (F.COH_WIN_END_END n) - u.fld (F.COH_WIN_BASE_BASE n)))) = false →
    (c.areas.flatMap (fun a => (List.range a.2).map (fun i => (xlate u x.tenant (a.1 + 65536 * i) Need.r none).1))).find? (· != St.ok) = none → (List.range 64).find? (fun h => !(collGet u h).taken) = some h →
    exec (.strnOpen (.ld i) va ups) s = .next (((collSet u h { taken := true, pend := true, tenant := ldTenant s i, va := va, cr := c, areas := runs }).reply (.ld i) St.ok (natLe 2 h)).under s))
  ∧ (∀ (s : State) (i h : Nat), vendorReady (.ld i) .ten s → h < 64 → (collGet s h).taken = true → (collGet s h).tenant = ldTenant s i → (collGet s h).pend = false → collBound s h = 0 →
    exec (.strnClose (.ld i) h) s = .next (((collSet s h { collGet s h with pend := true }).reply (.ld i) St.ok).under s))
  ∧ (∀ (s : State) (h : Nat), s.on = true → nextMut s h = none → exec (.mutationCommit h) s = .next s)
  ∧ (∀ (s : State) (h : Nat) (x : Step), s.on = true → nextMut s h = some x → held s h x ≠ [] → exec (.mutationCommit h) s = .next ((backInvalidate s (held s h x)).under s))
  ∧ (∀ (s : State) (h : Nat) (x : Step), s.on = true → nextMut s h = some x → held s h x = [] → exec (.mutationCommit h) s = .next ((orLater (commitMut h x) id s).under s))
  ∧ (∀ (s : State) (h : Nat) (x : Step),
    let r := mutRun x (mutOf x.body) (collGet s h).cr { st := St.ok, img := [], dirty := [], lists := [], s := s }
    let m := mutCommit x r.2
    let u := if x.kind = 0x23 then collSet m.2 h { collGet m.2 h with warned := if (mutOf x.body).count = 0xFFFFFFFF then [] else (collGet m.2 h).warned.filter (· != (mutOf x.body).count) } else m.2
    let d := (deadCheck x h (collGet s h).cr { r.2 with s := u }).s
    let e := ((List.range r.1.1.length).zip r.1.1).foldl (fun (q : Nat × State) e => let a := resStore x q.2 ((mutOf x.body).res + 4 * e.1) e.2; (if q.1 = St.ok then a.1 else q.1, a.2)) (r.1.2, d)
    commitMut h x s = (if r.2.st ≠ St.ok then stepFail r.2.s x r.2.st 1 else if m.1 ≠ St.ok then stepFail m.2 x m.1 1 else match stepGet e.2 x.id with
      | some y => stepPut e.2 { y with done := true, status := e.1 }
      | none => e.2))
end

