-- ==== Sys2Proof/Laws/State.lean ====
section
/-! SUPPORT. Laws/State.lean: what each update of the state leaves as it was, one lemma per field. -/

namespace Sys2Proof.Laws

open Sys2Proof Sys2Proof.Machine

variable (s : State)

/-! ### setReg -/

@[simp] theorem setReg_pending (a : Nat) (v : BitVec 64) : (s.setReg a v).pending = s.pending := rfl
@[simp] theorem setReg_time (a : Nat) (v : BitVec 64) : (s.setReg a v).time = s.time := rfl
@[simp] theorem setReg_free (a : Nat) (v : BitVec 64) : (s.setReg a v).free = s.free := rfl
@[simp] theorem setReg_mem (a : Nat) (v : BitVec 64) : (s.setReg a v).mem = s.mem := rfl
@[simp] theorem setReg_resv (a : Nat) (v : BitVec 64) : (s.setReg a v).resv = s.resv := rfl
@[simp] theorem setReg_out (a : Nat) (v : BitVec 64) : (s.setReg a v).out = s.out := rfl
@[simp] theorem setReg_sup (a : Nat) (v : BitVec 64) : (s.setReg a v).sup = s.sup := rfl
@[simp] theorem setReg_tk (a : Nat) (v : BitVec 64) : (s.setReg a v).tk = s.tk := rfl
@[simp] theorem setReg_seq (a : Nat) (v : BitVec 64) : (s.setReg a v).seq = s.seq := rfl
@[simp] theorem setReg_st (a : Nat) (v : BitVec 64) : (s.setReg a v).st = s.st := rfl
@[simp] theorem setReg_fab (a : Nat) (v : BitVec 64) : (s.setReg a v).fab = s.fab := rfl
@[simp] theorem setReg_xlt (a : Nat) (v : BitVec 64) : (s.setReg a v).xlt = s.xlt := rfl
@[simp] theorem setReg_host (a : Nat) (v : BitVec 64) : (s.setReg a v).host = s.host := rfl
@[simp] theorem setReg_damp (a : Nat) (v : BitVec 64) : (s.setReg a v).damp = s.damp := rfl
@[simp] theorem setReg_reqs (a : Nat) (v : BitVec 64) : (s.setReg a v).reqs = s.reqs := rfl
@[simp] theorem setReg_nextReq (a : Nat) (v : BitVec 64) : (s.setReg a v).nextReq = s.nextReq := rfl
@[simp] theorem setReg_coh (a : Nat) (v : BitVec 64) : (s.setReg a v).coh = s.coh := rfl
@[simp] theorem setReg_ext (a : Nat) (v : BitVec 64) : (s.setReg a v).ext = s.ext := rfl
@[simp] theorem setReg_chrn (a : Nat) (v : BitVec 64) : (s.setReg a v).chrn = s.chrn := rfl
@[simp] theorem setReg_herd (a : Nat) (v : BitVec 64) : (s.setReg a v).herd = s.herd := rfl
@[simp] theorem setReg_hnd (a : Nat) (v : BitVec 64) : (s.setReg a v).hnd = s.hnd := rfl

/-! ### put -/

@[simp] theorem put_pending (f : Fld) (v : Nat) : (s.put f v).pending = s.pending := rfl
@[simp] theorem put_time (f : Fld) (v : Nat) : (s.put f v).time = s.time := rfl
@[simp] theorem put_free (f : Fld) (v : Nat) : (s.put f v).free = s.free := rfl
@[simp] theorem put_mem (f : Fld) (v : Nat) : (s.put f v).mem = s.mem := rfl
@[simp] theorem put_resv (f : Fld) (v : Nat) : (s.put f v).resv = s.resv := rfl
@[simp] theorem put_out (f : Fld) (v : Nat) : (s.put f v).out = s.out := rfl
@[simp] theorem put_sup (f : Fld) (v : Nat) : (s.put f v).sup = s.sup := rfl
@[simp] theorem put_tk (f : Fld) (v : Nat) : (s.put f v).tk = s.tk := rfl
@[simp] theorem put_seq (f : Fld) (v : Nat) : (s.put f v).seq = s.seq := rfl
@[simp] theorem put_st (f : Fld) (v : Nat) : (s.put f v).st = s.st := rfl
@[simp] theorem put_fab (f : Fld) (v : Nat) : (s.put f v).fab = s.fab := rfl
@[simp] theorem put_xlt (f : Fld) (v : Nat) : (s.put f v).xlt = s.xlt := rfl
@[simp] theorem put_host (f : Fld) (v : Nat) : (s.put f v).host = s.host := rfl
@[simp] theorem put_damp (f : Fld) (v : Nat) : (s.put f v).damp = s.damp := rfl
@[simp] theorem put_reqs (f : Fld) (v : Nat) : (s.put f v).reqs = s.reqs := rfl
@[simp] theorem put_nextReq (f : Fld) (v : Nat) : (s.put f v).nextReq = s.nextReq := rfl
@[simp] theorem put_coh (f : Fld) (v : Nat) : (s.put f v).coh = s.coh := rfl
@[simp] theorem put_ext (f : Fld) (v : Nat) : (s.put f v).ext = s.ext := rfl
@[simp] theorem put_chrn (f : Fld) (v : Nat) : (s.put f v).chrn = s.chrn := rfl
@[simp] theorem put_herd (f : Fld) (v : Nat) : (s.put f v).herd = s.herd := rfl
@[simp] theorem put_hnd (f : Fld) (v : Nat) : (s.put f v).hnd = s.hnd := rfl

/-! ### bump -/

@[simp] theorem bump_pending (f : Fld) (n : Nat) : (s.bump f n).pending = s.pending := rfl
@[simp] theorem bump_time (f : Fld) (n : Nat) : (s.bump f n).time = s.time := rfl
@[simp] theorem bump_free (f : Fld) (n : Nat) : (s.bump f n).free = s.free := rfl
@[simp] theorem bump_mem (f : Fld) (n : Nat) : (s.bump f n).mem = s.mem := rfl
@[simp] theorem bump_resv (f : Fld) (n : Nat) : (s.bump f n).resv = s.resv := rfl
@[simp] theorem bump_out (f : Fld) (n : Nat) : (s.bump f n).out = s.out := rfl
@[simp] theorem bump_sup (f : Fld) (n : Nat) : (s.bump f n).sup = s.sup := rfl
@[simp] theorem bump_tk (f : Fld) (n : Nat) : (s.bump f n).tk = s.tk := rfl
@[simp] theorem bump_seq (f : Fld) (n : Nat) : (s.bump f n).seq = s.seq := rfl
@[simp] theorem bump_st (f : Fld) (n : Nat) : (s.bump f n).st = s.st := rfl
@[simp] theorem bump_fab (f : Fld) (n : Nat) : (s.bump f n).fab = s.fab := rfl
@[simp] theorem bump_xlt (f : Fld) (n : Nat) : (s.bump f n).xlt = s.xlt := rfl
@[simp] theorem bump_host (f : Fld) (n : Nat) : (s.bump f n).host = s.host := rfl
@[simp] theorem bump_damp (f : Fld) (n : Nat) : (s.bump f n).damp = s.damp := rfl
@[simp] theorem bump_reqs (f : Fld) (n : Nat) : (s.bump f n).reqs = s.reqs := rfl
@[simp] theorem bump_nextReq (f : Fld) (n : Nat) : (s.bump f n).nextReq = s.nextReq := rfl
@[simp] theorem bump_coh (f : Fld) (n : Nat) : (s.bump f n).coh = s.coh := rfl
@[simp] theorem bump_ext (f : Fld) (n : Nat) : (s.bump f n).ext = s.ext := rfl
@[simp] theorem bump_chrn (f : Fld) (n : Nat) : (s.bump f n).chrn = s.chrn := rfl
@[simp] theorem bump_herd (f : Fld) (n : Nat) : (s.bump f n).herd = s.herd := rfl
@[simp] theorem bump_hnd (f : Fld) (n : Nat) : (s.bump f n).hnd = s.hnd := rfl

/-! ### slotWrite -/

@[simp] theorem slotWrite_pending (l o : Nat) (d : List Byte) : (s.slotWrite l o d).pending = s.pending := rfl
@[simp] theorem slotWrite_time (l o : Nat) (d : List Byte) : (s.slotWrite l o d).time = s.time := rfl
@[simp] theorem slotWrite_free (l o : Nat) (d : List Byte) : (s.slotWrite l o d).free = s.free := rfl
@[simp] theorem slotWrite_regs (l o : Nat) (d : List Byte) : (s.slotWrite l o d).regs = s.regs := rfl
@[simp] theorem slotWrite_resv (l o : Nat) (d : List Byte) : (s.slotWrite l o d).resv = s.resv := rfl
@[simp] theorem slotWrite_out (l o : Nat) (d : List Byte) : (s.slotWrite l o d).out = s.out := rfl
@[simp] theorem slotWrite_sup (l o : Nat) (d : List Byte) : (s.slotWrite l o d).sup = s.sup := rfl
@[simp] theorem slotWrite_tk (l o : Nat) (d : List Byte) : (s.slotWrite l o d).tk = s.tk := rfl
@[simp] theorem slotWrite_seq (l o : Nat) (d : List Byte) : (s.slotWrite l o d).seq = s.seq := rfl
@[simp] theorem slotWrite_st (l o : Nat) (d : List Byte) : (s.slotWrite l o d).st = s.st := rfl
@[simp] theorem slotWrite_fab (l o : Nat) (d : List Byte) : (s.slotWrite l o d).fab = s.fab := rfl
@[simp] theorem slotWrite_xlt (l o : Nat) (d : List Byte) : (s.slotWrite l o d).xlt = s.xlt := rfl
@[simp] theorem slotWrite_host (l o : Nat) (d : List Byte) : (s.slotWrite l o d).host = s.host := rfl
@[simp] theorem slotWrite_damp (l o : Nat) (d : List Byte) : (s.slotWrite l o d).damp = s.damp := rfl
@[simp] theorem slotWrite_reqs (l o : Nat) (d : List Byte) : (s.slotWrite l o d).reqs = s.reqs := rfl
@[simp] theorem slotWrite_nextReq (l o : Nat) (d : List Byte) : (s.slotWrite l o d).nextReq = s.nextReq := rfl
@[simp] theorem slotWrite_coh (l o : Nat) (d : List Byte) : (s.slotWrite l o d).coh = s.coh := rfl
@[simp] theorem slotWrite_ext (l o : Nat) (d : List Byte) : (s.slotWrite l o d).ext = s.ext := rfl
@[simp] theorem slotWrite_chrn (l o : Nat) (d : List Byte) : (s.slotWrite l o d).chrn = s.chrn := rfl
@[simp] theorem slotWrite_herd (l o : Nat) (d : List Byte) : (s.slotWrite l o d).herd = s.herd := rfl
@[simp] theorem slotWrite_hnd (l o : Nat) (d : List Byte) : (s.slotWrite l o d).hnd = s.hnd := rfl

/-! ### slotZero -/

@[simp] theorem slotZero_pending (l : Nat) : (s.slotZero l).pending = s.pending := rfl
@[simp] theorem slotZero_time (l : Nat) : (s.slotZero l).time = s.time := rfl
@[simp] theorem slotZero_free (l : Nat) : (s.slotZero l).free = s.free := rfl
@[simp] theorem slotZero_regs (l : Nat) : (s.slotZero l).regs = s.regs := rfl
@[simp] theorem slotZero_resv (l : Nat) : (s.slotZero l).resv = s.resv := rfl
@[simp] theorem slotZero_out (l : Nat) : (s.slotZero l).out = s.out := rfl
@[simp] theorem slotZero_sup (l : Nat) : (s.slotZero l).sup = s.sup := rfl
@[simp] theorem slotZero_tk (l : Nat) : (s.slotZero l).tk = s.tk := rfl
@[simp] theorem slotZero_seq (l : Nat) : (s.slotZero l).seq = s.seq := rfl
@[simp] theorem slotZero_st (l : Nat) : (s.slotZero l).st = s.st := rfl
@[simp] theorem slotZero_fab (l : Nat) : (s.slotZero l).fab = s.fab := rfl
@[simp] theorem slotZero_xlt (l : Nat) : (s.slotZero l).xlt = s.xlt := rfl
@[simp] theorem slotZero_host (l : Nat) : (s.slotZero l).host = s.host := rfl
@[simp] theorem slotZero_damp (l : Nat) : (s.slotZero l).damp = s.damp := rfl
@[simp] theorem slotZero_reqs (l : Nat) : (s.slotZero l).reqs = s.reqs := rfl
@[simp] theorem slotZero_nextReq (l : Nat) : (s.slotZero l).nextReq = s.nextReq := rfl
@[simp] theorem slotZero_coh (l : Nat) : (s.slotZero l).coh = s.coh := rfl
@[simp] theorem slotZero_ext (l : Nat) : (s.slotZero l).ext = s.ext := rfl
@[simp] theorem slotZero_chrn (l : Nat) : (s.slotZero l).chrn = s.chrn := rfl
@[simp] theorem slotZero_herd (l : Nat) : (s.slotZero l).herd = s.herd := rfl
@[simp] theorem slotZero_hnd (l : Nat) : (s.slotZero l).hnd = s.hnd := rfl

/-! ### resvWrite -/

@[simp] theorem resvWrite_pending (a : Nat) (d : List Byte) : (s.resvWrite a d).pending = s.pending := rfl
@[simp] theorem resvWrite_time (a : Nat) (d : List Byte) : (s.resvWrite a d).time = s.time := rfl
@[simp] theorem resvWrite_free (a : Nat) (d : List Byte) : (s.resvWrite a d).free = s.free := rfl
@[simp] theorem resvWrite_regs (a : Nat) (d : List Byte) : (s.resvWrite a d).regs = s.regs := rfl
@[simp] theorem resvWrite_mem (a : Nat) (d : List Byte) : (s.resvWrite a d).mem = s.mem := rfl
@[simp] theorem resvWrite_out (a : Nat) (d : List Byte) : (s.resvWrite a d).out = s.out := rfl
@[simp] theorem resvWrite_sup (a : Nat) (d : List Byte) : (s.resvWrite a d).sup = s.sup := rfl
@[simp] theorem resvWrite_tk (a : Nat) (d : List Byte) : (s.resvWrite a d).tk = s.tk := rfl
@[simp] theorem resvWrite_seq (a : Nat) (d : List Byte) : (s.resvWrite a d).seq = s.seq := rfl
@[simp] theorem resvWrite_st (a : Nat) (d : List Byte) : (s.resvWrite a d).st = s.st := rfl
@[simp] theorem resvWrite_fab (a : Nat) (d : List Byte) : (s.resvWrite a d).fab = s.fab := rfl
@[simp] theorem resvWrite_xlt (a : Nat) (d : List Byte) : (s.resvWrite a d).xlt = s.xlt := rfl
@[simp] theorem resvWrite_host (a : Nat) (d : List Byte) : (s.resvWrite a d).host = s.host := rfl
@[simp] theorem resvWrite_damp (a : Nat) (d : List Byte) : (s.resvWrite a d).damp = s.damp := rfl
@[simp] theorem resvWrite_reqs (a : Nat) (d : List Byte) : (s.resvWrite a d).reqs = s.reqs := rfl
@[simp] theorem resvWrite_nextReq (a : Nat) (d : List Byte) : (s.resvWrite a d).nextReq = s.nextReq := rfl
@[simp] theorem resvWrite_coh (a : Nat) (d : List Byte) : (s.resvWrite a d).coh = s.coh := rfl
@[simp] theorem resvWrite_ext (a : Nat) (d : List Byte) : (s.resvWrite a d).ext = s.ext := rfl
@[simp] theorem resvWrite_chrn (a : Nat) (d : List Byte) : (s.resvWrite a d).chrn = s.chrn := rfl
@[simp] theorem resvWrite_herd (a : Nat) (d : List Byte) : (s.resvWrite a d).herd = s.herd := rfl
@[simp] theorem resvWrite_hnd (a : Nat) (d : List Byte) : (s.resvWrite a d).hnd = s.hnd := rfl

/-! ### emit -/

@[simp] theorem emit_pending (e : Emit) : (s.emit e).pending = s.pending := rfl
@[simp] theorem emit_time (e : Emit) : (s.emit e).time = s.time := rfl
@[simp] theorem emit_free (e : Emit) : (s.emit e).free = s.free := rfl
@[simp] theorem emit_regs (e : Emit) : (s.emit e).regs = s.regs := rfl
@[simp] theorem emit_mem (e : Emit) : (s.emit e).mem = s.mem := rfl
@[simp] theorem emit_resv (e : Emit) : (s.emit e).resv = s.resv := rfl
@[simp] theorem emit_sup (e : Emit) : (s.emit e).sup = s.sup := rfl
@[simp] theorem emit_tk (e : Emit) : (s.emit e).tk = s.tk := rfl
@[simp] theorem emit_seq (e : Emit) : (s.emit e).seq = s.seq := rfl
@[simp] theorem emit_st (e : Emit) : (s.emit e).st = s.st := rfl
@[simp] theorem emit_fab (e : Emit) : (s.emit e).fab = s.fab := rfl
@[simp] theorem emit_xlt (e : Emit) : (s.emit e).xlt = s.xlt := rfl
@[simp] theorem emit_host (e : Emit) : (s.emit e).host = s.host := rfl
@[simp] theorem emit_damp (e : Emit) : (s.emit e).damp = s.damp := rfl
@[simp] theorem emit_reqs (e : Emit) : (s.emit e).reqs = s.reqs := rfl
@[simp] theorem emit_nextReq (e : Emit) : (s.emit e).nextReq = s.nextReq := rfl
@[simp] theorem emit_coh (e : Emit) : (s.emit e).coh = s.coh := rfl
@[simp] theorem emit_ext (e : Emit) : (s.emit e).ext = s.ext := rfl
@[simp] theorem emit_chrn (e : Emit) : (s.emit e).chrn = s.chrn := rfl
@[simp] theorem emit_herd (e : Emit) : (s.emit e).herd = s.herd := rfl
@[simp] theorem emit_hnd (e : Emit) : (s.emit e).hnd = s.hnd := rfl

/-! ### draw -/

@[simp] theorem draw_pending : (s.draw.2).pending = s.pending := rfl
@[simp] theorem draw_time : (s.draw.2).time = s.time := rfl
@[simp] theorem draw_regs : (s.draw.2).regs = s.regs := rfl
@[simp] theorem draw_mem : (s.draw.2).mem = s.mem := rfl
@[simp] theorem draw_resv : (s.draw.2).resv = s.resv := rfl
@[simp] theorem draw_out : (s.draw.2).out = s.out := rfl
@[simp] theorem draw_sup : (s.draw.2).sup = s.sup := rfl
@[simp] theorem draw_tk : (s.draw.2).tk = s.tk := rfl
@[simp] theorem draw_seq : (s.draw.2).seq = s.seq := rfl
@[simp] theorem draw_st : (s.draw.2).st = s.st := rfl
@[simp] theorem draw_fab : (s.draw.2).fab = s.fab := rfl
@[simp] theorem draw_xlt : (s.draw.2).xlt = s.xlt := rfl
@[simp] theorem draw_host : (s.draw.2).host = s.host := rfl
@[simp] theorem draw_damp : (s.draw.2).damp = s.damp := rfl
@[simp] theorem draw_reqs : (s.draw.2).reqs = s.reqs := rfl
@[simp] theorem draw_nextReq : (s.draw.2).nextReq = s.nextReq := rfl
@[simp] theorem draw_coh : (s.draw.2).coh = s.coh := rfl
@[simp] theorem draw_ext : (s.draw.2).ext = s.ext := rfl
@[simp] theorem draw_chrn : (s.draw.2).chrn = s.chrn := rfl
@[simp] theorem draw_herd : (s.draw.2).herd = s.herd := rfl
@[simp] theorem draw_hnd : (s.draw.2).hnd = s.hnd := rfl

/-! ### upTo -/

@[simp] theorem upTo_pending (n : Nat) : (s.upTo n).pending = s.pending := rfl
@[simp] theorem upTo_free (n : Nat) : (s.upTo n).free = s.free := rfl
@[simp] theorem upTo_regs (n : Nat) : (s.upTo n).regs = s.regs := rfl
@[simp] theorem upTo_mem (n : Nat) : (s.upTo n).mem = s.mem := rfl
@[simp] theorem upTo_resv (n : Nat) : (s.upTo n).resv = s.resv := rfl
@[simp] theorem upTo_out (n : Nat) : (s.upTo n).out = s.out := rfl
@[simp] theorem upTo_sup (n : Nat) : (s.upTo n).sup = s.sup := rfl
@[simp] theorem upTo_tk (n : Nat) : (s.upTo n).tk = s.tk := rfl
@[simp] theorem upTo_seq (n : Nat) : (s.upTo n).seq = s.seq := rfl
@[simp] theorem upTo_st (n : Nat) : (s.upTo n).st = s.st := rfl
@[simp] theorem upTo_fab (n : Nat) : (s.upTo n).fab = s.fab := rfl
@[simp] theorem upTo_xlt (n : Nat) : (s.upTo n).xlt = s.xlt := rfl
@[simp] theorem upTo_host (n : Nat) : (s.upTo n).host = s.host := rfl
@[simp] theorem upTo_damp (n : Nat) : (s.upTo n).damp = s.damp := rfl
@[simp] theorem upTo_reqs (n : Nat) : (s.upTo n).reqs = s.reqs := rfl
@[simp] theorem upTo_nextReq (n : Nat) : (s.upTo n).nextReq = s.nextReq := rfl
@[simp] theorem upTo_coh (n : Nat) : (s.upTo n).coh = s.coh := rfl
@[simp] theorem upTo_ext (n : Nat) : (s.upTo n).ext = s.ext := rfl
@[simp] theorem upTo_chrn (n : Nat) : (s.upTo n).chrn = s.chrn := rfl
@[simp] theorem upTo_herd (n : Nat) : (s.upTo n).herd = s.herd := rfl
@[simp] theorem upTo_hnd (n : Nat) : (s.upTo n).hnd = s.hnd := rfl

/-! ### hold -/

@[simp] theorem hold_pending (mb : Mbx) : (s.hold mb).pending = s.pending := rfl
@[simp] theorem hold_time (mb : Mbx) : (s.hold mb).time = s.time := rfl
@[simp] theorem hold_free (mb : Mbx) : (s.hold mb).free = s.free := rfl
@[simp] theorem hold_regs (mb : Mbx) : (s.hold mb).regs = s.regs := rfl
@[simp] theorem hold_mem (mb : Mbx) : (s.hold mb).mem = s.mem := rfl
@[simp] theorem hold_resv (mb : Mbx) : (s.hold mb).resv = s.resv := rfl
@[simp] theorem hold_out (mb : Mbx) : (s.hold mb).out = s.out := rfl
@[simp] theorem hold_sup (mb : Mbx) : (s.hold mb).sup = s.sup := rfl
@[simp] theorem hold_tk (mb : Mbx) : (s.hold mb).tk = s.tk := rfl
@[simp] theorem hold_seq (mb : Mbx) : (s.hold mb).seq = s.seq := rfl
@[simp] theorem hold_st (mb : Mbx) : (s.hold mb).st = s.st := rfl
@[simp] theorem hold_fab (mb : Mbx) : (s.hold mb).fab = s.fab := rfl
@[simp] theorem hold_xlt (mb : Mbx) : (s.hold mb).xlt = s.xlt := rfl
@[simp] theorem hold_damp (mb : Mbx) : (s.hold mb).damp = s.damp := rfl
@[simp] theorem hold_reqs (mb : Mbx) : (s.hold mb).reqs = s.reqs := rfl
@[simp] theorem hold_nextReq (mb : Mbx) : (s.hold mb).nextReq = s.nextReq := rfl
@[simp] theorem hold_coh (mb : Mbx) : (s.hold mb).coh = s.coh := rfl
@[simp] theorem hold_ext (mb : Mbx) : (s.hold mb).ext = s.ext := rfl
@[simp] theorem hold_chrn (mb : Mbx) : (s.hold mb).chrn = s.chrn := rfl
@[simp] theorem hold_herd (mb : Mbx) : (s.hold mb).herd = s.herd := rfl
@[simp] theorem hold_hnd (mb : Mbx) : (s.hold mb).hnd = s.hnd := rfl

/-! ### sbGo -/

@[simp] theorem sbGo_pending : (sbGo s).pending = s.pending := rfl
@[simp] theorem sbGo_time : (sbGo s).time = s.time := rfl
@[simp] theorem sbGo_free : (sbGo s).free = s.free := rfl
@[simp] theorem sbGo_regs : (sbGo s).regs = s.regs := rfl
@[simp] theorem sbGo_mem : (sbGo s).mem = s.mem := rfl
@[simp] theorem sbGo_resv : (sbGo s).resv = s.resv := rfl
@[simp] theorem sbGo_sup : (sbGo s).sup = s.sup := rfl
@[simp] theorem sbGo_tk : (sbGo s).tk = s.tk := rfl
@[simp] theorem sbGo_seq : (sbGo s).seq = s.seq := rfl
@[simp] theorem sbGo_st : (sbGo s).st = s.st := rfl
@[simp] theorem sbGo_fab : (sbGo s).fab = s.fab := rfl
@[simp] theorem sbGo_xlt : (sbGo s).xlt = s.xlt := rfl
@[simp] theorem sbGo_damp : (sbGo s).damp = s.damp := rfl
@[simp] theorem sbGo_reqs : (sbGo s).reqs = s.reqs := rfl
@[simp] theorem sbGo_nextReq : (sbGo s).nextReq = s.nextReq := rfl
@[simp] theorem sbGo_coh : (sbGo s).coh = s.coh := rfl
@[simp] theorem sbGo_ext : (sbGo s).ext = s.ext := rfl
@[simp] theorem sbGo_chrn : (sbGo s).chrn = s.chrn := rfl
@[simp] theorem sbGo_herd : (sbGo s).herd = s.herd := rfl
@[simp] theorem sbGo_hnd : (sbGo s).hnd = s.hnd := rfl

/-! ### supSet -/

@[simp] theorem supSet_pending (u : Sup) : (supSet s u).pending = s.pending := rfl
@[simp] theorem supSet_time (u : Sup) : (supSet s u).time = s.time := rfl
@[simp] theorem supSet_free (u : Sup) : (supSet s u).free = s.free := rfl
@[simp] theorem supSet_regs (u : Sup) : (supSet s u).regs = s.regs := rfl
@[simp] theorem supSet_mem (u : Sup) : (supSet s u).mem = s.mem := rfl
@[simp] theorem supSet_resv (u : Sup) : (supSet s u).resv = s.resv := rfl
@[simp] theorem supSet_out (u : Sup) : (supSet s u).out = s.out := rfl
@[simp] theorem supSet_tk (u : Sup) : (supSet s u).tk = s.tk := rfl
@[simp] theorem supSet_seq (u : Sup) : (supSet s u).seq = s.seq := rfl
@[simp] theorem supSet_st (u : Sup) : (supSet s u).st = s.st := rfl
@[simp] theorem supSet_fab (u : Sup) : (supSet s u).fab = s.fab := rfl
@[simp] theorem supSet_xlt (u : Sup) : (supSet s u).xlt = s.xlt := rfl
@[simp] theorem supSet_host (u : Sup) : (supSet s u).host = s.host := rfl
@[simp] theorem supSet_damp (u : Sup) : (supSet s u).damp = s.damp := rfl
@[simp] theorem supSet_reqs (u : Sup) : (supSet s u).reqs = s.reqs := rfl
@[simp] theorem supSet_nextReq (u : Sup) : (supSet s u).nextReq = s.nextReq := rfl
@[simp] theorem supSet_coh (u : Sup) : (supSet s u).coh = s.coh := rfl
@[simp] theorem supSet_ext (u : Sup) : (supSet s u).ext = s.ext := rfl
@[simp] theorem supSet_chrn (u : Sup) : (supSet s u).chrn = s.chrn := rfl
@[simp] theorem supSet_herd (u : Sup) : (supSet s u).herd = s.herd := rfl
@[simp] theorem supSet_hnd (u : Sup) : (supSet s u).hnd = s.hnd := rfl

/-! ### tkSet -/

@[simp] theorem tkSet_pending (x : Tick) : (tkSet s x).pending = s.pending := rfl
@[simp] theorem tkSet_time (x : Tick) : (tkSet s x).time = s.time := rfl
@[simp] theorem tkSet_free (x : Tick) : (tkSet s x).free = s.free := rfl
@[simp] theorem tkSet_regs (x : Tick) : (tkSet s x).regs = s.regs := rfl
@[simp] theorem tkSet_mem (x : Tick) : (tkSet s x).mem = s.mem := rfl
@[simp] theorem tkSet_resv (x : Tick) : (tkSet s x).resv = s.resv := rfl
@[simp] theorem tkSet_out (x : Tick) : (tkSet s x).out = s.out := rfl
@[simp] theorem tkSet_sup (x : Tick) : (tkSet s x).sup = s.sup := rfl
@[simp] theorem tkSet_seq (x : Tick) : (tkSet s x).seq = s.seq := rfl
@[simp] theorem tkSet_st (x : Tick) : (tkSet s x).st = s.st := rfl
@[simp] theorem tkSet_fab (x : Tick) : (tkSet s x).fab = s.fab := rfl
@[simp] theorem tkSet_xlt (x : Tick) : (tkSet s x).xlt = s.xlt := rfl
@[simp] theorem tkSet_host (x : Tick) : (tkSet s x).host = s.host := rfl
@[simp] theorem tkSet_damp (x : Tick) : (tkSet s x).damp = s.damp := rfl
@[simp] theorem tkSet_reqs (x : Tick) : (tkSet s x).reqs = s.reqs := rfl
@[simp] theorem tkSet_nextReq (x : Tick) : (tkSet s x).nextReq = s.nextReq := rfl
@[simp] theorem tkSet_coh (x : Tick) : (tkSet s x).coh = s.coh := rfl
@[simp] theorem tkSet_ext (x : Tick) : (tkSet s x).ext = s.ext := rfl
@[simp] theorem tkSet_chrn (x : Tick) : (tkSet s x).chrn = s.chrn := rfl
@[simp] theorem tkSet_herd (x : Tick) : (tkSet s x).herd = s.herd := rfl
@[simp] theorem tkSet_hnd (x : Tick) : (tkSet s x).hnd = s.hnd := rfl

/-! ### jobSet -/

@[simp] theorem jobSet_pending (j : Nat) (x : Job) : (jobSet s j x).pending = s.pending := rfl
@[simp] theorem jobSet_time (j : Nat) (x : Job) : (jobSet s j x).time = s.time := rfl
@[simp] theorem jobSet_free (j : Nat) (x : Job) : (jobSet s j x).free = s.free := rfl
@[simp] theorem jobSet_regs (j : Nat) (x : Job) : (jobSet s j x).regs = s.regs := rfl
@[simp] theorem jobSet_mem (j : Nat) (x : Job) : (jobSet s j x).mem = s.mem := rfl
@[simp] theorem jobSet_resv (j : Nat) (x : Job) : (jobSet s j x).resv = s.resv := rfl
@[simp] theorem jobSet_out (j : Nat) (x : Job) : (jobSet s j x).out = s.out := rfl
@[simp] theorem jobSet_sup (j : Nat) (x : Job) : (jobSet s j x).sup = s.sup := rfl
@[simp] theorem jobSet_tk (j : Nat) (x : Job) : (jobSet s j x).tk = s.tk := rfl
@[simp] theorem jobSet_st (j : Nat) (x : Job) : (jobSet s j x).st = s.st := rfl
@[simp] theorem jobSet_fab (j : Nat) (x : Job) : (jobSet s j x).fab = s.fab := rfl
@[simp] theorem jobSet_xlt (j : Nat) (x : Job) : (jobSet s j x).xlt = s.xlt := rfl
@[simp] theorem jobSet_host (j : Nat) (x : Job) : (jobSet s j x).host = s.host := rfl
@[simp] theorem jobSet_damp (j : Nat) (x : Job) : (jobSet s j x).damp = s.damp := rfl
@[simp] theorem jobSet_reqs (j : Nat) (x : Job) : (jobSet s j x).reqs = s.reqs := rfl
@[simp] theorem jobSet_nextReq (j : Nat) (x : Job) : (jobSet s j x).nextReq = s.nextReq := rfl
@[simp] theorem jobSet_coh (j : Nat) (x : Job) : (jobSet s j x).coh = s.coh := rfl
@[simp] theorem jobSet_ext (j : Nat) (x : Job) : (jobSet s j x).ext = s.ext := rfl
@[simp] theorem jobSet_chrn (j : Nat) (x : Job) : (jobSet s j x).chrn = s.chrn := rfl
@[simp] theorem jobSet_herd (j : Nat) (x : Job) : (jobSet s j x).herd = s.herd := rfl
@[simp] theorem jobSet_hnd (j : Nat) (x : Job) : (jobSet s j x).hnd = s.hnd := rfl

/-! ### stepsSet -/

@[simp] theorem stepsSet_pending (l : List Step) : (stepsSet s l).pending = s.pending := rfl
@[simp] theorem stepsSet_time (l : List Step) : (stepsSet s l).time = s.time := rfl
@[simp] theorem stepsSet_free (l : List Step) : (stepsSet s l).free = s.free := rfl
@[simp] theorem stepsSet_regs (l : List Step) : (stepsSet s l).regs = s.regs := rfl
@[simp] theorem stepsSet_mem (l : List Step) : (stepsSet s l).mem = s.mem := rfl
@[simp] theorem stepsSet_resv (l : List Step) : (stepsSet s l).resv = s.resv := rfl
@[simp] theorem stepsSet_out (l : List Step) : (stepsSet s l).out = s.out := rfl
@[simp] theorem stepsSet_sup (l : List Step) : (stepsSet s l).sup = s.sup := rfl
@[simp] theorem stepsSet_tk (l : List Step) : (stepsSet s l).tk = s.tk := rfl
@[simp] theorem stepsSet_st (l : List Step) : (stepsSet s l).st = s.st := rfl
@[simp] theorem stepsSet_fab (l : List Step) : (stepsSet s l).fab = s.fab := rfl
@[simp] theorem stepsSet_xlt (l : List Step) : (stepsSet s l).xlt = s.xlt := rfl
@[simp] theorem stepsSet_host (l : List Step) : (stepsSet s l).host = s.host := rfl
@[simp] theorem stepsSet_damp (l : List Step) : (stepsSet s l).damp = s.damp := rfl
@[simp] theorem stepsSet_reqs (l : List Step) : (stepsSet s l).reqs = s.reqs := rfl
@[simp] theorem stepsSet_nextReq (l : List Step) : (stepsSet s l).nextReq = s.nextReq := rfl
@[simp] theorem stepsSet_coh (l : List Step) : (stepsSet s l).coh = s.coh := rfl
@[simp] theorem stepsSet_ext (l : List Step) : (stepsSet s l).ext = s.ext := rfl
@[simp] theorem stepsSet_chrn (l : List Step) : (stepsSet s l).chrn = s.chrn := rfl
@[simp] theorem stepsSet_herd (l : List Step) : (stepsSet s l).herd = s.herd := rfl
@[simp] theorem stepsSet_hnd (l : List Step) : (stepsSet s l).hnd = s.hnd := rfl

/-! ### stepPut -/

@[simp] theorem stepPut_pending (x : Step) : (stepPut s x).pending = s.pending := rfl
@[simp] theorem stepPut_time (x : Step) : (stepPut s x).time = s.time := rfl
@[simp] theorem stepPut_free (x : Step) : (stepPut s x).free = s.free := rfl
@[simp] theorem stepPut_regs (x : Step) : (stepPut s x).regs = s.regs := rfl
@[simp] theorem stepPut_mem (x : Step) : (stepPut s x).mem = s.mem := rfl
@[simp] theorem stepPut_resv (x : Step) : (stepPut s x).resv = s.resv := rfl
@[simp] theorem stepPut_out (x : Step) : (stepPut s x).out = s.out := rfl
@[simp] theorem stepPut_sup (x : Step) : (stepPut s x).sup = s.sup := rfl
@[simp] theorem stepPut_tk (x : Step) : (stepPut s x).tk = s.tk := rfl
@[simp] theorem stepPut_st (x : Step) : (stepPut s x).st = s.st := rfl
@[simp] theorem stepPut_fab (x : Step) : (stepPut s x).fab = s.fab := rfl
@[simp] theorem stepPut_xlt (x : Step) : (stepPut s x).xlt = s.xlt := rfl
@[simp] theorem stepPut_host (x : Step) : (stepPut s x).host = s.host := rfl
@[simp] theorem stepPut_damp (x : Step) : (stepPut s x).damp = s.damp := rfl
@[simp] theorem stepPut_reqs (x : Step) : (stepPut s x).reqs = s.reqs := rfl
@[simp] theorem stepPut_nextReq (x : Step) : (stepPut s x).nextReq = s.nextReq := rfl
@[simp] theorem stepPut_coh (x : Step) : (stepPut s x).coh = s.coh := rfl
@[simp] theorem stepPut_ext (x : Step) : (stepPut s x).ext = s.ext := rfl
@[simp] theorem stepPut_chrn (x : Step) : (stepPut s x).chrn = s.chrn := rfl
@[simp] theorem stepPut_herd (x : Step) : (stepPut s x).herd = s.herd := rfl
@[simp] theorem stepPut_hnd (x : Step) : (stepPut s x).hnd = s.hnd := rfl

/-! ### tileSet -/

@[simp] theorem tileSet_pending (t : Nat) (x : Tile) : (tileSet s t x).pending = s.pending := rfl
@[simp] theorem tileSet_time (t : Nat) (x : Tile) : (tileSet s t x).time = s.time := rfl
@[simp] theorem tileSet_free (t : Nat) (x : Tile) : (tileSet s t x).free = s.free := rfl
@[simp] theorem tileSet_regs (t : Nat) (x : Tile) : (tileSet s t x).regs = s.regs := rfl
@[simp] theorem tileSet_mem (t : Nat) (x : Tile) : (tileSet s t x).mem = s.mem := rfl
@[simp] theorem tileSet_resv (t : Nat) (x : Tile) : (tileSet s t x).resv = s.resv := rfl
@[simp] theorem tileSet_out (t : Nat) (x : Tile) : (tileSet s t x).out = s.out := rfl
@[simp] theorem tileSet_sup (t : Nat) (x : Tile) : (tileSet s t x).sup = s.sup := rfl
@[simp] theorem tileSet_tk (t : Nat) (x : Tile) : (tileSet s t x).tk = s.tk := rfl
@[simp] theorem tileSet_seq (t : Nat) (x : Tile) : (tileSet s t x).seq = s.seq := rfl
@[simp] theorem tileSet_fab (t : Nat) (x : Tile) : (tileSet s t x).fab = s.fab := rfl
@[simp] theorem tileSet_xlt (t : Nat) (x : Tile) : (tileSet s t x).xlt = s.xlt := rfl
@[simp] theorem tileSet_host (t : Nat) (x : Tile) : (tileSet s t x).host = s.host := rfl
@[simp] theorem tileSet_damp (t : Nat) (x : Tile) : (tileSet s t x).damp = s.damp := rfl
@[simp] theorem tileSet_reqs (t : Nat) (x : Tile) : (tileSet s t x).reqs = s.reqs := rfl
@[simp] theorem tileSet_nextReq (t : Nat) (x : Tile) : (tileSet s t x).nextReq = s.nextReq := rfl
@[simp] theorem tileSet_coh (t : Nat) (x : Tile) : (tileSet s t x).coh = s.coh := rfl
@[simp] theorem tileSet_ext (t : Nat) (x : Tile) : (tileSet s t x).ext = s.ext := rfl
@[simp] theorem tileSet_chrn (t : Nat) (x : Tile) : (tileSet s t x).chrn = s.chrn := rfl
@[simp] theorem tileSet_herd (t : Nat) (x : Tile) : (tileSet s t x).herd = s.herd := rfl
@[simp] theorem tileSet_hnd (t : Nat) (x : Tile) : (tileSet s t x).hnd = s.hnd := rfl

/-! ### stSet -/

@[simp] theorem stSet_pending (x : Store) : (stSet s x).pending = s.pending := rfl
@[simp] theorem stSet_time (x : Store) : (stSet s x).time = s.time := rfl
@[simp] theorem stSet_free (x : Store) : (stSet s x).free = s.free := rfl
@[simp] theorem stSet_regs (x : Store) : (stSet s x).regs = s.regs := rfl
@[simp] theorem stSet_mem (x : Store) : (stSet s x).mem = s.mem := rfl
@[simp] theorem stSet_resv (x : Store) : (stSet s x).resv = s.resv := rfl
@[simp] theorem stSet_out (x : Store) : (stSet s x).out = s.out := rfl
@[simp] theorem stSet_sup (x : Store) : (stSet s x).sup = s.sup := rfl
@[simp] theorem stSet_tk (x : Store) : (stSet s x).tk = s.tk := rfl
@[simp] theorem stSet_seq (x : Store) : (stSet s x).seq = s.seq := rfl
@[simp] theorem stSet_fab (x : Store) : (stSet s x).fab = s.fab := rfl
@[simp] theorem stSet_xlt (x : Store) : (stSet s x).xlt = s.xlt := rfl
@[simp] theorem stSet_host (x : Store) : (stSet s x).host = s.host := rfl
@[simp] theorem stSet_damp (x : Store) : (stSet s x).damp = s.damp := rfl
@[simp] theorem stSet_reqs (x : Store) : (stSet s x).reqs = s.reqs := rfl
@[simp] theorem stSet_nextReq (x : Store) : (stSet s x).nextReq = s.nextReq := rfl
@[simp] theorem stSet_coh (x : Store) : (stSet s x).coh = s.coh := rfl
@[simp] theorem stSet_ext (x : Store) : (stSet s x).ext = s.ext := rfl
@[simp] theorem stSet_chrn (x : Store) : (stSet s x).chrn = s.chrn := rfl
@[simp] theorem stSet_herd (x : Store) : (stSet s x).herd = s.herd := rfl
@[simp] theorem stSet_hnd (x : Store) : (stSet s x).hnd = s.hnd := rfl

/-! ### portSet -/

@[simp] theorem portSet_pending (n : Nat) (p : Port) : (portSet s n p).pending = s.pending := rfl
@[simp] theorem portSet_time (n : Nat) (p : Port) : (portSet s n p).time = s.time := rfl
@[simp] theorem portSet_free (n : Nat) (p : Port) : (portSet s n p).free = s.free := rfl
@[simp] theorem portSet_regs (n : Nat) (p : Port) : (portSet s n p).regs = s.regs := rfl
@[simp] theorem portSet_mem (n : Nat) (p : Port) : (portSet s n p).mem = s.mem := rfl
@[simp] theorem portSet_resv (n : Nat) (p : Port) : (portSet s n p).resv = s.resv := rfl
@[simp] theorem portSet_out (n : Nat) (p : Port) : (portSet s n p).out = s.out := rfl
@[simp] theorem portSet_sup (n : Nat) (p : Port) : (portSet s n p).sup = s.sup := rfl
@[simp] theorem portSet_tk (n : Nat) (p : Port) : (portSet s n p).tk = s.tk := rfl
@[simp] theorem portSet_seq (n : Nat) (p : Port) : (portSet s n p).seq = s.seq := rfl
@[simp] theorem portSet_st (n : Nat) (p : Port) : (portSet s n p).st = s.st := rfl
@[simp] theorem portSet_xlt (n : Nat) (p : Port) : (portSet s n p).xlt = s.xlt := rfl
@[simp] theorem portSet_host (n : Nat) (p : Port) : (portSet s n p).host = s.host := rfl
@[simp] theorem portSet_damp (n : Nat) (p : Port) : (portSet s n p).damp = s.damp := rfl
@[simp] theorem portSet_reqs (n : Nat) (p : Port) : (portSet s n p).reqs = s.reqs := rfl
@[simp] theorem portSet_nextReq (n : Nat) (p : Port) : (portSet s n p).nextReq = s.nextReq := rfl
@[simp] theorem portSet_coh (n : Nat) (p : Port) : (portSet s n p).coh = s.coh := rfl
@[simp] theorem portSet_ext (n : Nat) (p : Port) : (portSet s n p).ext = s.ext := rfl
@[simp] theorem portSet_chrn (n : Nat) (p : Port) : (portSet s n p).chrn = s.chrn := rfl
@[simp] theorem portSet_herd (n : Nat) (p : Port) : (portSet s n p).herd = s.herd := rfl
@[simp] theorem portSet_hnd (n : Nat) (p : Port) : (portSet s n p).hnd = s.hnd := rfl

/-! ### groupSet -/

@[simp] theorem groupSet_pending (g v : Nat) : (groupSet s g v).pending = s.pending := rfl
@[simp] theorem groupSet_time (g v : Nat) : (groupSet s g v).time = s.time := rfl
@[simp] theorem groupSet_free (g v : Nat) : (groupSet s g v).free = s.free := rfl
@[simp] theorem groupSet_regs (g v : Nat) : (groupSet s g v).regs = s.regs := rfl
@[simp] theorem groupSet_mem (g v : Nat) : (groupSet s g v).mem = s.mem := rfl
@[simp] theorem groupSet_resv (g v : Nat) : (groupSet s g v).resv = s.resv := rfl
@[simp] theorem groupSet_out (g v : Nat) : (groupSet s g v).out = s.out := rfl
@[simp] theorem groupSet_sup (g v : Nat) : (groupSet s g v).sup = s.sup := rfl
@[simp] theorem groupSet_tk (g v : Nat) : (groupSet s g v).tk = s.tk := rfl
@[simp] theorem groupSet_seq (g v : Nat) : (groupSet s g v).seq = s.seq := rfl
@[simp] theorem groupSet_st (g v : Nat) : (groupSet s g v).st = s.st := rfl
@[simp] theorem groupSet_xlt (g v : Nat) : (groupSet s g v).xlt = s.xlt := rfl
@[simp] theorem groupSet_host (g v : Nat) : (groupSet s g v).host = s.host := rfl
@[simp] theorem groupSet_damp (g v : Nat) : (groupSet s g v).damp = s.damp := rfl
@[simp] theorem groupSet_reqs (g v : Nat) : (groupSet s g v).reqs = s.reqs := rfl
@[simp] theorem groupSet_nextReq (g v : Nat) : (groupSet s g v).nextReq = s.nextReq := rfl
@[simp] theorem groupSet_coh (g v : Nat) : (groupSet s g v).coh = s.coh := rfl
@[simp] theorem groupSet_ext (g v : Nat) : (groupSet s g v).ext = s.ext := rfl
@[simp] theorem groupSet_chrn (g v : Nat) : (groupSet s g v).chrn = s.chrn := rfl
@[simp] theorem groupSet_herd (g v : Nat) : (groupSet s g v).herd = s.herd := rfl
@[simp] theorem groupSet_hnd (g v : Nat) : (groupSet s g v).hnd = s.hnd := rfl

/-! ### tagSet -/

@[simp] theorem tagSet_pending (t v : Nat) : (tagSet s t v).pending = s.pending := rfl
@[simp] theorem tagSet_time (t v : Nat) : (tagSet s t v).time = s.time := rfl
@[simp] theorem tagSet_free (t v : Nat) : (tagSet s t v).free = s.free := rfl
@[simp] theorem tagSet_regs (t v : Nat) : (tagSet s t v).regs = s.regs := rfl
@[simp] theorem tagSet_mem (t v : Nat) : (tagSet s t v).mem = s.mem := rfl
@[simp] theorem tagSet_resv (t v : Nat) : (tagSet s t v).resv = s.resv := rfl
@[simp] theorem tagSet_out (t v : Nat) : (tagSet s t v).out = s.out := rfl
@[simp] theorem tagSet_sup (t v : Nat) : (tagSet s t v).sup = s.sup := rfl
@[simp] theorem tagSet_tk (t v : Nat) : (tagSet s t v).tk = s.tk := rfl
@[simp] theorem tagSet_seq (t v : Nat) : (tagSet s t v).seq = s.seq := rfl
@[simp] theorem tagSet_st (t v : Nat) : (tagSet s t v).st = s.st := rfl
@[simp] theorem tagSet_xlt (t v : Nat) : (tagSet s t v).xlt = s.xlt := rfl
@[simp] theorem tagSet_host (t v : Nat) : (tagSet s t v).host = s.host := rfl
@[simp] theorem tagSet_damp (t v : Nat) : (tagSet s t v).damp = s.damp := rfl
@[simp] theorem tagSet_reqs (t v : Nat) : (tagSet s t v).reqs = s.reqs := rfl
@[simp] theorem tagSet_nextReq (t v : Nat) : (tagSet s t v).nextReq = s.nextReq := rfl
@[simp] theorem tagSet_coh (t v : Nat) : (tagSet s t v).coh = s.coh := rfl
@[simp] theorem tagSet_ext (t v : Nat) : (tagSet s t v).ext = s.ext := rfl
@[simp] theorem tagSet_chrn (t v : Nat) : (tagSet s t v).chrn = s.chrn := rfl
@[simp] theorem tagSet_herd (t v : Nat) : (tagSet s t v).herd = s.herd := rfl
@[simp] theorem tagSet_hnd (t v : Nat) : (tagSet s t v).hnd = s.hnd := rfl

/-! ### skimsSet -/

@[simp] theorem skimsSet_pending (l : List Skim) : (skimsSet s l).pending = s.pending := rfl
@[simp] theorem skimsSet_time (l : List Skim) : (skimsSet s l).time = s.time := rfl
@[simp] theorem skimsSet_free (l : List Skim) : (skimsSet s l).free = s.free := rfl
@[simp] theorem skimsSet_regs (l : List Skim) : (skimsSet s l).regs = s.regs := rfl
@[simp] theorem skimsSet_mem (l : List Skim) : (skimsSet s l).mem = s.mem := rfl
@[simp] theorem skimsSet_resv (l : List Skim) : (skimsSet s l).resv = s.resv := rfl
@[simp] theorem skimsSet_out (l : List Skim) : (skimsSet s l).out = s.out := rfl
@[simp] theorem skimsSet_sup (l : List Skim) : (skimsSet s l).sup = s.sup := rfl
@[simp] theorem skimsSet_tk (l : List Skim) : (skimsSet s l).tk = s.tk := rfl
@[simp] theorem skimsSet_seq (l : List Skim) : (skimsSet s l).seq = s.seq := rfl
@[simp] theorem skimsSet_st (l : List Skim) : (skimsSet s l).st = s.st := rfl
@[simp] theorem skimsSet_xlt (l : List Skim) : (skimsSet s l).xlt = s.xlt := rfl
@[simp] theorem skimsSet_host (l : List Skim) : (skimsSet s l).host = s.host := rfl
@[simp] theorem skimsSet_damp (l : List Skim) : (skimsSet s l).damp = s.damp := rfl
@[simp] theorem skimsSet_reqs (l : List Skim) : (skimsSet s l).reqs = s.reqs := rfl
@[simp] theorem skimsSet_nextReq (l : List Skim) : (skimsSet s l).nextReq = s.nextReq := rfl
@[simp] theorem skimsSet_coh (l : List Skim) : (skimsSet s l).coh = s.coh := rfl
@[simp] theorem skimsSet_ext (l : List Skim) : (skimsSet s l).ext = s.ext := rfl
@[simp] theorem skimsSet_chrn (l : List Skim) : (skimsSet s l).chrn = s.chrn := rfl
@[simp] theorem skimsSet_herd (l : List Skim) : (skimsSet s l).herd = s.herd := rfl
@[simp] theorem skimsSet_hnd (l : List Skim) : (skimsSet s l).hnd = s.hnd := rfl

/-! ### shaperSet -/

@[simp] theorem shaperSet_pending (q k t : Nat) : (shaperSet s q k t).pending = s.pending := rfl
@[simp] theorem shaperSet_time (q k t : Nat) : (shaperSet s q k t).time = s.time := rfl
@[simp] theorem shaperSet_free (q k t : Nat) : (shaperSet s q k t).free = s.free := rfl
@[simp] theorem shaperSet_regs (q k t : Nat) : (shaperSet s q k t).regs = s.regs := rfl
@[simp] theorem shaperSet_mem (q k t : Nat) : (shaperSet s q k t).mem = s.mem := rfl
@[simp] theorem shaperSet_resv (q k t : Nat) : (shaperSet s q k t).resv = s.resv := rfl
@[simp] theorem shaperSet_out (q k t : Nat) : (shaperSet s q k t).out = s.out := rfl
@[simp] theorem shaperSet_sup (q k t : Nat) : (shaperSet s q k t).sup = s.sup := rfl
@[simp] theorem shaperSet_tk (q k t : Nat) : (shaperSet s q k t).tk = s.tk := rfl
@[simp] theorem shaperSet_seq (q k t : Nat) : (shaperSet s q k t).seq = s.seq := rfl
@[simp] theorem shaperSet_st (q k t : Nat) : (shaperSet s q k t).st = s.st := rfl
@[simp] theorem shaperSet_xlt (q k t : Nat) : (shaperSet s q k t).xlt = s.xlt := rfl
@[simp] theorem shaperSet_host (q k t : Nat) : (shaperSet s q k t).host = s.host := rfl
@[simp] theorem shaperSet_damp (q k t : Nat) : (shaperSet s q k t).damp = s.damp := rfl
@[simp] theorem shaperSet_reqs (q k t : Nat) : (shaperSet s q k t).reqs = s.reqs := rfl
@[simp] theorem shaperSet_nextReq (q k t : Nat) : (shaperSet s q k t).nextReq = s.nextReq := rfl
@[simp] theorem shaperSet_coh (q k t : Nat) : (shaperSet s q k t).coh = s.coh := rfl
@[simp] theorem shaperSet_ext (q k t : Nat) : (shaperSet s q k t).ext = s.ext := rfl
@[simp] theorem shaperSet_chrn (q k t : Nat) : (shaperSet s q k t).chrn = s.chrn := rfl
@[simp] theorem shaperSet_herd (q k t : Nat) : (shaperSet s q k t).herd = s.herd := rfl
@[simp] theorem shaperSet_hnd (q k t : Nat) : (shaperSet s q k t).hnd = s.hnd := rfl

/-! ### meterSet -/

@[simp] theorem meterSet_pending (m t : Nat) : (meterSet s m t).pending = s.pending := rfl
@[simp] theorem meterSet_time (m t : Nat) : (meterSet s m t).time = s.time := rfl
@[simp] theorem meterSet_free (m t : Nat) : (meterSet s m t).free = s.free := rfl
@[simp] theorem meterSet_regs (m t : Nat) : (meterSet s m t).regs = s.regs := rfl
@[simp] theorem meterSet_mem (m t : Nat) : (meterSet s m t).mem = s.mem := rfl
@[simp] theorem meterSet_resv (m t : Nat) : (meterSet s m t).resv = s.resv := rfl
@[simp] theorem meterSet_out (m t : Nat) : (meterSet s m t).out = s.out := rfl
@[simp] theorem meterSet_sup (m t : Nat) : (meterSet s m t).sup = s.sup := rfl
@[simp] theorem meterSet_tk (m t : Nat) : (meterSet s m t).tk = s.tk := rfl
@[simp] theorem meterSet_seq (m t : Nat) : (meterSet s m t).seq = s.seq := rfl
@[simp] theorem meterSet_st (m t : Nat) : (meterSet s m t).st = s.st := rfl
@[simp] theorem meterSet_xlt (m t : Nat) : (meterSet s m t).xlt = s.xlt := rfl
@[simp] theorem meterSet_host (m t : Nat) : (meterSet s m t).host = s.host := rfl
@[simp] theorem meterSet_damp (m t : Nat) : (meterSet s m t).damp = s.damp := rfl
@[simp] theorem meterSet_reqs (m t : Nat) : (meterSet s m t).reqs = s.reqs := rfl
@[simp] theorem meterSet_nextReq (m t : Nat) : (meterSet s m t).nextReq = s.nextReq := rfl
@[simp] theorem meterSet_coh (m t : Nat) : (meterSet s m t).coh = s.coh := rfl
@[simp] theorem meterSet_ext (m t : Nat) : (meterSet s m t).ext = s.ext := rfl
@[simp] theorem meterSet_chrn (m t : Nat) : (meterSet s m t).chrn = s.chrn := rfl
@[simp] theorem meterSet_herd (m t : Nat) : (meterSet s m t).herd = s.herd := rfl
@[simp] theorem meterSet_hnd (m t : Nat) : (meterSet s m t).hnd = s.hnd := rfl

/-! ### voqPut -/

@[simp] theorem voqPut_pending (q : QCell) : (voqPut s q).pending = s.pending := rfl
@[simp] theorem voqPut_time (q : QCell) : (voqPut s q).time = s.time := rfl
@[simp] theorem voqPut_free (q : QCell) : (voqPut s q).free = s.free := rfl
@[simp] theorem voqPut_regs (q : QCell) : (voqPut s q).regs = s.regs := rfl
@[simp] theorem voqPut_mem (q : QCell) : (voqPut s q).mem = s.mem := rfl
@[simp] theorem voqPut_resv (q : QCell) : (voqPut s q).resv = s.resv := rfl
@[simp] theorem voqPut_out (q : QCell) : (voqPut s q).out = s.out := rfl
@[simp] theorem voqPut_sup (q : QCell) : (voqPut s q).sup = s.sup := rfl
@[simp] theorem voqPut_tk (q : QCell) : (voqPut s q).tk = s.tk := rfl
@[simp] theorem voqPut_seq (q : QCell) : (voqPut s q).seq = s.seq := rfl
@[simp] theorem voqPut_st (q : QCell) : (voqPut s q).st = s.st := rfl
@[simp] theorem voqPut_xlt (q : QCell) : (voqPut s q).xlt = s.xlt := rfl
@[simp] theorem voqPut_host (q : QCell) : (voqPut s q).host = s.host := rfl
@[simp] theorem voqPut_damp (q : QCell) : (voqPut s q).damp = s.damp := rfl
@[simp] theorem voqPut_reqs (q : QCell) : (voqPut s q).reqs = s.reqs := rfl
@[simp] theorem voqPut_nextReq (q : QCell) : (voqPut s q).nextReq = s.nextReq := rfl
@[simp] theorem voqPut_coh (q : QCell) : (voqPut s q).coh = s.coh := rfl
@[simp] theorem voqPut_ext (q : QCell) : (voqPut s q).ext = s.ext := rfl
@[simp] theorem voqPut_chrn (q : QCell) : (voqPut s q).chrn = s.chrn := rfl
@[simp] theorem voqPut_herd (q : QCell) : (voqPut s q).herd = s.herd := rfl
@[simp] theorem voqPut_hnd (q : QCell) : (voqPut s q).hnd = s.hnd := rfl

/-! ### asAt -/

@[simp] theorem asAt_pending (n : Nat) : (s.asAt n).pending = s.pending := rfl
@[simp] theorem asAt_free (n : Nat) : (s.asAt n).free = s.free := rfl
@[simp] theorem asAt_regs (n : Nat) : (s.asAt n).regs = s.regs := rfl
@[simp] theorem asAt_mem (n : Nat) : (s.asAt n).mem = s.mem := rfl
@[simp] theorem asAt_resv (n : Nat) : (s.asAt n).resv = s.resv := rfl
@[simp] theorem asAt_out (n : Nat) : (s.asAt n).out = s.out := rfl
@[simp] theorem asAt_sup (n : Nat) : (s.asAt n).sup = s.sup := rfl
@[simp] theorem asAt_tk (n : Nat) : (s.asAt n).tk = s.tk := rfl
@[simp] theorem asAt_seq (n : Nat) : (s.asAt n).seq = s.seq := rfl
@[simp] theorem asAt_st (n : Nat) : (s.asAt n).st = s.st := rfl
@[simp] theorem asAt_fab (n : Nat) : (s.asAt n).fab = s.fab := rfl
@[simp] theorem asAt_xlt (n : Nat) : (s.asAt n).xlt = s.xlt := rfl
@[simp] theorem asAt_host (n : Nat) : (s.asAt n).host = s.host := rfl
@[simp] theorem asAt_damp (n : Nat) : (s.asAt n).damp = s.damp := rfl
@[simp] theorem asAt_reqs (n : Nat) : (s.asAt n).reqs = s.reqs := rfl
@[simp] theorem asAt_nextReq (n : Nat) : (s.asAt n).nextReq = s.nextReq := rfl
@[simp] theorem asAt_coh (n : Nat) : (s.asAt n).coh = s.coh := rfl
@[simp] theorem asAt_ext (n : Nat) : (s.asAt n).ext = s.ext := rfl
@[simp] theorem asAt_chrn (n : Nat) : (s.asAt n).chrn = s.chrn := rfl
@[simp] theorem asAt_herd (n : Nat) : (s.asAt n).herd = s.herd := rfl
@[simp] theorem asAt_hnd (n : Nat) : (s.asAt n).hnd = s.hnd := rfl

/-! ### ovfSet -/

@[simp] theorem ovfSet_pending (n : Nat) (o : Ovf) : (ovfSet s n o).pending = s.pending := rfl
@[simp] theorem ovfSet_time (n : Nat) (o : Ovf) : (ovfSet s n o).time = s.time := rfl
@[simp] theorem ovfSet_free (n : Nat) (o : Ovf) : (ovfSet s n o).free = s.free := rfl
@[simp] theorem ovfSet_regs (n : Nat) (o : Ovf) : (ovfSet s n o).regs = s.regs := rfl
@[simp] theorem ovfSet_mem (n : Nat) (o : Ovf) : (ovfSet s n o).mem = s.mem := rfl
@[simp] theorem ovfSet_resv (n : Nat) (o : Ovf) : (ovfSet s n o).resv = s.resv := rfl
@[simp] theorem ovfSet_out (n : Nat) (o : Ovf) : (ovfSet s n o).out = s.out := rfl
@[simp] theorem ovfSet_sup (n : Nat) (o : Ovf) : (ovfSet s n o).sup = s.sup := rfl
@[simp] theorem ovfSet_tk (n : Nat) (o : Ovf) : (ovfSet s n o).tk = s.tk := rfl
@[simp] theorem ovfSet_seq (n : Nat) (o : Ovf) : (ovfSet s n o).seq = s.seq := rfl
@[simp] theorem ovfSet_st (n : Nat) (o : Ovf) : (ovfSet s n o).st = s.st := rfl
@[simp] theorem ovfSet_fab (n : Nat) (o : Ovf) : (ovfSet s n o).fab = s.fab := rfl
@[simp] theorem ovfSet_host (n : Nat) (o : Ovf) : (ovfSet s n o).host = s.host := rfl
@[simp] theorem ovfSet_damp (n : Nat) (o : Ovf) : (ovfSet s n o).damp = s.damp := rfl
@[simp] theorem ovfSet_reqs (n : Nat) (o : Ovf) : (ovfSet s n o).reqs = s.reqs := rfl
@[simp] theorem ovfSet_nextReq (n : Nat) (o : Ovf) : (ovfSet s n o).nextReq = s.nextReq := rfl
@[simp] theorem ovfSet_coh (n : Nat) (o : Ovf) : (ovfSet s n o).coh = s.coh := rfl
@[simp] theorem ovfSet_ext (n : Nat) (o : Ovf) : (ovfSet s n o).ext = s.ext := rfl
@[simp] theorem ovfSet_chrn (n : Nat) (o : Ovf) : (ovfSet s n o).chrn = s.chrn := rfl
@[simp] theorem ovfSet_herd (n : Nat) (o : Ovf) : (ovfSet s n o).herd = s.herd := rfl
@[simp] theorem ovfSet_hnd (n : Nat) (o : Ovf) : (ovfSet s n o).hnd = s.hnd := rfl

/-! ### tenantSet -/

@[simp] theorem tenantSet_pending (n : Nat) (x : FnRec) : (tenantSet s n x).pending = s.pending := rfl
@[simp] theorem tenantSet_time (n : Nat) (x : FnRec) : (tenantSet s n x).time = s.time := rfl
@[simp] theorem tenantSet_free (n : Nat) (x : FnRec) : (tenantSet s n x).free = s.free := rfl
@[simp] theorem tenantSet_regs (n : Nat) (x : FnRec) : (tenantSet s n x).regs = s.regs := rfl
@[simp] theorem tenantSet_mem (n : Nat) (x : FnRec) : (tenantSet s n x).mem = s.mem := rfl
@[simp] theorem tenantSet_resv (n : Nat) (x : FnRec) : (tenantSet s n x).resv = s.resv := rfl
@[simp] theorem tenantSet_out (n : Nat) (x : FnRec) : (tenantSet s n x).out = s.out := rfl
@[simp] theorem tenantSet_sup (n : Nat) (x : FnRec) : (tenantSet s n x).sup = s.sup := rfl
@[simp] theorem tenantSet_tk (n : Nat) (x : FnRec) : (tenantSet s n x).tk = s.tk := rfl
@[simp] theorem tenantSet_seq (n : Nat) (x : FnRec) : (tenantSet s n x).seq = s.seq := rfl
@[simp] theorem tenantSet_st (n : Nat) (x : FnRec) : (tenantSet s n x).st = s.st := rfl
@[simp] theorem tenantSet_fab (n : Nat) (x : FnRec) : (tenantSet s n x).fab = s.fab := rfl
@[simp] theorem tenantSet_xlt (n : Nat) (x : FnRec) : (tenantSet s n x).xlt = s.xlt := rfl
@[simp] theorem tenantSet_damp (n : Nat) (x : FnRec) : (tenantSet s n x).damp = s.damp := rfl
@[simp] theorem tenantSet_reqs (n : Nat) (x : FnRec) : (tenantSet s n x).reqs = s.reqs := rfl
@[simp] theorem tenantSet_nextReq (n : Nat) (x : FnRec) : (tenantSet s n x).nextReq = s.nextReq := rfl
@[simp] theorem tenantSet_coh (n : Nat) (x : FnRec) : (tenantSet s n x).coh = s.coh := rfl
@[simp] theorem tenantSet_ext (n : Nat) (x : FnRec) : (tenantSet s n x).ext = s.ext := rfl
@[simp] theorem tenantSet_chrn (n : Nat) (x : FnRec) : (tenantSet s n x).chrn = s.chrn := rfl
@[simp] theorem tenantSet_herd (n : Nat) (x : FnRec) : (tenantSet s n x).herd = s.herd := rfl
@[simp] theorem tenantSet_hnd (n : Nat) (x : FnRec) : (tenantSet s n x).hnd = s.hnd := rfl

/-! ### ldSet -/

@[simp] theorem ldSet_pending (n : Nat) (x : FnRec) : (ldSet s n x).pending = s.pending := rfl
@[simp] theorem ldSet_time (n : Nat) (x : FnRec) : (ldSet s n x).time = s.time := rfl
@[simp] theorem ldSet_free (n : Nat) (x : FnRec) : (ldSet s n x).free = s.free := rfl
@[simp] theorem ldSet_regs (n : Nat) (x : FnRec) : (ldSet s n x).regs = s.regs := rfl
@[simp] theorem ldSet_mem (n : Nat) (x : FnRec) : (ldSet s n x).mem = s.mem := rfl
@[simp] theorem ldSet_resv (n : Nat) (x : FnRec) : (ldSet s n x).resv = s.resv := rfl
@[simp] theorem ldSet_out (n : Nat) (x : FnRec) : (ldSet s n x).out = s.out := rfl
@[simp] theorem ldSet_sup (n : Nat) (x : FnRec) : (ldSet s n x).sup = s.sup := rfl
@[simp] theorem ldSet_tk (n : Nat) (x : FnRec) : (ldSet s n x).tk = s.tk := rfl
@[simp] theorem ldSet_seq (n : Nat) (x : FnRec) : (ldSet s n x).seq = s.seq := rfl
@[simp] theorem ldSet_st (n : Nat) (x : FnRec) : (ldSet s n x).st = s.st := rfl
@[simp] theorem ldSet_fab (n : Nat) (x : FnRec) : (ldSet s n x).fab = s.fab := rfl
@[simp] theorem ldSet_xlt (n : Nat) (x : FnRec) : (ldSet s n x).xlt = s.xlt := rfl
@[simp] theorem ldSet_damp (n : Nat) (x : FnRec) : (ldSet s n x).damp = s.damp := rfl
@[simp] theorem ldSet_reqs (n : Nat) (x : FnRec) : (ldSet s n x).reqs = s.reqs := rfl
@[simp] theorem ldSet_nextReq (n : Nat) (x : FnRec) : (ldSet s n x).nextReq = s.nextReq := rfl
@[simp] theorem ldSet_coh (n : Nat) (x : FnRec) : (ldSet s n x).coh = s.coh := rfl
@[simp] theorem ldSet_ext (n : Nat) (x : FnRec) : (ldSet s n x).ext = s.ext := rfl
@[simp] theorem ldSet_chrn (n : Nat) (x : FnRec) : (ldSet s n x).chrn = s.chrn := rfl
@[simp] theorem ldSet_herd (n : Nat) (x : FnRec) : (ldSet s n x).herd = s.herd := rfl
@[simp] theorem ldSet_hnd (n : Nat) (x : FnRec) : (ldSet s n x).hnd = s.hnd := rfl

/-! ### destSet -/

@[simp] theorem destSet_pending (k : Nat) (d : Dest) : (destSet s k d).pending = s.pending := rfl
@[simp] theorem destSet_time (k : Nat) (d : Dest) : (destSet s k d).time = s.time := rfl
@[simp] theorem destSet_free (k : Nat) (d : Dest) : (destSet s k d).free = s.free := rfl
@[simp] theorem destSet_regs (k : Nat) (d : Dest) : (destSet s k d).regs = s.regs := rfl
@[simp] theorem destSet_mem (k : Nat) (d : Dest) : (destSet s k d).mem = s.mem := rfl
@[simp] theorem destSet_resv (k : Nat) (d : Dest) : (destSet s k d).resv = s.resv := rfl
@[simp] theorem destSet_out (k : Nat) (d : Dest) : (destSet s k d).out = s.out := rfl
@[simp] theorem destSet_sup (k : Nat) (d : Dest) : (destSet s k d).sup = s.sup := rfl
@[simp] theorem destSet_tk (k : Nat) (d : Dest) : (destSet s k d).tk = s.tk := rfl
@[simp] theorem destSet_seq (k : Nat) (d : Dest) : (destSet s k d).seq = s.seq := rfl
@[simp] theorem destSet_st (k : Nat) (d : Dest) : (destSet s k d).st = s.st := rfl
@[simp] theorem destSet_fab (k : Nat) (d : Dest) : (destSet s k d).fab = s.fab := rfl
@[simp] theorem destSet_xlt (k : Nat) (d : Dest) : (destSet s k d).xlt = s.xlt := rfl
@[simp] theorem destSet_damp (k : Nat) (d : Dest) : (destSet s k d).damp = s.damp := rfl
@[simp] theorem destSet_reqs (k : Nat) (d : Dest) : (destSet s k d).reqs = s.reqs := rfl
@[simp] theorem destSet_nextReq (k : Nat) (d : Dest) : (destSet s k d).nextReq = s.nextReq := rfl
@[simp] theorem destSet_coh (k : Nat) (d : Dest) : (destSet s k d).coh = s.coh := rfl
@[simp] theorem destSet_ext (k : Nat) (d : Dest) : (destSet s k d).ext = s.ext := rfl
@[simp] theorem destSet_chrn (k : Nat) (d : Dest) : (destSet s k d).chrn = s.chrn := rfl
@[simp] theorem destSet_herd (k : Nat) (d : Dest) : (destSet s k d).herd = s.herd := rfl
@[simp] theorem destSet_hnd (k : Nat) (d : Dest) : (destSet s k d).hnd = s.hnd := rfl

/-! ### sigSet -/

@[simp] theorem sigSet_pending (i : Nat) (x : RingSig) : (sigSet s i x).pending = s.pending := rfl
@[simp] theorem sigSet_time (i : Nat) (x : RingSig) : (sigSet s i x).time = s.time := rfl
@[simp] theorem sigSet_free (i : Nat) (x : RingSig) : (sigSet s i x).free = s.free := rfl
@[simp] theorem sigSet_regs (i : Nat) (x : RingSig) : (sigSet s i x).regs = s.regs := rfl
@[simp] theorem sigSet_mem (i : Nat) (x : RingSig) : (sigSet s i x).mem = s.mem := rfl
@[simp] theorem sigSet_resv (i : Nat) (x : RingSig) : (sigSet s i x).resv = s.resv := rfl
@[simp] theorem sigSet_out (i : Nat) (x : RingSig) : (sigSet s i x).out = s.out := rfl
@[simp] theorem sigSet_sup (i : Nat) (x : RingSig) : (sigSet s i x).sup = s.sup := rfl
@[simp] theorem sigSet_tk (i : Nat) (x : RingSig) : (sigSet s i x).tk = s.tk := rfl
@[simp] theorem sigSet_seq (i : Nat) (x : RingSig) : (sigSet s i x).seq = s.seq := rfl
@[simp] theorem sigSet_st (i : Nat) (x : RingSig) : (sigSet s i x).st = s.st := rfl
@[simp] theorem sigSet_fab (i : Nat) (x : RingSig) : (sigSet s i x).fab = s.fab := rfl
@[simp] theorem sigSet_xlt (i : Nat) (x : RingSig) : (sigSet s i x).xlt = s.xlt := rfl
@[simp] theorem sigSet_damp (i : Nat) (x : RingSig) : (sigSet s i x).damp = s.damp := rfl
@[simp] theorem sigSet_reqs (i : Nat) (x : RingSig) : (sigSet s i x).reqs = s.reqs := rfl
@[simp] theorem sigSet_nextReq (i : Nat) (x : RingSig) : (sigSet s i x).nextReq = s.nextReq := rfl
@[simp] theorem sigSet_coh (i : Nat) (x : RingSig) : (sigSet s i x).coh = s.coh := rfl
@[simp] theorem sigSet_ext (i : Nat) (x : RingSig) : (sigSet s i x).ext = s.ext := rfl
@[simp] theorem sigSet_chrn (i : Nat) (x : RingSig) : (sigSet s i x).chrn = s.chrn := rfl
@[simp] theorem sigSet_herd (i : Nat) (x : RingSig) : (sigSet s i x).herd = s.herd := rfl
@[simp] theorem sigSet_hnd (i : Nat) (x : RingSig) : (sigSet s i x).hnd = s.hnd := rfl

/-! ### dmpSet -/

@[simp] theorem dmpSet_pending (d : Damp) : (dmpSet s d).pending = s.pending := rfl
@[simp] theorem dmpSet_time (d : Damp) : (dmpSet s d).time = s.time := rfl
@[simp] theorem dmpSet_free (d : Damp) : (dmpSet s d).free = s.free := rfl
@[simp] theorem dmpSet_regs (d : Damp) : (dmpSet s d).regs = s.regs := rfl
@[simp] theorem dmpSet_mem (d : Damp) : (dmpSet s d).mem = s.mem := rfl
@[simp] theorem dmpSet_resv (d : Damp) : (dmpSet s d).resv = s.resv := rfl
@[simp] theorem dmpSet_out (d : Damp) : (dmpSet s d).out = s.out := rfl
@[simp] theorem dmpSet_sup (d : Damp) : (dmpSet s d).sup = s.sup := rfl
@[simp] theorem dmpSet_tk (d : Damp) : (dmpSet s d).tk = s.tk := rfl
@[simp] theorem dmpSet_seq (d : Damp) : (dmpSet s d).seq = s.seq := rfl
@[simp] theorem dmpSet_st (d : Damp) : (dmpSet s d).st = s.st := rfl
@[simp] theorem dmpSet_fab (d : Damp) : (dmpSet s d).fab = s.fab := rfl
@[simp] theorem dmpSet_xlt (d : Damp) : (dmpSet s d).xlt = s.xlt := rfl
@[simp] theorem dmpSet_host (d : Damp) : (dmpSet s d).host = s.host := rfl
@[simp] theorem dmpSet_reqs (d : Damp) : (dmpSet s d).reqs = s.reqs := rfl
@[simp] theorem dmpSet_nextReq (d : Damp) : (dmpSet s d).nextReq = s.nextReq := rfl
@[simp] theorem dmpSet_coh (d : Damp) : (dmpSet s d).coh = s.coh := rfl
@[simp] theorem dmpSet_ext (d : Damp) : (dmpSet s d).ext = s.ext := rfl
@[simp] theorem dmpSet_chrn (d : Damp) : (dmpSet s d).chrn = s.chrn := rfl
@[simp] theorem dmpSet_herd (d : Damp) : (dmpSet s d).herd = s.herd := rfl
@[simp] theorem dmpSet_hnd (d : Damp) : (dmpSet s d).hnd = s.hnd := rfl

/-! ### sensorSet -/

@[simp] theorem sensorSet_pending (i : Nat) (x : Sensor) : (sensorSet s i x).pending = s.pending := rfl
@[simp] theorem sensorSet_time (i : Nat) (x : Sensor) : (sensorSet s i x).time = s.time := rfl
@[simp] theorem sensorSet_free (i : Nat) (x : Sensor) : (sensorSet s i x).free = s.free := rfl
@[simp] theorem sensorSet_regs (i : Nat) (x : Sensor) : (sensorSet s i x).regs = s.regs := rfl
@[simp] theorem sensorSet_mem (i : Nat) (x : Sensor) : (sensorSet s i x).mem = s.mem := rfl
@[simp] theorem sensorSet_resv (i : Nat) (x : Sensor) : (sensorSet s i x).resv = s.resv := rfl
@[simp] theorem sensorSet_out (i : Nat) (x : Sensor) : (sensorSet s i x).out = s.out := rfl
@[simp] theorem sensorSet_sup (i : Nat) (x : Sensor) : (sensorSet s i x).sup = s.sup := rfl
@[simp] theorem sensorSet_tk (i : Nat) (x : Sensor) : (sensorSet s i x).tk = s.tk := rfl
@[simp] theorem sensorSet_seq (i : Nat) (x : Sensor) : (sensorSet s i x).seq = s.seq := rfl
@[simp] theorem sensorSet_st (i : Nat) (x : Sensor) : (sensorSet s i x).st = s.st := rfl
@[simp] theorem sensorSet_fab (i : Nat) (x : Sensor) : (sensorSet s i x).fab = s.fab := rfl
@[simp] theorem sensorSet_xlt (i : Nat) (x : Sensor) : (sensorSet s i x).xlt = s.xlt := rfl
@[simp] theorem sensorSet_host (i : Nat) (x : Sensor) : (sensorSet s i x).host = s.host := rfl
@[simp] theorem sensorSet_reqs (i : Nat) (x : Sensor) : (sensorSet s i x).reqs = s.reqs := rfl
@[simp] theorem sensorSet_nextReq (i : Nat) (x : Sensor) : (sensorSet s i x).nextReq = s.nextReq := rfl
@[simp] theorem sensorSet_coh (i : Nat) (x : Sensor) : (sensorSet s i x).coh = s.coh := rfl
@[simp] theorem sensorSet_ext (i : Nat) (x : Sensor) : (sensorSet s i x).ext = s.ext := rfl
@[simp] theorem sensorSet_chrn (i : Nat) (x : Sensor) : (sensorSet s i x).chrn = s.chrn := rfl
@[simp] theorem sensorSet_herd (i : Nat) (x : Sensor) : (sensorSet s i x).herd = s.herd := rfl
@[simp] theorem sensorSet_hnd (i : Nat) (x : Sensor) : (sensorSet s i x).hnd = s.hnd := rfl

/-! ### cohSet -/

@[simp] theorem cohSet_pending (c : Coh) : (cohSet s c).pending = s.pending := rfl
@[simp] theorem cohSet_time (c : Coh) : (cohSet s c).time = s.time := rfl
@[simp] theorem cohSet_free (c : Coh) : (cohSet s c).free = s.free := rfl
@[simp] theorem cohSet_regs (c : Coh) : (cohSet s c).regs = s.regs := rfl
@[simp] theorem cohSet_mem (c : Coh) : (cohSet s c).mem = s.mem := rfl
@[simp] theorem cohSet_resv (c : Coh) : (cohSet s c).resv = s.resv := rfl
@[simp] theorem cohSet_out (c : Coh) : (cohSet s c).out = s.out := rfl
@[simp] theorem cohSet_sup (c : Coh) : (cohSet s c).sup = s.sup := rfl
@[simp] theorem cohSet_tk (c : Coh) : (cohSet s c).tk = s.tk := rfl
@[simp] theorem cohSet_seq (c : Coh) : (cohSet s c).seq = s.seq := rfl
@[simp] theorem cohSet_st (c : Coh) : (cohSet s c).st = s.st := rfl
@[simp] theorem cohSet_fab (c : Coh) : (cohSet s c).fab = s.fab := rfl
@[simp] theorem cohSet_xlt (c : Coh) : (cohSet s c).xlt = s.xlt := rfl
@[simp] theorem cohSet_host (c : Coh) : (cohSet s c).host = s.host := rfl
@[simp] theorem cohSet_damp (c : Coh) : (cohSet s c).damp = s.damp := rfl
@[simp] theorem cohSet_reqs (c : Coh) : (cohSet s c).reqs = s.reqs := rfl
@[simp] theorem cohSet_nextReq (c : Coh) : (cohSet s c).nextReq = s.nextReq := rfl
@[simp] theorem cohSet_ext (c : Coh) : (cohSet s c).ext = s.ext := rfl
@[simp] theorem cohSet_chrn (c : Coh) : (cohSet s c).chrn = s.chrn := rfl
@[simp] theorem cohSet_herd (c : Coh) : (cohSet s c).herd = s.herd := rfl
@[simp] theorem cohSet_hnd (c : Coh) : (cohSet s c).hnd = s.hnd := rfl

/-! ### dirSet -/

@[simp] theorem dirSet_pending (l : Nat) (e : DirE) : (dirSet s l e).pending = s.pending := rfl
@[simp] theorem dirSet_time (l : Nat) (e : DirE) : (dirSet s l e).time = s.time := rfl
@[simp] theorem dirSet_free (l : Nat) (e : DirE) : (dirSet s l e).free = s.free := rfl
@[simp] theorem dirSet_regs (l : Nat) (e : DirE) : (dirSet s l e).regs = s.regs := rfl
@[simp] theorem dirSet_mem (l : Nat) (e : DirE) : (dirSet s l e).mem = s.mem := rfl
@[simp] theorem dirSet_resv (l : Nat) (e : DirE) : (dirSet s l e).resv = s.resv := rfl
@[simp] theorem dirSet_out (l : Nat) (e : DirE) : (dirSet s l e).out = s.out := rfl
@[simp] theorem dirSet_sup (l : Nat) (e : DirE) : (dirSet s l e).sup = s.sup := rfl
@[simp] theorem dirSet_tk (l : Nat) (e : DirE) : (dirSet s l e).tk = s.tk := rfl
@[simp] theorem dirSet_seq (l : Nat) (e : DirE) : (dirSet s l e).seq = s.seq := rfl
@[simp] theorem dirSet_st (l : Nat) (e : DirE) : (dirSet s l e).st = s.st := rfl
@[simp] theorem dirSet_fab (l : Nat) (e : DirE) : (dirSet s l e).fab = s.fab := rfl
@[simp] theorem dirSet_xlt (l : Nat) (e : DirE) : (dirSet s l e).xlt = s.xlt := rfl
@[simp] theorem dirSet_host (l : Nat) (e : DirE) : (dirSet s l e).host = s.host := rfl
@[simp] theorem dirSet_damp (l : Nat) (e : DirE) : (dirSet s l e).damp = s.damp := rfl
@[simp] theorem dirSet_reqs (l : Nat) (e : DirE) : (dirSet s l e).reqs = s.reqs := rfl
@[simp] theorem dirSet_nextReq (l : Nat) (e : DirE) : (dirSet s l e).nextReq = s.nextReq := rfl
@[simp] theorem dirSet_ext (l : Nat) (e : DirE) : (dirSet s l e).ext = s.ext := rfl
@[simp] theorem dirSet_chrn (l : Nat) (e : DirE) : (dirSet s l e).chrn = s.chrn := rfl
@[simp] theorem dirSet_herd (l : Nat) (e : DirE) : (dirSet s l e).herd = s.herd := rfl
@[simp] theorem dirSet_hnd (l : Nat) (e : DirE) : (dirSet s l e).hnd = s.hnd := rfl

/-! ### extSet -/

@[simp] theorem extSet_pending (i : Nat) (x : Ext) : (extSet s i x).pending = s.pending := rfl
@[simp] theorem extSet_time (i : Nat) (x : Ext) : (extSet s i x).time = s.time := rfl
@[simp] theorem extSet_free (i : Nat) (x : Ext) : (extSet s i x).free = s.free := rfl
@[simp] theorem extSet_regs (i : Nat) (x : Ext) : (extSet s i x).regs = s.regs := rfl
@[simp] theorem extSet_mem (i : Nat) (x : Ext) : (extSet s i x).mem = s.mem := rfl
@[simp] theorem extSet_resv (i : Nat) (x : Ext) : (extSet s i x).resv = s.resv := rfl
@[simp] theorem extSet_out (i : Nat) (x : Ext) : (extSet s i x).out = s.out := rfl
@[simp] theorem extSet_sup (i : Nat) (x : Ext) : (extSet s i x).sup = s.sup := rfl
@[simp] theorem extSet_tk (i : Nat) (x : Ext) : (extSet s i x).tk = s.tk := rfl
@[simp] theorem extSet_seq (i : Nat) (x : Ext) : (extSet s i x).seq = s.seq := rfl
@[simp] theorem extSet_st (i : Nat) (x : Ext) : (extSet s i x).st = s.st := rfl
@[simp] theorem extSet_fab (i : Nat) (x : Ext) : (extSet s i x).fab = s.fab := rfl
@[simp] theorem extSet_xlt (i : Nat) (x : Ext) : (extSet s i x).xlt = s.xlt := rfl
@[simp] theorem extSet_host (i : Nat) (x : Ext) : (extSet s i x).host = s.host := rfl
@[simp] theorem extSet_damp (i : Nat) (x : Ext) : (extSet s i x).damp = s.damp := rfl
@[simp] theorem extSet_reqs (i : Nat) (x : Ext) : (extSet s i x).reqs = s.reqs := rfl
@[simp] theorem extSet_nextReq (i : Nat) (x : Ext) : (extSet s i x).nextReq = s.nextReq := rfl
@[simp] theorem extSet_coh (i : Nat) (x : Ext) : (extSet s i x).coh = s.coh := rfl
@[simp] theorem extSet_chrn (i : Nat) (x : Ext) : (extSet s i x).chrn = s.chrn := rfl
@[simp] theorem extSet_herd (i : Nat) (x : Ext) : (extSet s i x).herd = s.herd := rfl
@[simp] theorem extSet_hnd (i : Nat) (x : Ext) : (extSet s i x).hnd = s.hnd := rfl

/-! ### pieceSet -/

@[simp] theorem pieceSet_pending (i : Nat) (x : Piece) : (pieceSet s i x).pending = s.pending := rfl
@[simp] theorem pieceSet_time (i : Nat) (x : Piece) : (pieceSet s i x).time = s.time := rfl
@[simp] theorem pieceSet_free (i : Nat) (x : Piece) : (pieceSet s i x).free = s.free := rfl
@[simp] theorem pieceSet_regs (i : Nat) (x : Piece) : (pieceSet s i x).regs = s.regs := rfl
@[simp] theorem pieceSet_mem (i : Nat) (x : Piece) : (pieceSet s i x).mem = s.mem := rfl
@[simp] theorem pieceSet_resv (i : Nat) (x : Piece) : (pieceSet s i x).resv = s.resv := rfl
@[simp] theorem pieceSet_out (i : Nat) (x : Piece) : (pieceSet s i x).out = s.out := rfl
@[simp] theorem pieceSet_sup (i : Nat) (x : Piece) : (pieceSet s i x).sup = s.sup := rfl
@[simp] theorem pieceSet_tk (i : Nat) (x : Piece) : (pieceSet s i x).tk = s.tk := rfl
@[simp] theorem pieceSet_seq (i : Nat) (x : Piece) : (pieceSet s i x).seq = s.seq := rfl
@[simp] theorem pieceSet_st (i : Nat) (x : Piece) : (pieceSet s i x).st = s.st := rfl
@[simp] theorem pieceSet_fab (i : Nat) (x : Piece) : (pieceSet s i x).fab = s.fab := rfl
@[simp] theorem pieceSet_xlt (i : Nat) (x : Piece) : (pieceSet s i x).xlt = s.xlt := rfl
@[simp] theorem pieceSet_host (i : Nat) (x : Piece) : (pieceSet s i x).host = s.host := rfl
@[simp] theorem pieceSet_damp (i : Nat) (x : Piece) : (pieceSet s i x).damp = s.damp := rfl
@[simp] theorem pieceSet_reqs (i : Nat) (x : Piece) : (pieceSet s i x).reqs = s.reqs := rfl
@[simp] theorem pieceSet_nextReq (i : Nat) (x : Piece) : (pieceSet s i x).nextReq = s.nextReq := rfl
@[simp] theorem pieceSet_coh (i : Nat) (x : Piece) : (pieceSet s i x).coh = s.coh := rfl
@[simp] theorem pieceSet_chrn (i : Nat) (x : Piece) : (pieceSet s i x).chrn = s.chrn := rfl
@[simp] theorem pieceSet_herd (i : Nat) (x : Piece) : (pieceSet s i x).herd = s.herd := rfl
@[simp] theorem pieceSet_hnd (i : Nat) (x : Piece) : (pieceSet s i x).hnd = s.hnd := rfl

/-! ### epochSet -/

@[simp] theorem epochSet_pending (n : Nat) (e : Option (Nat × Nat)) : (epochSet s n e).pending = s.pending := rfl
@[simp] theorem epochSet_time (n : Nat) (e : Option (Nat × Nat)) : (epochSet s n e).time = s.time := rfl
@[simp] theorem epochSet_free (n : Nat) (e : Option (Nat × Nat)) : (epochSet s n e).free = s.free := rfl
@[simp] theorem epochSet_regs (n : Nat) (e : Option (Nat × Nat)) : (epochSet s n e).regs = s.regs := rfl
@[simp] theorem epochSet_mem (n : Nat) (e : Option (Nat × Nat)) : (epochSet s n e).mem = s.mem := rfl
@[simp] theorem epochSet_resv (n : Nat) (e : Option (Nat × Nat)) : (epochSet s n e).resv = s.resv := rfl
@[simp] theorem epochSet_out (n : Nat) (e : Option (Nat × Nat)) : (epochSet s n e).out = s.out := rfl
@[simp] theorem epochSet_sup (n : Nat) (e : Option (Nat × Nat)) : (epochSet s n e).sup = s.sup := rfl
@[simp] theorem epochSet_tk (n : Nat) (e : Option (Nat × Nat)) : (epochSet s n e).tk = s.tk := rfl
@[simp] theorem epochSet_seq (n : Nat) (e : Option (Nat × Nat)) : (epochSet s n e).seq = s.seq := rfl
@[simp] theorem epochSet_st (n : Nat) (e : Option (Nat × Nat)) : (epochSet s n e).st = s.st := rfl
@[simp] theorem epochSet_fab (n : Nat) (e : Option (Nat × Nat)) : (epochSet s n e).fab = s.fab := rfl
@[simp] theorem epochSet_xlt (n : Nat) (e : Option (Nat × Nat)) : (epochSet s n e).xlt = s.xlt := rfl
@[simp] theorem epochSet_host (n : Nat) (e : Option (Nat × Nat)) : (epochSet s n e).host = s.host := rfl
@[simp] theorem epochSet_damp (n : Nat) (e : Option (Nat × Nat)) : (epochSet s n e).damp = s.damp := rfl
@[simp] theorem epochSet_reqs (n : Nat) (e : Option (Nat × Nat)) : (epochSet s n e).reqs = s.reqs := rfl
@[simp] theorem epochSet_nextReq (n : Nat) (e : Option (Nat × Nat)) : (epochSet s n e).nextReq = s.nextReq := rfl
@[simp] theorem epochSet_coh (n : Nat) (e : Option (Nat × Nat)) : (epochSet s n e).coh = s.coh := rfl
@[simp] theorem epochSet_chrn (n : Nat) (e : Option (Nat × Nat)) : (epochSet s n e).chrn = s.chrn := rfl
@[simp] theorem epochSet_herd (n : Nat) (e : Option (Nat × Nat)) : (epochSet s n e).herd = s.herd := rfl
@[simp] theorem epochSet_hnd (n : Nat) (e : Option (Nat × Nat)) : (epochSet s n e).hnd = s.hnd := rfl

/-! ### hoSet -/

@[simp] theorem hoSet_pending (h : Ho) : (hoSet s h).pending = s.pending := rfl
@[simp] theorem hoSet_time (h : Ho) : (hoSet s h).time = s.time := rfl
@[simp] theorem hoSet_free (h : Ho) : (hoSet s h).free = s.free := rfl
@[simp] theorem hoSet_regs (h : Ho) : (hoSet s h).regs = s.regs := rfl
@[simp] theorem hoSet_mem (h : Ho) : (hoSet s h).mem = s.mem := rfl
@[simp] theorem hoSet_resv (h : Ho) : (hoSet s h).resv = s.resv := rfl
@[simp] theorem hoSet_out (h : Ho) : (hoSet s h).out = s.out := rfl
@[simp] theorem hoSet_sup (h : Ho) : (hoSet s h).sup = s.sup := rfl
@[simp] theorem hoSet_tk (h : Ho) : (hoSet s h).tk = s.tk := rfl
@[simp] theorem hoSet_seq (h : Ho) : (hoSet s h).seq = s.seq := rfl
@[simp] theorem hoSet_st (h : Ho) : (hoSet s h).st = s.st := rfl
@[simp] theorem hoSet_fab (h : Ho) : (hoSet s h).fab = s.fab := rfl
@[simp] theorem hoSet_xlt (h : Ho) : (hoSet s h).xlt = s.xlt := rfl
@[simp] theorem hoSet_host (h : Ho) : (hoSet s h).host = s.host := rfl
@[simp] theorem hoSet_damp (h : Ho) : (hoSet s h).damp = s.damp := rfl
@[simp] theorem hoSet_reqs (h : Ho) : (hoSet s h).reqs = s.reqs := rfl
@[simp] theorem hoSet_nextReq (h : Ho) : (hoSet s h).nextReq = s.nextReq := rfl
@[simp] theorem hoSet_coh (h : Ho) : (hoSet s h).coh = s.coh := rfl
@[simp] theorem hoSet_chrn (h : Ho) : (hoSet s h).chrn = s.chrn := rfl
@[simp] theorem hoSet_herd (h : Ho) : (hoSet s h).herd = s.herd := rfl
@[simp] theorem hoSet_hnd (h : Ho) : (hoSet s h).hnd = s.hnd := rfl

/-! ### chrnSet -/

@[simp] theorem chrnSet_pending (c : Churn) : (chrnSet s c).pending = s.pending := rfl
@[simp] theorem chrnSet_time (c : Churn) : (chrnSet s c).time = s.time := rfl
@[simp] theorem chrnSet_free (c : Churn) : (chrnSet s c).free = s.free := rfl
@[simp] theorem chrnSet_regs (c : Churn) : (chrnSet s c).regs = s.regs := rfl
@[simp] theorem chrnSet_mem (c : Churn) : (chrnSet s c).mem = s.mem := rfl
@[simp] theorem chrnSet_resv (c : Churn) : (chrnSet s c).resv = s.resv := rfl
@[simp] theorem chrnSet_out (c : Churn) : (chrnSet s c).out = s.out := rfl
@[simp] theorem chrnSet_sup (c : Churn) : (chrnSet s c).sup = s.sup := rfl
@[simp] theorem chrnSet_tk (c : Churn) : (chrnSet s c).tk = s.tk := rfl
@[simp] theorem chrnSet_seq (c : Churn) : (chrnSet s c).seq = s.seq := rfl
@[simp] theorem chrnSet_st (c : Churn) : (chrnSet s c).st = s.st := rfl
@[simp] theorem chrnSet_fab (c : Churn) : (chrnSet s c).fab = s.fab := rfl
@[simp] theorem chrnSet_xlt (c : Churn) : (chrnSet s c).xlt = s.xlt := rfl
@[simp] theorem chrnSet_host (c : Churn) : (chrnSet s c).host = s.host := rfl
@[simp] theorem chrnSet_damp (c : Churn) : (chrnSet s c).damp = s.damp := rfl
@[simp] theorem chrnSet_reqs (c : Churn) : (chrnSet s c).reqs = s.reqs := rfl
@[simp] theorem chrnSet_nextReq (c : Churn) : (chrnSet s c).nextReq = s.nextReq := rfl
@[simp] theorem chrnSet_coh (c : Churn) : (chrnSet s c).coh = s.coh := rfl
@[simp] theorem chrnSet_ext (c : Churn) : (chrnSet s c).ext = s.ext := rfl
@[simp] theorem chrnSet_herd (c : Churn) : (chrnSet s c).herd = s.herd := rfl
@[simp] theorem chrnSet_hnd (c : Churn) : (chrnSet s c).hnd = s.hnd := rfl

/-! ### herdSet -/

@[simp] theorem herdSet_pending (j : Nat) (h : Herd) : (herdSet s j h).pending = s.pending := rfl
@[simp] theorem herdSet_time (j : Nat) (h : Herd) : (herdSet s j h).time = s.time := rfl
@[simp] theorem herdSet_free (j : Nat) (h : Herd) : (herdSet s j h).free = s.free := rfl
@[simp] theorem herdSet_regs (j : Nat) (h : Herd) : (herdSet s j h).regs = s.regs := rfl
@[simp] theorem herdSet_mem (j : Nat) (h : Herd) : (herdSet s j h).mem = s.mem := rfl
@[simp] theorem herdSet_resv (j : Nat) (h : Herd) : (herdSet s j h).resv = s.resv := rfl
@[simp] theorem herdSet_out (j : Nat) (h : Herd) : (herdSet s j h).out = s.out := rfl
@[simp] theorem herdSet_sup (j : Nat) (h : Herd) : (herdSet s j h).sup = s.sup := rfl
@[simp] theorem herdSet_tk (j : Nat) (h : Herd) : (herdSet s j h).tk = s.tk := rfl
@[simp] theorem herdSet_seq (j : Nat) (h : Herd) : (herdSet s j h).seq = s.seq := rfl
@[simp] theorem herdSet_st (j : Nat) (h : Herd) : (herdSet s j h).st = s.st := rfl
@[simp] theorem herdSet_fab (j : Nat) (h : Herd) : (herdSet s j h).fab = s.fab := rfl
@[simp] theorem herdSet_xlt (j : Nat) (h : Herd) : (herdSet s j h).xlt = s.xlt := rfl
@[simp] theorem herdSet_host (j : Nat) (h : Herd) : (herdSet s j h).host = s.host := rfl
@[simp] theorem herdSet_damp (j : Nat) (h : Herd) : (herdSet s j h).damp = s.damp := rfl
@[simp] theorem herdSet_reqs (j : Nat) (h : Herd) : (herdSet s j h).reqs = s.reqs := rfl
@[simp] theorem herdSet_nextReq (j : Nat) (h : Herd) : (herdSet s j h).nextReq = s.nextReq := rfl
@[simp] theorem herdSet_coh (j : Nat) (h : Herd) : (herdSet s j h).coh = s.coh := rfl
@[simp] theorem herdSet_ext (j : Nat) (h : Herd) : (herdSet s j h).ext = s.ext := rfl
@[simp] theorem herdSet_chrn (j : Nat) (h : Herd) : (herdSet s j h).chrn = s.chrn := rfl
@[simp] theorem herdSet_hnd (j : Nat) (h : Herd) : (herdSet s j h).hnd = s.hnd := rfl

/-! ### vtSet -/

@[simp] theorem vtSet_pending (h : Nat) (v : Vt) : (vtSet s h v).pending = s.pending := rfl
@[simp] theorem vtSet_time (h : Nat) (v : Vt) : (vtSet s h v).time = s.time := rfl
@[simp] theorem vtSet_free (h : Nat) (v : Vt) : (vtSet s h v).free = s.free := rfl
@[simp] theorem vtSet_regs (h : Nat) (v : Vt) : (vtSet s h v).regs = s.regs := rfl
@[simp] theorem vtSet_mem (h : Nat) (v : Vt) : (vtSet s h v).mem = s.mem := rfl
@[simp] theorem vtSet_resv (h : Nat) (v : Vt) : (vtSet s h v).resv = s.resv := rfl
@[simp] theorem vtSet_out (h : Nat) (v : Vt) : (vtSet s h v).out = s.out := rfl
@[simp] theorem vtSet_sup (h : Nat) (v : Vt) : (vtSet s h v).sup = s.sup := rfl
@[simp] theorem vtSet_tk (h : Nat) (v : Vt) : (vtSet s h v).tk = s.tk := rfl
@[simp] theorem vtSet_seq (h : Nat) (v : Vt) : (vtSet s h v).seq = s.seq := rfl
@[simp] theorem vtSet_st (h : Nat) (v : Vt) : (vtSet s h v).st = s.st := rfl
@[simp] theorem vtSet_fab (h : Nat) (v : Vt) : (vtSet s h v).fab = s.fab := rfl
@[simp] theorem vtSet_xlt (h : Nat) (v : Vt) : (vtSet s h v).xlt = s.xlt := rfl
@[simp] theorem vtSet_host (h : Nat) (v : Vt) : (vtSet s h v).host = s.host := rfl
@[simp] theorem vtSet_damp (h : Nat) (v : Vt) : (vtSet s h v).damp = s.damp := rfl
@[simp] theorem vtSet_reqs (h : Nat) (v : Vt) : (vtSet s h v).reqs = s.reqs := rfl
@[simp] theorem vtSet_nextReq (h : Nat) (v : Vt) : (vtSet s h v).nextReq = s.nextReq := rfl
@[simp] theorem vtSet_coh (h : Nat) (v : Vt) : (vtSet s h v).coh = s.coh := rfl
@[simp] theorem vtSet_ext (h : Nat) (v : Vt) : (vtSet s h v).ext = s.ext := rfl
@[simp] theorem vtSet_chrn (h : Nat) (v : Vt) : (vtSet s h v).chrn = s.chrn := rfl
@[simp] theorem vtSet_herd (h : Nat) (v : Vt) : (vtSet s h v).herd = s.herd := rfl

/-! ### collSet -/

@[simp] theorem collSet_pending (h : Nat) (c : Coll) : (collSet s h c).pending = s.pending := rfl
@[simp] theorem collSet_time (h : Nat) (c : Coll) : (collSet s h c).time = s.time := rfl
@[simp] theorem collSet_free (h : Nat) (c : Coll) : (collSet s h c).free = s.free := rfl
@[simp] theorem collSet_regs (h : Nat) (c : Coll) : (collSet s h c).regs = s.regs := rfl
@[simp] theorem collSet_mem (h : Nat) (c : Coll) : (collSet s h c).mem = s.mem := rfl
@[simp] theorem collSet_resv (h : Nat) (c : Coll) : (collSet s h c).resv = s.resv := rfl
@[simp] theorem collSet_out (h : Nat) (c : Coll) : (collSet s h c).out = s.out := rfl
@[simp] theorem collSet_sup (h : Nat) (c : Coll) : (collSet s h c).sup = s.sup := rfl
@[simp] theorem collSet_tk (h : Nat) (c : Coll) : (collSet s h c).tk = s.tk := rfl
@[simp] theorem collSet_seq (h : Nat) (c : Coll) : (collSet s h c).seq = s.seq := rfl
@[simp] theorem collSet_st (h : Nat) (c : Coll) : (collSet s h c).st = s.st := rfl
@[simp] theorem collSet_fab (h : Nat) (c : Coll) : (collSet s h c).fab = s.fab := rfl
@[simp] theorem collSet_xlt (h : Nat) (c : Coll) : (collSet s h c).xlt = s.xlt := rfl
@[simp] theorem collSet_host (h : Nat) (c : Coll) : (collSet s h c).host = s.host := rfl
@[simp] theorem collSet_damp (h : Nat) (c : Coll) : (collSet s h c).damp = s.damp := rfl
@[simp] theorem collSet_reqs (h : Nat) (c : Coll) : (collSet s h c).reqs = s.reqs := rfl
@[simp] theorem collSet_nextReq (h : Nat) (c : Coll) : (collSet s h c).nextReq = s.nextReq := rfl
@[simp] theorem collSet_coh (h : Nat) (c : Coll) : (collSet s h c).coh = s.coh := rfl
@[simp] theorem collSet_ext (h : Nat) (c : Coll) : (collSet s h c).ext = s.ext := rfl
@[simp] theorem collSet_chrn (h : Nat) (c : Coll) : (collSet s h c).chrn = s.chrn := rfl
@[simp] theorem collSet_herd (h : Nat) (c : Coll) : (collSet s h c).herd = s.herd := rfl

/-! ### What a command's row keeps -/

@[simp] theorem under_pending (t : State) : (t.under s).pending = s.pending := rfl
@[simp] theorem under_time (t : State) : (t.under s).time = t.time := rfl
@[simp] theorem under_free (t : State) : (t.under s).free = t.free := rfl
@[simp] theorem under_regs (t : State) : (t.under s).regs = t.regs := rfl
@[simp] theorem under_mem (t : State) : (t.under s).mem = t.mem := rfl
@[simp] theorem under_resv (t : State) : (t.under s).resv = t.resv := rfl
@[simp] theorem under_out (t : State) : (t.under s).out = t.out := rfl
@[simp] theorem under_sup (t : State) : (t.under s).sup = s.sup := rfl
@[simp] theorem under_tk (t : State) : (t.under s).tk = t.tk := rfl
@[simp] theorem under_seq (t : State) : (t.under s).seq = t.seq := rfl
@[simp] theorem under_st (t : State) : (t.under s).st = t.st := rfl
@[simp] theorem under_fab (t : State) : (t.under s).fab = t.fab := rfl
@[simp] theorem under_xlt (t : State) : (t.under s).xlt = t.xlt := rfl
@[simp] theorem under_host (t : State) : (t.under s).host = t.host := rfl
@[simp] theorem under_damp (t : State) : (t.under s).damp = t.damp := rfl
@[simp] theorem under_reqs (t : State) : (t.under s).reqs = t.reqs := rfl
@[simp] theorem under_nextReq (t : State) : (t.under s).nextReq = t.nextReq := rfl
@[simp] theorem under_coh (t : State) : (t.under s).coh = t.coh := rfl
@[simp] theorem under_ext (t : State) : (t.under s).ext = t.ext := rfl
@[simp] theorem under_chrn (t : State) : (t.under s).chrn = t.chrn := rfl
@[simp] theorem under_herd (t : State) : (t.under s).herd = t.herd := rfl
@[simp] theorem under_hnd (t : State) : (t.under s).hnd = t.hnd := rfl
@[simp] theorem queued_pending (t : State) : (t.queued s).pending = s.pending := rfl
@[simp] theorem queued_time (t : State) : (t.queued s).time = t.time := rfl
@[simp] theorem queued_free (t : State) : (t.queued s).free = t.free := rfl
@[simp] theorem queued_regs (t : State) : (t.queued s).regs = t.regs := rfl
@[simp] theorem queued_mem (t : State) : (t.queued s).mem = t.mem := rfl
@[simp] theorem queued_resv (t : State) : (t.queued s).resv = t.resv := rfl
@[simp] theorem queued_out (t : State) : (t.queued s).out = t.out := rfl
@[simp] theorem queued_sup (t : State) : (t.queued s).sup = t.sup := rfl
@[simp] theorem queued_tk (t : State) : (t.queued s).tk = t.tk := rfl
@[simp] theorem queued_seq (t : State) : (t.queued s).seq = t.seq := rfl
@[simp] theorem queued_st (t : State) : (t.queued s).st = t.st := rfl
@[simp] theorem queued_fab (t : State) : (t.queued s).fab = t.fab := rfl
@[simp] theorem queued_xlt (t : State) : (t.queued s).xlt = t.xlt := rfl
@[simp] theorem queued_host (t : State) : (t.queued s).host = t.host := rfl
@[simp] theorem queued_damp (t : State) : (t.queued s).damp = t.damp := rfl
@[simp] theorem queued_reqs (t : State) : (t.queued s).reqs = t.reqs := rfl
@[simp] theorem queued_nextReq (t : State) : (t.queued s).nextReq = t.nextReq := rfl
@[simp] theorem queued_coh (t : State) : (t.queued s).coh = t.coh := rfl
@[simp] theorem queued_ext (t : State) : (t.queued s).ext = t.ext := rfl
@[simp] theorem queued_chrn (t : State) : (t.queued s).chrn = t.chrn := rfl
@[simp] theorem queued_herd (t : State) : (t.queued s).herd = t.herd := rfl
@[simp] theorem queued_hnd (t : State) : (t.queued s).hnd = t.hnd := rfl

end Sys2Proof.Laws
end

