-- ==== Sys2Proof/Laws/Gates.lean ====
section
/-! SUPPORT. Laws/Gates.lean: what the ways a command reaches the hub can do, said once: the power gate, the mailbox gate and the
port a cell arrives at. -/

namespace Sys2Proof.Laws

open Sys2Proof Sys2Proof.Machine

variable {s : State} {f : State → State} {mb : Mbx} {iss : Issuer}

/-! ### The power gate -/

theorem hubOnly_on (h : s.on = true) : hubOnly f s = .next ((f s).under s) := by simp [hubOnly, h, State.under]
theorem hubOnly_off (h : s.on = false) : hubOnly f s = .next s := by simp [hubOnly, h]
theorem supOn_on (h : s.on = true) : supOn f s = .next ((f s).queued s) := by simp [supOn, h, State.queued]
theorem supOn_off (h : s.on = false) : supOn f s = .next s := by simp [supOn, h]
theorem supAny_eq : supAny f s = .next ((f s).queued s) := rfl
theorem mbxOnly_eq : mbxOnly mb f s = .next ((mbxGate mb f s).under s) := rfl
theorem mbxSup_eq : mbxSup mb f s = .next ((mbxGate mb f s).queued s) := rfl

/-- Each way a command reaches the hub answers a next state, with the queue it found. -/
theorem hubOnly_next : ∃ t, hubOnly f s = .next t ∧ t.pending = s.pending ∧ t.sup = s.sup := by
  cases h : s.on
  · exact ⟨s, hubOnly_off h, rfl, rfl⟩
  · exact ⟨_, hubOnly_on h, rfl, rfl⟩
theorem supOn_next : ∃ t, supOn f s = .next t ∧ t.pending = s.pending := by
  cases h : s.on
  · exact ⟨s, supOn_off h, rfl⟩
  · exact ⟨_, supOn_on h, rfl⟩
theorem mbxOnly_next : ∃ t, mbxOnly mb f s = .next t ∧ t.pending = s.pending ∧ t.sup = s.sup := ⟨_, rfl, rfl, rfl⟩
theorem mbxSup_next : ∃ t, mbxSup mb f s = .next t ∧ t.pending = s.pending := ⟨_, rfl, rfl⟩
theorem supAny_next : ∃ t, supAny f s = .next t ∧ t.pending = s.pending := ⟨_, rfl, rfl⟩

/-! ### The mailbox gate -/

/-- Without main power a mailbox command answers at most a refusal to the sideband. -/
theorem mbxGate_off (h : s.on = false) : mbxGate mb f s = if mb = .sideband ∧ s.sup.aux = true then s.emit (.sideband (natLe 1 St.power)) else s := by
  by_cases hm : mb = .sideband <;> cases ha : s.sup.aux <;> simp [mbxGate, sbRefusal, h, hm, ha]

@[simp] theorem mbxIn_sup : (mbxIn mb s).sup = s.sup := by unfold mbxIn; split <;> rfl
@[simp] theorem mbxIn_ld (i : Nat) : mbxIn (.ld i) s = s := by simp [mbxIn]
@[simp] theorem mbxIn_fm : mbxIn .fm s = s := by simp [mbxIn]
@[simp] theorem mbxIn_regs : (mbxIn mb s).regs = s.regs := by unfold mbxIn; split <;> rfl
@[simp] theorem mbxIn_time : (mbxIn mb s).time = s.time := by unfold mbxIn; split <;> rfl
@[simp] theorem mbxIn_core : (mbxIn mb s).core = s.core := by unfold mbxIn; split <;> rfl

/-- A vendor command that is ready reaches its own effect. -/
theorem gate_vendor (h : vendorReady mb iss s) : mbxGate mb (vendor mb iss f) s = f (mbxIn mb s) := by
  obtain ⟨⟨h1, h2, h3, h4⟩, h5, h6⟩ := h
  by_cases hm : mb = .sideband
  · obtain ⟨ha, hb⟩ := h2 hm
    subst hm
    simp [mbxGate, mbxIn, vendor, sbRefusal, h1, ha, hb, sbGo, State.emit] at *
    simp [h3, h4, ldRefusal]
    have : issuerOk s .sideband iss = true := h6
    revert this; cases iss <;> simp [issuerOk]
  · simp only [mbxGate, mbxIn, hm, h1, vendor, h3, h4, h5, h6, if_true, if_false, Bool.false_eq_true]

/-- A CXL command that is ready reaches its own effect. -/
theorem gate_cxl (h : cxlReady mb s) : mbxGate mb (cxlCmd mb f) s = f (mbxIn mb s) := by
  obtain ⟨⟨h1, h2, h3, h4⟩, h5, h6⟩ := h
  by_cases hm : mb = .sideband
  · obtain ⟨ha, hb⟩ := h2 hm
    subst hm
    simp [mbxGate, mbxIn, cxlCmd, sbRefusal, h1, ha, hb, sbGo, State.emit] at *
    simp [h3, h4, ldRefusal]
  · simp only [mbxGate, mbxIn, hm, h1, cxlCmd, h3, h4, h5, h6, if_true, if_false, Bool.false_eq_true]

/-- A vendor command of a running hub is answered: its effect, or one of the refusals of R418, R423, R427 and R494. -/
theorem vendor_cases (s : State) : vendor mb iss f s = f s ∨ vendor mb iss f s = s.cxl mb .busy ∨ ∃ st ∈ [St.busy, St.rights, St.unmapped, St.quiescing], vendor mb iss f s = s.reply mb st := by
  unfold vendor
  split
  · exact .inr (.inl rfl)
  · split
    · exact .inr (.inr ⟨St.busy, by simp, rfl⟩)
    · split
      · rename_i st hst
        refine .inr (.inr ⟨st, ?_, rfl⟩)
        unfold ldRefusal at hst
        split at hst
        · split at hst <;> simp_all
        · simp at hst
      · split
        · exact .inl rfl
        · exact .inr (.inr ⟨St.rights, by simp, rfl⟩)

/-! ### A cell at its port -/

/-- A row that carries one cell: its work at its home, its way on, or the port's discard. -/
theorem arriveHere_here {g : Cell → State → State} {inp : Nat} {c a : Cell} {u : State} (h : ingress s inp c = (some a, u)) (hr : routeOf u a = .here) :
    arriveHere g inp c s = giveBack (g a u) inp a.vn := by simp [arriveHere, h, hr]
theorem arriveHere_drop {g : Cell → State → State} {inp : Nat} {c : Cell} {u : State} (h : ingress s inp c = (none, u)) : arriveHere g inp c s = u := by simp [arriveHere, h]

end Sys2Proof.Laws
end

