-- ==== Sys2Proof/Laws/Memory.lean ====
section
/-! SUPPORT. Laws/Memory.lean: reading a sparse table after setting it, and the canonical form, which every operation over memory
keeps. -/

namespace Sys2Proof.Laws

open Sys2Proof Sys2Proof.Machine

variable {α : Type} [DecidableEq α] {d : Nat → α}

/-! ### Tables -/

theorem smWf_nil : smWf d ([] : SMap α) := ⟨List.Pairwise.nil, by simp⟩

theorem smWf_tail {e : Nat × α} {m : SMap α} (h : smWf d (e :: m)) : smWf d m :=
  ⟨(List.pairwise_cons.1 h.1).2, fun x hx => h.2 x (List.mem_cons_of_mem _ hx)⟩

omit [DecidableEq α] in
/-- A key below every listed key is not listed. -/
theorem smGet_low {m : SMap α} {k : Nat} (h : ∀ e ∈ m, k < e.1) : smGet d m k = d k := by
  induction m with
  | nil => rfl
  | cons e m ih =>
    have h1 : e.1 ≠ k := Nat.ne_of_gt (h e (List.mem_cons_self ..))
    simp only [smGet, h1, if_false]
    exact ih (fun x hx => h x (List.mem_cons_of_mem _ hx))

/-- Keys a set table lists: those listed before, and the key set. -/
theorem smSet_keys {m : SMap α} {k : Nat} {v : α} : ∀ e ∈ smSet d m k v, e.1 = k ∨ e ∈ m := by
  induction m with
  | nil => intro e h; unfold smSet at h; split at h <;> simp_all
  | cons x m ih =>
    intro e h
    unfold smSet at h
    split at h
    · split at h
      · exact .inr h
      · rcases List.mem_cons.1 h with rfl | h
        · exact .inl rfl
        · exact .inr h
    · split at h
      · split at h
        · exact .inr (List.mem_cons_of_mem _ h)
        · rcases List.mem_cons.1 h with rfl | h
          · exact .inl rfl
          · exact .inr (List.mem_cons_of_mem _ h)
      · rcases List.mem_cons.1 h with rfl | h
        · simp
        · rcases ih e h with h | h <;> simp [h]

/-- Setting a key keeps the canonical form. -/
theorem smSet_wf {m : SMap α} (h : smWf d m) (k : Nat) (v : α) : smWf d (smSet d m k v) := by
  induction m with
  | nil => unfold smSet; split <;> simp_all [smWf]
  | cons x m ih =>
    obtain ⟨hp, hv⟩ := h
    have hp' := List.pairwise_cons.1 hp
    have hm := smWf_tail ⟨hp, hv⟩
    unfold smSet
    split
    · rename_i hk
      split
      · exact ⟨hp, hv⟩
      · refine ⟨List.pairwise_cons.2 ⟨?_, hp⟩, ?_⟩
        · intro e he
          rcases List.mem_cons.1 he with rfl | he
          · exact hk
          · exact Nat.lt_trans hk (hp'.1 e he)
        · intro e he
          rcases List.mem_cons.1 he with rfl | he
          · assumption
          · exact hv e he
    · rename_i hk
      split
      · rename_i hk
        split
        · exact hm
        · refine ⟨List.pairwise_cons.2 ⟨?_, hp'.2⟩, ?_⟩
          · intro e he; simp only [hk]; exact hp'.1 e he
          · intro e he
            rcases List.mem_cons.1 he with rfl | he
            · assumption
            · exact hm.2 e he
      · refine ⟨List.pairwise_cons.2 ⟨?_, (ih hm).1⟩, ?_⟩
        · intro e he
          rcases smSet_keys e he with h | h
          · rw [h]; omega
          · exact hp'.1 e h
        · intro e he
          rcases List.mem_cons.1 he with rfl | he
          · exact hv _ (List.mem_cons_self ..)
          · exact (ih hm).2 e he

/-- What a table in canonical form holds once a key is set. -/
theorem smGet_smSet {m : SMap α} (h : smWf d m) (k : Nat) (v : α) (j : Nat) : smGet d (smSet d m k v) j = if j = k then v else smGet d m j := by
  induction m with
  | nil =>
    by_cases hv : v = d k <;> by_cases hj : j = k <;> simp [smSet, smGet, hv, hj]
    intro hc; exact absurd hc.symm hj
  | cons x m ih =>
    obtain ⟨hp, hv⟩ := h
    have hp' := List.pairwise_cons.1 hp
    have hm := smWf_tail ⟨hp, hv⟩
    unfold smSet
    split
    · rename_i hk
      have low : smGet d (x :: m) k = d k := smGet_low (by
        intro e he
        rcases List.mem_cons.1 he with rfl | he
        · exact hk
        · exact Nat.lt_trans hk (hp'.1 e he))
      split
      · rename_i hd
        by_cases hj : j = k
        · subst hj; rw [low, if_pos rfl, hd]
        · rw [if_neg hj]
      · by_cases hj : j = k
        · subst hj; simp [smGet]
        · have : k ≠ j := fun h => hj h.symm
          simp [smGet, this, hj]
    · rename_i hk
      split
      · rename_i hk
        split
        · rename_i hd
          by_cases hj : j = k
          · subst hj; rw [if_pos rfl, hd]; exact smGet_low (by intro e he; rw [hk]; exact hp'.1 e he)
          · have : x.1 ≠ j := by rw [← hk]; exact fun h => hj h.symm
            rw [if_neg hj]; simp [smGet, this]
        · by_cases hj : j = k
          · subst hj; simp [smGet]
          · have h1 : x.1 ≠ j := by rw [← hk]; exact fun h => hj h.symm
            have h2 : k ≠ j := fun h => hj h.symm
            simp [smGet, h1, h2, hj]
      · rename_i hk2
        by_cases hx : x.1 = j
        · have : j ≠ k := by rw [← hx]; exact fun h => hk2 h.symm
          simp [smGet, hx, this]
        · simp only [smGet, hx, if_false]; exact ih hm

theorem smGet_smSet_same {m : SMap α} (h : smWf d m) (k : Nat) (v : α) : smGet d (smSet d m k v) k = v := by simp [smGet_smSet h]
theorem smGet_smSet_other {m : SMap α} (h : smWf d m) {k j : Nat} (hj : j ≠ k) (v : α) : smGet d (smSet d m k v) j = smGet d m j := by simp [smGet_smSet h, hj]

/-- Leaving entries out keeps the canonical form. -/
theorem smWf_filter {m : SMap α} (h : smWf d m) (p : Nat × α → Bool) : smWf d (m.filter p) :=
  ⟨h.1.filter p, fun e he => h.2 e (List.mem_of_mem_filter he)⟩

/-! ### Memory -/

theorem write_wf {m : List Host.Cell} (h : Memory.wf m) (a : Nat) (b : Byte) : Memory.wf (Memory.write m a b) := smSet_wf h a b

theorem writeN_wf {m : List Host.Cell} (h : Memory.wf m) (a : Nat) (l : List Byte) : Memory.wf (Memory.writeN m a l) := by
  induction l generalizing m a with
  | nil => exact h
  | cons b l ih => exact ih (write_wf h a b) (a + 1)

theorem read_write {m : List Host.Cell} (h : Memory.wf m) (a : Nat) (b : Byte) (x : Nat) : Memory.read (Memory.write m a b) x = if x = a then b else Memory.read m x := smGet_smSet h a b x

theorem slotWrite_wf {s : State} (h : Memory.wf s.mem) (l o : Nat) (x : List Byte) : Memory.wf (s.slotWrite l o x).mem := writeN_wf h _ x
theorem slotZero_wf {s : State} (h : Memory.wf s.mem) (l : Nat) : Memory.wf (s.slotZero l).mem := smWf_filter h _
theorem resvWrite_wf {s : State} (h : Memory.wf s.resv) (a : Nat) (x : List Byte) : Memory.wf (s.resvWrite a x).resv := writeN_wf h _ x

/-- A slot written whole keeps the canonical form. -/
theorem slotFill_wf {s : State} (h : Memory.wf s.mem) (l : Nat) (x : List Byte) : Memory.wf (slotFill s l x).mem := by
  have hn : ∀ (r : List Nat) (x : List Byte), (∀ a ∈ r, a < 65536) → r.Pairwise (· < ·) →
      ∀ n, n = (r.zip x).filterMap (fun e => if e.2 = 0 then none else some (l * 65536 + e.1, e.2)) →
      n.Pairwise (fun a b => a.1 < b.1) ∧ (∀ e ∈ n, e.2 ≠ 0) ∧ ∀ e ∈ n, ∃ a ∈ r, e.1 = l * 65536 + a := by
    intro r
    induction r with
    | nil => intro x _ _ n hn; subst hn; simp
    | cons a r ih =>
      intro x hr hp n hn
      cases x with
      | nil => subst hn; simp
      | cons b x =>
        obtain ⟨i1, i2, i3⟩ := ih x (fun y hy => hr y (List.mem_cons_of_mem _ hy)) (List.pairwise_cons.1 hp).2 _ rfl
        by_cases hb : b = 0
        · subst hn; simp only [List.zip_cons_cons, List.filterMap_cons, hb, if_true]
          exact ⟨i1, i2, fun e he => by obtain ⟨y, hy, h⟩ := i3 e he; exact ⟨y, List.mem_cons_of_mem _ hy, h⟩⟩
        · subst hn; simp only [List.zip_cons_cons, List.filterMap_cons, hb, if_false]
          refine ⟨List.pairwise_cons.2 ⟨?_, i1⟩, ?_, ?_⟩
          · intro e he; obtain ⟨y, hy, h⟩ := i3 e he; rw [h]; have := (List.pairwise_cons.1 hp).1 y hy; show l * 65536 + a < _; omega
          · intro e he; rcases List.mem_cons.1 he with rfl | he
            · exact hb
            · exact i2 e he
          · intro e he; rcases List.mem_cons.1 he with rfl | he
            · exact ⟨a, List.mem_cons_self .., rfl⟩
            · obtain ⟨y, hy, h⟩ := i3 e he; exact ⟨y, List.mem_cons_of_mem _ hy, h⟩
  obtain ⟨n1, n2, n3⟩ := hn (List.range 65536) x (fun a ha => List.mem_range.1 ha) List.pairwise_lt_range _ rfl
  obtain ⟨hp, hv⟩ := h
  refine ⟨?_, ?_⟩
  · simp only [slotFill, List.pairwise_append]
    refine ⟨⟨hp.filter _, n1, ?_⟩, hp.filter _, ?_⟩
    · intro a ha b hb
      have := (List.mem_filter.1 ha).2; simp only [decide_eq_true_eq] at this
      obtain ⟨y, _, h⟩ := n3 b hb; omega
    · intro a ha b hb
      have h1 := (List.mem_filter.1 hb).2; simp only [decide_eq_true_eq] at h1
      rcases List.mem_append.1 ha with ha | ha
      · have := (List.mem_filter.1 ha).2; simp only [decide_eq_true_eq] at this; omega
      · obtain ⟨y, hy, h⟩ := n3 a ha; have := List.mem_range.1 hy; omega
  · intro e he
    simp only [slotFill] at he
    rcases List.mem_append.1 he with he | he
    · rcases List.mem_append.1 he with he | he
      · exact hv e (List.mem_of_mem_filter he)
      · exact n2 e he
    · exact hv e (List.mem_of_mem_filter he)

/-- Memory after reset is in canonical form. -/
theorem reset_wf : Memory.wf State.reset.mem ∧ Memory.wf State.reset.resv := ⟨smWf_nil, smWf_nil⟩

end Sys2Proof.Laws
end

