-- ==== Sys2Proof/Laws/Notice.lean ====
section
/-! SUPPORT. Laws/Notice.lean: notices, counters and answers leave the hub's core as it was. -/

namespace Sys2Proof.Laws

open Sys2Proof Sys2Proof.Machine

variable (s : State)

theorem foldl_core {α : Type} {f : State → α → State} (h : ∀ s a, (f s a).core = s.core) (l : List α) (s : State) : (l.foldl f s).core = s.core := by
  induction l generalizing s with
  | nil => rfl
  | cons a l ih => simp only [List.foldl_cons, ih, h]

@[simp] theorem setReg_core (a : Nat) (v : BitVec 64) : (s.setReg a v).core = s.core := rfl
@[simp] theorem put_core (f : Fld) (v : Nat) : (s.put f v).core = s.core := rfl
@[simp] theorem bump_core (f : Fld) (n : Nat) : (s.bump f n).core = s.core := rfl
@[simp] theorem emit_core (e : Emit) : (s.emit e).core = s.core := rfl
@[simp] theorem resvWrite_core (a : Nat) (d : List Byte) : (s.resvWrite a d).core = s.core := rfl
@[simp] theorem destSet_core (k : Nat) (d : Dest) : (destSet s k d).core = s.core := rfl
@[simp] theorem sigSet_core (i : Nat) (x : RingSig) : (sigSet s i x).core = s.core := rfl
@[simp] theorem voqPut_core (q : QCell) : (voqPut s q).core = s.core := rfl
@[simp] theorem draw_core : s.draw.2.core = s.core := rfl
@[simp] theorem newCellId_core : (newCellId s).2.core = s.core := rfl
@[simp] theorem portSet_core (n : Nat) (p : Port) : (portSet s n p).core = s.core := rfl
@[simp] theorem hold_core (mb : Mbx) : (s.hold mb).core = s.core := rfl

@[simp] theorem sysRingPut_core (h : NHead) : (sysRingPut s h).core = s.core := by
  unfold sysRingPut; dsimp only; split
  · exact destSet_core ..
  · rw [destSet_core, put_core]; split
    · rw [emit_core, resvWrite_core]
    · rw [resvWrite_core]
@[simp] theorem ringSignal_core (i : Nat) : (ringSignal s i).core = s.core := by
  unfold ringSignal; split
  · rfl
  · rw [sigSet_core, emit_core]
@[simp] theorem ldRingPut_core (i : Nat) (h : NHead) : (ldRingPut s i h).core = s.core := by
  unfold ldRingPut; dsimp only; split
  · rw [bump_core, destSet_core]
  · split
    · rw [ringSignal_core, sigSet_core, destSet_core, put_core, emit_core]
    · rw [sigSet_core, destSet_core, put_core, emit_core]
@[simp] theorem voqMark_core (q : QCell) : (voqMark s q).core = s.core := by
  unfold voqMark; dsimp only; split <;> rfl
@[simp] theorem epPut_core (hub ep : Nat) (h : NHead) : (epPut s hub ep h).core = s.core := by
  unfold epPut; dsimp only; split
  · rw [voqMark_core, destSet_core, newCellId_core]
  · rw [voqMark_core, destSet_core, newCellId_core]
  · rw [bump_core, destSet_core]
@[simp] theorem deliverNotice_core (h : NHead) (d : NDest) : (deliverNotice s h d).core = s.core := by
  unfold deliverNotice; dsimp only; split
  · simp
  · simp
  · simp
  · rw [foldl_core (fun s x => epPut_core s _ _ _), foldl_core (fun s i => ldRingPut_core s i _)]; simp
/-- A notice touches nothing of the core. -/
@[simp] theorem notice_core (code : Nat) (args : List Nat) (ten : Nat) (job : Option Nat) (d : NDest) : (s.notice code args ten job d).core = s.core := by
  unfold State.notice; split
  · simp
  · rfl
@[simp] theorem onceTick_core (code i : Nat) (args : List Nat) : (s.onceTick code i args).core = s.core := by
  unfold State.onceTick; split
  · rfl
  · rw [notice_core]; rfl
@[simp] theorem sbDone_core (mb : Mbx) (rc : Nat) (d : List Byte) : (s.sbDone mb rc d).core = s.core := by unfold State.sbDone; split <;> rfl
/-- An answer touches nothing of the core. -/
@[simp] theorem reply_core (mb : Mbx) (st : Nat) (d : List Byte) (fl : Nat) : (s.reply mb st d fl).core = s.core := by
  unfold State.reply; split
  · rfl
  · dsimp only; rw [emit_core, sbDone_core]
@[simp] theorem replyBg_core (mb : Mbx) (st : Nat) (d : List Byte) (fl : Nat) : (s.replyBg mb st d fl).core = s.core := reply_core s mb st d fl
@[simp] theorem cxl_core (mb : Mbx) (rc : CxlRc) (d : List Byte) : (s.cxl mb rc d).core = s.core := by
  unfold State.cxl; split
  · rfl
  · rw [emit_core, sbDone_core]

/-! ### The core's fields -/

variable {s} {t : State}

theorem core_time (h : t.core = s.core) : t.time = s.time := congrArg (·.time) h
theorem core_mem (h : t.core = s.core) : t.mem = s.mem := congrArg (·.mem) h
theorem core_sup (h : t.core = s.core) : t.sup = s.sup := congrArg (·.sup) h
theorem core_tk (h : t.core = s.core) : t.tk = s.tk := congrArg (·.tk) h
theorem core_seq (h : t.core = s.core) : t.seq = s.seq := congrArg (·.seq) h
theorem core_st (h : t.core = s.core) : t.st = s.st := congrArg (·.st) h
theorem core_xlt (h : t.core = s.core) : t.xlt = s.xlt := congrArg (·.xlt) h
theorem core_damp (h : t.core = s.core) : t.damp = s.damp := congrArg (·.damp) h
theorem core_reqs (h : t.core = s.core) : t.reqs = s.reqs := congrArg (·.reqs) h
theorem core_coh (h : t.core = s.core) : t.coh = s.coh := congrArg (·.coh) h
theorem core_ext (h : t.core = s.core) : t.ext = s.ext := congrArg (·.ext) h
theorem core_chrn (h : t.core = s.core) : t.chrn = s.chrn := congrArg (·.chrn) h
theorem core_herd (h : t.core = s.core) : t.herd = s.herd := congrArg (·.herd) h
theorem core_hnd (h : t.core = s.core) : t.hnd = s.hnd := congrArg (·.hnd) h
theorem core_pending (h : t.core = s.core) : t.pending = s.pending := congrArg (·.pending) h
@[simp] theorem notice_sup (s : State) (c : Nat) (l : List Nat) (n : Nat) (j : Option Nat) (d : NDest) : (s.notice c l n j d).sup = s.sup := core_sup (notice_core ..)
theorem core_on (h : t.core = s.core) : t.on = s.on := by unfold State.on; rw [core_sup h]

end Sys2Proof.Laws
end

