-- ==== Sys2Proof/Laws/RegBus.lean ====
section
/-! SUPPORT. Laws/RegBus.lean: what a register write does, once per kind of register. -/

namespace Sys2Proof.Laws

open Sys2Proof Sys2Proof.Machine

variable {s : State} {a v i j new : Nat} {h : Half} {r : RegRow} {w : RegW} {own : Option Nat}

/-- The registers whose write reaches the supervisor. -/
def supNames : List String := ["SEC_LOCK", "CLK_RESET", "CLK_RESET_CAUSE", "DAMP_TRIP", "SEC_RNG", "DBG_STATUS"]

theorem supWrite_none {name : String} (hn : name ∉ supNames) : supWrite s name h v = none := by
  simp only [supNames, List.mem_cons, List.not_mem_nil, or_false, not_or] at hn
  obtain ⟨a1, a2, a3, a4, a5, a6⟩ := hn
  simp only [supWrite, a1, a2, a3, a4, a5, a6, if_false]

/-- An address that holds no register takes no write. -/
theorem regWrite_absent (hf : regFind a = none) : regWrite s a h v = s := by simp only [regWrite, hf]

/-- A write outside the supervisor's registers is the hub proper's. -/
theorem regWrite_hub (hf : regFind a = some (r, i, j)) (hn : r.name ∉ supNames) : regWrite s a h v = hubWork (hubWrite a r i j h (halfVal h v)) s := by
  simp only [regWrite, hf, supWrite_none hn]

/-- A write to one of the supervisor's registers. -/
theorem regWrite_sup {t : State} (hf : regFind a = some (r, i, j)) (hn : supWrite s r.name h (halfVal h v) = some t) : regWrite s a h v = t := by
  simp only [regWrite, hf, hn]

/-- A plain write sets the fields its access codes let it set, and acts as its register's chapter says. -/
theorem regWrite_plain (hp : plainWrite s a h v r i j new) :
    regWrite s a h v = { writeActs (s.setReg a (BitVec.ofNat 64 new)) r.name i j h with sup := s.sup } := by
  obtain ⟨h1, h2, h3, h4, h5, h6⟩ := hp
  simp only [List.mem_cons, List.not_mem_nil, or_false, not_or] at h2
  obtain ⟨a1, a2, a3, a4, a5, a6, a7, a8, a9, a10, a11, a12, a13, a14⟩ := h2
  have h7 : ¬ (s.sup.lock = true ∧ r.fields.all (fun f => f.acc == .rwl || f.acc == .ro) = true) := by
    rintro ⟨l, m⟩
    have := h4 l
    simp only [List.any_eq_true, Bool.and_eq_true, bne_iff_ne] at this
    obtain ⟨f, hf, n1, n2⟩ := this
    have := (List.all_eq_true.1 m) f hf
    simp [n1, n2] at this
  rw [regWrite_hub h1 (by simp [supNames, a1, a2, a3, a4, a5, a6])]
  simp only [hubWrite, hubWork, a7, a8, a9, a10, a11, a12, a13, a14, if_false, if_neg h7, ← h3, h5, h6, Bool.not_true, Bool.false_eq_true]

/-- A register's own row, over an open path other than a BAR2, writes the register at its address. -/
theorem namedWrite_open (h2 : pathOpen s w.path = true) (h3 : ∀ n, w.path ≠ .bar2 n) : namedWrite s a w own = regWrite s a w.half w.val := by
  unfold namedWrite; rw [h2]; simp only [Bool.not_true, Bool.false_eq_true, if_false]

/-- What a register's own row answers, where the hub proper's write gives t. -/
theorem named_hub {t : State} {g : State → State} (h1 : s.on = true) (h2 : pathOpen s w.path = true) (h3 : ∀ n, w.path ≠ .bar2 n) (hf : regFind a = some (r, i, j))
    (hn : r.name ∉ supNames) (e : hubWrite a r i j w.half (halfVal w.half w.val) s = t)
    (hg : g s = namedWrite s a w own) : supOn g s = .next (t.under s) := by
  simp only [supOn, h1, if_true, hg, namedWrite_open h2 h3, regWrite_hub hf hn, hubWork, e]
  rfl

/-- The same for a row that reaches a ring over the BAR2 of the ring's own LD. -/
theorem named_ring {t : State} {g : State → State} {ld : Nat} (h1 : s.on = true) (h2 : w.path = .bar2 ld) (hf : regFind a = some (r, i, j)) (hn : r.name ∉ supNames)
    (e : hubWrite a r i j w.half (halfVal w.half w.val) s = t) (hg : g s = namedWrite s a w (some ld)) : supOn g s = .next (t.under s) := by
  simp only [supOn, h1, if_true, hg, namedWrite, h2, pathOpen, Bool.not_true, Bool.false_eq_true, if_false, regWrite_hub hf hn, hubWork, e]
  rfl

end Sys2Proof.Laws
end

