-- ==== Sys2Proof/Laws/Power.lean ====
section
/-! SUPPORT. Laws/Power.lean: which operations keep main power, and what is left when it goes. -/

namespace Sys2Proof.Laws

open Sys2Proof Sys2Proof.Machine

variable {s t : State}

/-! ### The stage -/

theorem on_of_stage (h : t.sup.stage = s.sup.stage) : t.on = s.on := by unfold State.on; rw [h]
theorem on_of_sup (h : t.sup = s.sup) : t.on = s.on := on_of_stage (by rw [h])
@[simp] theorem hubWork_on (f : State → State) : (hubWork f s).on = s.on := rfl
@[simp] theorem hubWork_sup (f : State → State) : (hubWork f s).sup = s.sup := rfl
@[simp] theorem under_on : (t.under s).on = s.on := rfl
@[simp] theorem queued_on : (t.queued s).on = t.on := rfl
@[simp] theorem emit_on (e : Emit) : (s.emit e).on = s.on := rfl
@[simp] theorem put_on (f : Fld) (v : Nat) : (s.put f v).on = s.on := rfl
@[simp] theorem upTo_on (n : Nat) : (s.upTo n).on = s.on := rfl
@[simp] theorem hold_on (mb : Mbx) : (s.hold mb).on = s.on := rfl
@[simp] theorem notice_on (c : Nat) (l : List Nat) (n : Nat) (j : Option Nat) (d : NDest) : (s.notice c l n j d).on = s.on := core_on (notice_core ..)
@[simp] theorem reply_on (mb : Mbx) (st : Nat) (d : List Byte) (fl : Nat) : (s.reply mb st d fl).on = s.on := core_on (reply_core ..)
@[simp] theorem replyBg_on (mb : Mbx) (st : Nat) (d : List Byte) (fl : Nat) : (s.replyBg mb st d fl).on = s.on := core_on (replyBg_core ..)
@[simp] theorem cxl_on (mb : Mbx) (rc : CxlRc) (d : List Byte) : (s.cxl mb rc d).on = s.on := core_on (cxl_core ..)
@[simp] theorem sysRingPut_on (h : NHead) : (sysRingPut s h).on = s.on := core_on (sysRingPut_core ..)
@[simp] theorem supSet_on (u : Sup) : (supSet s u).on = (u.stage != .off) := rfl
@[simp] theorem enterStage_on (g : Stage) : (enterStage s g).on = (g != .off) := rfl
@[simp] theorem toRecovery_on (r : Nat) : (toRecovery s r).on = true := rfl
@[simp] theorem beginStart_on (w r : Bool) (c : Nat) : (beginStart s w r c).on = true := rfl
theorem foldl_on {α : Type} {f : State → α → State} (h : ∀ s a, s.on = true → (f s a).on = true) (l : List α) (s : State) (ho : s.on = true) : (l.foldl f s).on = true := by
  induction l generalizing s with
  | nil => exact ho
  | cons a l ih => exact ih _ (h s a ho)

/-! ### Operations that keep main power -/

theorem warmStart_on (c : Nat) (h : s.on = true) : (warmStart s c).on = true := by unfold warmStart; split <;> simp [h]
theorem setLock_on (h : s.on = true) : (setLock s).on = true := by
  unfold setLock; split
  · exact h
  · rw [notice_on]; exact h
theorem regWrite_on (a : Nat) (hf : Half) (v : Nat) (h : s.on = true) : (regWrite s a hf v).on = true := by
  unfold regWrite; split
  · exact h
  · split
    · rename_i t ht
      unfold supWrite at ht
      (repeat' split at ht) <;> (try injection ht with ht; subst ht) <;> (try cases ht) <;> first | exact h | exact setLock_on h | exact warmStart_on 8 h
    · simpa using h
theorem namedWrite_on (a : Nat) (w : RegW) (own : Option Nat) (h : s.on = true) : (namedWrite s a w own).on = true := by
  unfold namedWrite; (repeat' split) <;> first | exact h | exact regWrite_on _ _ _ h
theorem busWrite_on (x : RegAcc) (h : s.on = true) : (busWrite s x).on = true := by
  unfold busWrite; (repeat' split) <;> first | exact h | exact regWrite_on _ _ _ h
theorem skip_on (h : s.on = true) : (skip s).on = true := h
theorem replayItem_on (x : CfgItem) (h : s.on = true) : (replayItem s x).on = true := by
  unfold replayItem; (repeat' split) <;> (try dsimp only) <;> (repeat' split) <;> first | exact h | exact regWrite_on _ _ _ h
theorem beginApply_on : (beginApply s).on = true := foldl_on (fun _ x h => replayItem_on x h) _ _ rfl
theorem applyFn_on (x : CfgItem) (h : s.on = true) : (applyFn s x).on = true := by
  unfold applyFn; dsimp only; (repeat' split) <;> exact h
theorem enterRun_on : (enterRun s).on = true := by
  unfold enterRun
  simp only [hubWork_on, emit_on, notice_on]
  exact foldl_on (fun s a h => by unfold deliverHeld; rw [sysRingPut_on]; exact h) _ _ rfl
theorem yokeRefuse_on (r : Nat) : (yokeRefuse s r).on = true := beginApply_on
theorem yokeForm_on : (yokeForm s).on = true := beginApply_on
theorem helloTake_on (p : Nat) (l : List Byte) (h : s.on = true) : (helloTake s p l).on = true := by
  unfold helloTake; dsimp only; split
  · exact h
  · exact yokeRefuse_on _
theorem stageStop_on (h : s.on = true) : (stageStop s).on = true := by unfold stageStop; split <;> exact h
theorem configLevel_on : (configLevel s).on = true := by
  unfold configLevel; dsimp only; split
  · rw [notice_on]; rfl
  · rfl
theorem configStage_on : (configStage s).on = true := configLevel_on

@[simp] theorem putCopy_stage (u : Sup) (b : Bool) (d : List Byte) : (putCopy u b d).stage = u.stage := by unfold putCopy; split <;> rfl
theorem storeAnswer_on (y : Bool) (mb : Mbx) (n : Nat) : (storeAnswer y mb n s).on = s.on := by
  unfold storeAnswer; dsimp only; split
  · split <;> rw [replyBg_on] <;> rfl
  · rw [replyBg_on]
theorem cellarDone_on (w : CellarJob) (ok : Bool) (h : s.on = true) : (cellarDone w ok s).on = true := by
  unfold cellarDone State.draw
  (repeat' split) <;> simp only [storeAnswer_on, replyBg_on, notice_on, supSet_on, putCopy_stage] <;> exact h
theorem vendor_on {mb : Mbx} {iss : Issuer} {f : State → State} (h : s.on = true) (hf : (f s).on = true) : (vendor mb iss f s).on = true := by
  rcases vendor_cases (mb := mb) (iss := iss) (f := f) s with e | e | ⟨st, _, e⟩ <;> rw [e] <;> simp [h, hf]
theorem recCmd_on {mb : Mbx} {f : State → State} (h : s.on = true) (hf : (f s).on = true) : (recCmd mb f s).on = true := by
  unfold recCmd; (repeat' split) <;> simp [h, hf, vendor_on]
theorem cellarFree_on {mb : Mbx} {f : State → State} (h : s.on = true) (hf : (f s).on = true) : (cellarFree mb f s).on = true := by
  unfold cellarFree; split <;> simp [h, hf]
theorem beginStore_on (k : Nat) (mb : Mbx) (x : CfgHdr) (h : s.on = true) : (beginStore k mb x s).on = true := h

/-! ### Main power goes -/

theorem mainOff_unpowered (c : Nat) : (mainOff s c).on = false ∧ unpowered (mainOff s c) := by simp [mainOff, powerOff, supSet, State.emit, State.draw, aonSup, unpowered, State.on]
theorem thermalTrip_unpowered (i : Nat) : (thermalTrip s i).on = false ∧ unpowered (thermalTrip s i) := mainOff_unpowered (s := supSet s _) 0

/-- `unpowered` says nothing of the supervisor, the queue, the timebase, the host interface and what was sent. -/
theorem unpowered_of_fields (h : unpowered s) (e : { t with sup := s.sup, pending := s.pending, time := s.time, free := s.free, host := s.host, out := s.out, nextReq := s.nextReq } = s) : unpowered t := by
  rw [← e] at h; exact h

end Sys2Proof.Laws
end

