-- ==== Sys2Proof/Laws/Ways.lean ====
section
/-! SUPPORT. Laws/Ways.lean: the way by which each command reaches the hub, said once per command. -/

namespace Sys2Proof.Laws

open Sys2Proof Sys2Proof.Machine

variable {c : Instr} {s : State}

set_option maxRecDepth 20000 in
/-- A command that does not reach the supervisor acts on the hub proper, by itself or through a mailbox. -/
theorem exec_hub (h : reachesSup c = false) : (∃ f, exec c s = hubOnly f s) ∨ ∃ mb f, exec c s = mbxOnly mb f s := by
  cases c
  case regWrite => exact nomatch h
  case tickBoundary => refine .inl ⟨?w2, ?h2⟩; case h2 => show execTickBoundary .. = _; unfold execTickBoundary; rfl
  case tickLost => refine .inl ⟨?w3, ?h3⟩; case h3 => show execTickLost .. = _; unfold execTickLost; rfl
  case tickTreeWrite => exact nomatch h
  case tickPeriodWrite => exact nomatch h
  case tickGuardWrite => exact nomatch h
  case tick => refine .inl ⟨?w7, ?h7⟩; case h7 => show execTick .. = _; unfold execTick; rfl
  case delayMeasure => refine .inl ⟨?w8, ?h8⟩; case h8 => show execDelayMeasure .. = _; unfold execDelayMeasure; rfl
  case delayReq => refine .inl ⟨?w9, ?h9⟩; case h9 => show execDelayReq .. = _; unfold execDelayReq; rfl
  case delayResp => refine .inl ⟨?w10, ?h10⟩; case h10 => show execDelayResp .. = _; unfold execDelayResp; rfl
  case stretchReq => refine .inl ⟨?w11, ?h11⟩; case h11 => show execStretchReq .. = _; unfold execStretchReq; rfl
  case jobAdmit => refine .inr ⟨?v12, ?w12, ?h12⟩; case h12 => show execJobAdmit .. = _; unfold execJobAdmit; rfl
  case roomClearingDone => refine .inl ⟨?w13, ?h13⟩; case h13 => show execRoomClearingDone .. = _; unfold execRoomClearingDone; rfl
  case jobStart => refine .inr ⟨?v14, ?w14, ?h14⟩; case h14 => show execJobStart .. = _; unfold execJobStart; rfl
  case jobRestart => refine .inr ⟨?v15, ?w15, ?h15⟩; case h15 => show execJobRestart .. = _; unfold execJobRestart; rfl
  case jobRelease => refine .inr ⟨?v16, ?w16, ?h16⟩; case h16 => show execJobRelease .. = _; unfold execJobRelease; rfl
  case slotDispatch => refine .inl ⟨?w17, ?h17⟩; case h17 => show execSlotDispatch .. = _; unfold execSlotDispatch; rfl
  case stepComplete => refine .inl ⟨?w18, ?h18⟩; case h18 => show execStepComplete .. = _; unfold execStepComplete; rfl
  case stepDeadline => refine .inl ⟨?w19, ?h19⟩; case h19 => show execStepDeadline .. = _; unfold execStepDeadline; rfl
  case boundaryWorkDone => refine .inl ⟨?w20, ?h20⟩; case h20 => show execBoundaryWorkDone .. = _; unfold execBoundaryWorkDone; rfl
  case scrubTile => refine .inl ⟨?w21, ?h21⟩; case h21 => show execScrubTile .. = _; unfold execScrubTile; rfl
  case read => refine .inl ⟨?w22, ?h22⟩; case h22 => show execRead .. = _; unfold execRead; rfl
  case write => refine .inl ⟨?w23, ?h23⟩; case h23 => show execWrite .. = _; unfold execWrite; rfl
  case atomic => refine .inl ⟨?w24, ?h24⟩; case h24 => show execAtomic .. = _; unfold execAtomic; rfl
  case readRsp => refine .inl ⟨?w25, ?h25⟩; case h25 => show execReadRsp .. = _; unfold execReadRsp; rfl
  case writeRsp => refine .inl ⟨?w26, ?h26⟩; case h26 => show execWriteRsp .. = _; unfold execWriteRsp; rfl
  case atomicRsp => refine .inl ⟨?w27, ?h27⟩; case h27 => show execAtomicRsp .. = _; unfold execAtomicRsp; rfl
  case reqTimeout => refine .inl ⟨?w28, ?h28⟩; case h28 => show execReqTimeout .. = _; unfold execReqTimeout; rfl
  case demandDecay => refine .inl ⟨?w29, ?h29⟩; case h29 => show execDemandDecay .. = _; unfold execDemandDecay; rfl
  case migHint => refine .inr ⟨?v30, ?w30, ?h30⟩; case h30 => show execMigHint .. = _; unfold execMigHint; rfl
  case migCopyStart => refine .inl ⟨?w31, ?h31⟩; case h31 => show execMigCopyStart .. = _; unfold execMigCopyStart; rfl
  case migPassEnd => refine .inl ⟨?w32, ?h32⟩; case h32 => show execMigPassEnd .. = _; unfold execMigPassEnd; rfl
  case migDrainDone => refine .inl ⟨?w33, ?h33⟩; case h33 => show execMigDrainDone .. = _; unfold execMigDrainDone; rfl
  case migFlip => refine .inl ⟨?w34, ?h34⟩; case h34 => show execMigFlip .. = _; unfold execMigFlip; rfl
  case migAbandon => refine .inl ⟨?w35, ?h35⟩; case h35 => show execMigAbandon .. = _; unfold execMigAbandon; rfl
  case maintLockGrant => refine .inl ⟨?w36, ?h36⟩; case h36 => show execMaintLockGrant .. = _; unfold execMaintLockGrant; rfl
  case migMaintWait => refine .inl ⟨?w37, ?h37⟩; case h37 => show execMigMaintWait .. = _; unfold execMigMaintWait; rfl
  case reduce => refine .inl ⟨?w38, ?h38⟩; case h38 => show execReduce .. = _; unfold execReduce; rfl
  case postedReduce => refine .inl ⟨?w39, ?h39⟩; case h39 => show execPostedReduce .. = _; unfold execPostedReduce; rfl
  case postCutoff => refine .inl ⟨?w40, ?h40⟩; case h40 => show execPostCutoff .. = _; unfold execPostCutoff; rfl
  case postConvert => refine .inl ⟨?w41, ?h41⟩; case h41 => show execPostConvert .. = _; unfold execPostConvert; rfl
  case mcastStore => refine .inl ⟨?w42, ?h42⟩; case h42 => show execMcastStore .. = _; unfold execMcastStore; rfl
  case ckptData => refine .inl ⟨?w43, ?h43⟩; case h43 => show execCkptData .. = _; unfold execCkptData; rfl
  case ckptAssemblyTimeout => refine .inl ⟨?w44, ?h44⟩; case h44 => show execCkptAssemblyTimeout .. = _; unfold execCkptAssemblyTimeout; rfl
  case ckptAck => refine .inl ⟨?w45, ?h45⟩; case h45 => show execCkptAck .. = _; unfold execCkptAck; rfl
  case ckptAckTimeout => refine .inl ⟨?w46, ?h46⟩; case h46 => show execCkptAckTimeout .. = _; unfold execCkptAckTimeout; rfl
  case ckptCopy => refine .inr ⟨?v47, ?w47, ?h47⟩; case h47 => show execCkptCopy .. = _; unfold execCkptCopy; rfl
  case portCtlWrite => exact nomatch h
  case portDetectDone => refine .inl ⟨?w49, ?h49⟩; case h49 => show execPortDetectDone .. = _; unfold execPortDetectDone; rfl
  case portTrainDone => refine .inl ⟨?w50, ?h50⟩; case h50 => show execPortTrainDone .. = _; unfold execPortTrainDone; rfl
  case portLockDone => refine .inl ⟨?w51, ?h51⟩; case h51 => show execPortLockDone .. = _; unfold execPortLockDone; rfl
  case portNegotiateDone => refine .inl ⟨?w52, ?h52⟩; case h52 => show execPortNegotiateDone .. = _; unfold execPortNegotiateDone; rfl
  case portStageTimeout => refine .inl ⟨?w53, ?h53⟩; case h53 => show execPortStageTimeout .. = _; unfold execPortStageTimeout; rfl
  case portDownWait => refine .inl ⟨?w54, ?h54⟩; case h54 => show execPortDownWait .. = _; unfold execPortDownWait; rfl
  case laneLockLost => refine .inl ⟨?w55, ?h55⟩; case h55 => show execLaneLockLost .. = _; unfold execLaneLockLost; rfl
  case recoverTimeout => refine .inl ⟨?w56, ?h56⟩; case h56 => show execRecoverTimeout .. = _; unfold execRecoverTimeout; rfl
  case idleBlock => refine .inl ⟨?w57, ?h57⟩; case h57 => show execIdleBlock .. = _; unfold execIdleBlock; rfl
  case nak => refine .inl ⟨?w58, ?h58⟩; case h58 => show execNak .. = _; unfold execNak; rfl
  case laneBlock => refine .inl ⟨?w59, ?h59⟩; case h59 => show execLaneBlock .. = _; unfold execLaneBlock; rfl
  case negBlock => refine .inl ⟨?w60, ?h60⟩; case h60 => show execNegBlock .. = _; unfold execNegBlock; rfl
  case retrain => refine .inl ⟨?w61, ?h61⟩; case h61 => show execRetrain .. = _; unfold execRetrain; rfl
  case cellCrcFail => refine .inl ⟨?w62, ?h62⟩; case h62 => show execCellCrcFail .. = _; unfold execCellCrcFail; rfl
  case nakRepeat => refine .inl ⟨?w63, ?h63⟩; case h63 => show execNakRepeat .. = _; unfold execNakRepeat; rfl
  case fabBadCell => refine .inl ⟨?w64, ?h64⟩; case h64 => show execFabBadCell .. = _; unfold execFabBadCell; rfl
  case switchCellArrive => refine .inl ⟨?w65, ?h65⟩; case h65 => show execSwitchCellArrive .. = _; unfold execSwitchCellArrive; rfl
  case switchMatch => refine .inl ⟨?w66, ?h66⟩; case h66 => show execSwitchMatch .. = _; unfold execSwitchMatch; rfl
  case cellEgress => refine .inl ⟨?w67, ?h67⟩; case h67 => show execCellEgress .. = _; unfold execCellEgress; rfl
  case skimIssue => refine .inl ⟨?w68, ?h68⟩; case h68 => show execSkimIssue .. = _; unfold execSkimIssue; rfl
  case fabCredInitWrite => exact nomatch h
  case swxProfWrite => exact nomatch h
  case swxBufWrite => exact nomatch h
  case mcastSet => refine .inr ⟨?v72, ?w72, ?h72⟩; case h72 => show execMcastSet .. = _; unfold execMcastSet; rfl
  case tagSet => refine .inr ⟨?v73, ?w73, ?h73⟩; case h73 => show execTagSet .. = _; unfold execTagSet; rfl
  case shaperWrite => exact nomatch h
  case meterWrite => exact nomatch h
  case gateWrite => exact nomatch h
  case samplePeriodClose => refine .inl ⟨?w77, ?h77⟩; case h77 => show execSamplePeriodClose .. = _; unfold execSamplePeriodClose; rfl
  case crdS => refine .inl ⟨?w78, ?h78⟩; case h78 => show execCrdS .. = _; unfold execCrdS; rfl
  case crdE => refine .inl ⟨?w79, ?h79⟩; case h79 => show execCrdE .. = _; unfold execCrdE; rfl
  case cupg => refine .inl ⟨?w80, ?h80⟩; case h80 => show execCupg .. = _; unfold execCupg; rfl
  case cwb => refine .inl ⟨?w81, ?h81⟩; case h81 => show execCwb .. = _; unfold execCwb; rfl
  case csnpRsp => refine .inl ⟨?w82, ?h82⟩; case h82 => show execCsnpRsp .. = _; unfold execCsnpRsp; rfl
  case biconflict => refine .inl ⟨?w83, ?h83⟩; case h83 => show execBiconflict .. = _; unfold execBiconflict; rfl
  case holdWindowEnd => refine .inl ⟨?w84, ?h84⟩; case h84 => show execHoldWindowEnd .. = _; unfold execHoldWindowEnd; rfl
  case cohSnoopSlow => refine .inl ⟨?w85, ?h85⟩; case h85 => show execCohSnoopSlow .. = _; unfold execCohSnoopSlow; rfl
  case predDecay => refine .inl ⟨?w86, ?h86⟩; case h86 => show execPredDecay .. = _; unfold execPredDecay; rfl
  case lostWalkDone => refine .inl ⟨?w87, ?h87⟩; case h87 => show execLostWalkDone .. = _; unfold execLostWalkDone; rfl
  case cohWinWrite => exact nomatch h
  case lostWrites => refine .inr ⟨?v89, ?w89, ?h89⟩; case h89 => show execLostWrites .. = _; unfold execLostWrites; rfl
  case segtRead => exact nomatch h
  case segtWrite => exact nomatch h
  case winRead => exact nomatch h
  case winWrite => exact nomatch h
  case fltPop => exact nomatch h
  case fltOvfClr => exact nomatch h
  case vtOpen => refine .inr ⟨?v96, ?w96, ?h96⟩; case h96 => show execVtOpen .. = _; unfold execVtOpen; rfl
  case vtSwitch => refine .inr ⟨?v97, ?w97, ?h97⟩; case h97 => show execVtSwitch .. = _; unfold execVtSwitch; rfl
  case vtClose => refine .inr ⟨?v98, ?w98, ?h98⟩; case h98 => show execVtClose .. = _; unfold execVtClose; rfl
  case strnOpen => refine .inr ⟨?v99, ?w99, ?h99⟩; case h99 => show execStrnOpen .. = _; unfold execStrnOpen; rfl
  case strnClose => refine .inr ⟨?v100, ?w100, ?h100⟩; case h100 => show execStrnClose .. = _; unfold execStrnClose; rfl
  case mutationCommit => refine .inl ⟨?w101, ?h101⟩; case h101 => show execMutationCommit .. = _; unfold execMutationCommit; rfl
  case extAdd mb x => refine .inr ⟨?v102, ?w102, ?h102⟩; case h102 => show execExtAdd mb x s = _; unfold execExtAdd; rfl
  case extRevoke => refine .inr ⟨?v103, ?w103, ?h103⟩; case h103 => show execExtRevoke .. = _; unfold execExtRevoke; rfl
  case extRelease => refine .inr ⟨?v104, ?w104, ?h104⟩; case h104 => show execExtRelease .. = _; unfold execExtRelease; rfl
  case leaseRenew => refine .inr ⟨?v105, ?w105, ?h105⟩; case h105 => show execLeaseRenew .. = _; unfold execLeaseRenew; rfl
  case ember => refine .inl ⟨?w106, ?h106⟩; case h106 => show execEmber .. = _; unfold execEmber; rfl
  case extGrace => refine .inl ⟨?w107, ?h107⟩; case h107 => show execExtGrace .. = _; unfold execExtGrace; rfl
  case leaseExpire => refine .inl ⟨?w108, ?h108⟩; case h108 => show execLeaseExpire .. = _; unfold execLeaseExpire; rfl
  case extDrainDone => refine .inl ⟨?w109, ?h109⟩; case h109 => show execExtDrainDone .. = _; unfold execExtDrainDone; rfl
  case extDrainCut => refine .inl ⟨?w110, ?h110⟩; case h110 => show execExtDrainCut .. = _; unfold execExtDrainCut; rfl
  case extReleased => refine .inl ⟨?w111, ?h111⟩; case h111 => show execExtReleased .. = _; unfold execExtReleased; rfl
  case addDcResponse => refine .inl ⟨?w112, ?h112⟩; case h112 => show execAddDcResponse .. = _; unfold execAddDcResponse; rfl
  case releaseDc => refine .inl ⟨?w113, ?h113⟩; case h113 => show execReleaseDc .. = _; unfold execReleaseDc; rfl
  case extOfferLapsed => refine .inl ⟨?w114, ?h114⟩; case h114 => show execExtOfferLapsed .. = _; unfold execExtOfferLapsed; rfl
  case compSet => refine .inr ⟨?v115, ?w115, ?h115⟩; case h115 => show execCompSet .. = _; unfold execCompSet; rfl
  case compClear => refine .inr ⟨?v116, ?w116, ?h116⟩; case h116 => show execCompClear .. = _; unfold execCompClear; rfl
  case handover => refine .inr ⟨?v117, ?w117, ?h117⟩; case h117 => show execHandover .. = _; unfold execHandover; rfl
  case hoBegin => refine .inl ⟨?w118, ?h118⟩; case h118 => show execHoBegin .. = _; unfold execHoBegin; rfl
  case hoReleaseCheck => refine .inl ⟨?w119, ?h119⟩; case h119 => show execHoReleaseCheck .. = _; unfold execHoReleaseCheck; rfl
  case hoReady => refine .inl ⟨?w120, ?h120⟩; case h120 => show execHoReady .. = _; unfold execHoReady; rfl
  case hoRelease => refine .inl ⟨?w121, ?h121⟩; case h121 => show execHoRelease .. = _; unfold execHoRelease; rfl
  case hoCommit => refine .inl ⟨?w122, ?h122⟩; case h122 => show execHoCommit .. = _; unfold execHoCommit; rfl
  case hoRevert => refine .inl ⟨?w123, ?h123⟩; case h123 => show execHoRevert .. = _; unfold execHoRevert; rfl
  case hoTimeout => refine .inl ⟨?w124, ?h124⟩; case h124 => show execHoTimeout .. = _; unfold execHoTimeout; rfl
  case ownQuery => refine .inl ⟨?w125, ?h125⟩; case h125 => show execOwnQuery .. = _; unfold execOwnQuery; rfl
  case ownAnswer => refine .inl ⟨?w126, ?h126⟩; case h126 => show execOwnAnswer .. = _; unfold execOwnAnswer; rfl
  case ownQueryTimer => refine .inl ⟨?w127, ?h127⟩; case h127 => show execOwnQueryTimer .. = _; unfold execOwnQueryTimer; rfl
  case compNoOwner => refine .inl ⟨?w128, ?h128⟩; case h128 => show execCompNoOwner .. = _; unfold execCompNoOwner; rfl
  case hoMessageRetry => refine .inl ⟨?w129, ?h129⟩; case h129 => show execHoMessageRetry .. = _; unfold execHoMessageRetry; rfl
  case memRd => refine .inl ⟨?w130, ?h130⟩; case h130 => show execMemRd .. = _; unfold execMemRd; rfl
  case memWr => refine .inl ⟨?w131, ?h131⟩; case h131 => show execMemWr .. = _; unfold execMemWr; rfl
  case memInv => refine .inl ⟨?w132, ?h132⟩; case h132 => show execMemInv .. = _; unfold execMemInv; rfl
  case birsp => refine .inl ⟨?w133, ?h133⟩; case h133 => show execBirsp .. = _; unfold execBirsp; rfl
  case getEventRecords => refine .inr ⟨?v134, ?w134, ?h134⟩; case h134 => show execGetEventRecords .. = _; unfold execGetEventRecords; rfl
  case clearEventRecords => refine .inr ⟨?v135, ?w135, ?h135⟩; case h135 => show execClearEventRecords .. = _; unfold execClearEventRecords; rfl
  case getEventInterruptPolicy => refine .inr ⟨?v136, ?w136, ?h136⟩; case h136 => show execGetEventInterruptPolicy .. = _; unfold execGetEventInterruptPolicy; rfl
  case setEventInterruptPolicy => refine .inr ⟨?v137, ?w137, ?h137⟩; case h137 => show execSetEventInterruptPolicy .. = _; unfold execSetEventInterruptPolicy; rfl
  case getTimestamp => refine .inr ⟨?v138, ?w138, ?h138⟩; case h138 => show execGetTimestamp .. = _; unfold execGetTimestamp; rfl
  case setTimestamp => refine .inr ⟨?v139, ?w139, ?h139⟩; case h139 => show execSetTimestamp .. = _; unfold execSetTimestamp; rfl
  case getSupportedLogs => refine .inr ⟨?v140, ?w140, ?h140⟩; case h140 => show execGetSupportedLogs .. = _; unfold execGetSupportedLogs; rfl
  case getLog => refine .inr ⟨?v141, ?w141, ?h141⟩; case h141 => show execGetLog .. = _; unfold execGetLog; rfl
  case identifyMemoryDevice => refine .inr ⟨?v142, ?w142, ?h142⟩; case h142 => show execIdentifyMemoryDevice .. = _; unfold execIdentifyMemoryDevice; rfl
  case getDcConfiguration => refine .inr ⟨?v143, ?w143, ?h143⟩; case h143 => show execGetDcConfiguration .. = _; unfold execGetDcConfiguration; rfl
  case getDcExtentList => refine .inr ⟨?v144, ?w144, ?h144⟩; case h144 => show execGetDcExtentList .. = _; unfold execGetDcExtentList; rfl
  case mldManagement mb op _ => exact .inr ⟨mb, fun s => if mb = .fm ∧ 0x5400 ≤ op ∧ op ≤ 0x5406 then cxlCmd mb (cxlAny mb) s else unsupported mb op s, rfl⟩
  case mailboxUnsupported mb op _ => exact .inr ⟨mb, unsupported mb op, rfl⟩
  case engSubmit => refine .inr ⟨?v147, ?w147, ?h147⟩; case h147 => show execEngSubmit .. = _; unfold execEngSubmit; rfl
  case engStepSuspend => refine .inl ⟨?w148, ?h148⟩; case h148 => show execEngStepSuspend .. = _; unfold execEngStepSuspend; rfl
  case engStepResume => refine .inl ⟨?w149, ?h149⟩; case h149 => show execEngStepResume .. = _; unfold execEngStepResume; rfl
  case winList => refine .inr ⟨?v150, ?w150, ?h150⟩; case h150 => show execWinList .. = _; unfold execWinList; rfl
  case tenantEnable => refine .inr ⟨?v151, ?w151, ?h151⟩; case h151 => show execTenantEnable .. = _; unfold execTenantEnable; rfl
  case tenantDisable => refine .inr ⟨?v152, ?w152, ?h152⟩; case h152 => show execTenantDisable .. = _; unfold execTenantDisable; rfl
  case ldEnable => refine .inr ⟨?v153, ?w153, ?h153⟩; case h153 => show execLdEnable .. = _; unfold execLdEnable; rfl
  case ldDisable => refine .inr ⟨?v154, ?w154, ?h154⟩; case h154 => show execLdDisable .. = _; unfold execLdDisable; rfl
  case fnState => refine .inr ⟨?v155, ?w155, ?h155⟩; case h155 => show execFnState .. = _; unfold execFnState; rfl
  case noticeSub => refine .inr ⟨?v156, ?w156, ?h156⟩; case h156 => show execNoticeSub .. = _; unfold execNoticeSub; rfl
  case fnDrainDone => refine .inl ⟨?w157, ?h157⟩; case h157 => show execFnDrainDone .. = _; unfold execFnDrainDone; rfl
  case fnDrainCut => refine .inl ⟨?w158, ?h158⟩; case h158 => show execFnDrainCut .. = _; unfold execFnDrainCut; rfl
  case fnOff => exact nomatch h
  case ringTailWrite => exact nomatch h
  case sysringTailWrite => exact nomatch h
  case ringCfgWrite => exact nomatch h
  case ringCoalesceTimer => refine .inl ⟨?w163, ?h163⟩; case h163 => show execRingCoalesceTimer .. = _; unfold execRingCoalesceTimer; rfl
  case hostLinkUp => refine .inl ⟨?w164, ?h164⟩; case h164 => show execHostLinkUp .. = _; unfold execHostLinkUp; rfl
  case hostLinkDown => refine .inl ⟨?w165, ?h165⟩; case h165 => show execHostLinkDown .. = _; unfold execHostLinkDown; rfl
  case perstAssert => exact nomatch h
  case perstRelease => exact nomatch h
  case abort => refine .inl ⟨?w168, ?h168⟩; case h168 => show execAbort .. = _; unfold execAbort; rfl
  case herdForm => refine .inr ⟨?v169, ?w169, ?h169⟩; case h169 => show execHerdForm .. = _; unfold execHerdForm; rfl
  case herdAbort => refine .inr ⟨?v170, ?w170, ?h170⟩; case h170 => show execHerdAbort .. = _; unfold execHerdAbort; rfl
  case herdCull => refine .inr ⟨?v171, ?w171, ?h171⟩; case h171 => show execHerdCull .. = _; unfold execHerdCull; rfl
  case herdReimage => refine .inr ⟨?v172, ?w172, ?h172⟩; case h172 => show execHerdReimage .. = _; unfold execHerdReimage; rfl
  case herdRebalance => refine .inr ⟨?v173, ?w173, ?h173⟩; case h173 => show execHerdRebalance .. = _; unfold execHerdRebalance; rfl
  case herdShadow => refine .inr ⟨?v174, ?w174, ?h174⟩; case h174 => show execHerdShadow .. = _; unfold execHerdShadow; rfl
  case herdStatus => refine .inr ⟨?v175, ?w175, ?h175⟩; case h175 => show execHerdStatus .. = _; unfold execHerdStatus; rfl
  case herdScoreClear => refine .inr ⟨?v176, ?w176, ?h176⟩; case h176 => show execHerdScoreClear .. = _; unfold execHerdScoreClear; rfl
  case beatSend => refine .inl ⟨?w177, ?h177⟩; case h177 => show execBeatSend .. = _; unfold execBeatSend; rfl
  case beat => refine .inl ⟨?w178, ?h178⟩; case h178 => show execBeat .. = _; unfold execBeat; rfl
  case memberLost => refine .inl ⟨?w179, ?h179⟩; case h179 => show execMemberLost .. = _; unfold execMemberLost; rfl
  case epochDone => refine .inl ⟨?w180, ?h180⟩; case h180 => show execEpochDone .. = _; unfold execEpochDone; rfl
  case epochCommit => refine .inl ⟨?w181, ?h181⟩; case h181 => show execEpochCommit .. = _; unfold execEpochCommit; rfl
  case restart => refine .inl ⟨?w182, ?h182⟩; case h182 => show execRestart .. = _; unfold execRestart; rfl
  case restored => refine .inl ⟨?w183, ?h183⟩; case h183 => show execRestored .. = _; unfold execRestored; rfl
  case restoreReq => refine .inl ⟨?w184, ?h184⟩; case h184 => show execRestoreReq .. = _; unfold execRestoreReq; rfl
  case restoreComplete => refine .inl ⟨?w185, ?h185⟩; case h185 => show execRestoreComplete .. = _; unfold execRestoreComplete; rfl
  case digest => refine .inl ⟨?w186, ?h186⟩; case h186 => show execDigest .. = _; unfold execDigest; rfl
  case digestMissing => refine .inl ⟨?w187, ?h187⟩; case h187 => show execDigestMissing .. = _; unfold execDigestMissing; rfl
  case members => refine .inl ⟨?w188, ?h188⟩; case h188 => show execMembers .. = _; unfold execMembers; rfl
  case shadowPassed => refine .inl ⟨?w189, ?h189⟩; case h189 => show execShadowPassed .. = _; unfold execShadowPassed; rfl
  case herdMessageRetry => refine .inl ⟨?w190, ?h190⟩; case h190 => show execHerdMessageRetry .. = _; unfold execHerdMessageRetry; rfl
  case scoreDecay => refine .inl ⟨?w191, ?h191⟩; case h191 => show execScoreDecay .. = _; unfold execScoreDecay; rfl
  case cullBudgetExpire => refine .inl ⟨?w192, ?h192⟩; case h192 => show execCullBudgetExpire .. = _; unfold execCullBudgetExpire; rfl
  case energySample => refine .inl ⟨?w193, ?h193⟩; case h193 => show execEnergySample .. = _; unfold execEnergySample; rfl
  case fastLimitStep => refine .inl ⟨?w194, ?h194⟩; case h194 => show execFastLimitStep .. = _; unfold execFastLimitStep; rfl
  case fastLimitEnd => refine .inl ⟨?w195, ?h195⟩; case h195 => show execFastLimitEnd .. = _; unfold execFastLimitEnd; rfl
  case emergLower => refine .inl ⟨?w196, ?h196⟩; case h196 => show execEmergLower .. = _; unfold execEmergLower; rfl
  case dampCapWrite => exact nomatch h
  case pwrAlertAssert => refine .inl ⟨?w198, ?h198⟩; case h198 => show execPwrAlertAssert .. = _; unfold execPwrAlertAssert; rfl
  case pwrAlertClear => refine .inl ⟨?w199, ?h199⟩; case h199 => show execPwrAlertClear .. = _; unfold execPwrAlertClear; rfl
  case internalAlert => refine .inl ⟨?w200, ?h200⟩; case h200 => show execInternalAlert .. = _; unfold execInternalAlert; rfl
  case internalAlertClear => refine .inl ⟨?w201, ?h201⟩; case h201 => show execInternalAlertClear .. = _; unfold execInternalAlertClear; rfl
  case dampAlertEnd => refine .inl ⟨?w202, ?h202⟩; case h202 => show execDampAlertEnd .. = _; unfold execDampAlertEnd; rfl
  case sensorRead => exact nomatch h
  case auxPowerOn => exact nomatch h
  case powerStart => exact nomatch h
  case mainEnFall => exact nomatch h
  case mainPowerFault => exact nomatch h
  case warmResetPin => exact nomatch h
  case warmResetReg => exact nomatch h
  case watchdogExpire => exact nomatch h
  case pllLockLost => exact nomatch h
  case pllResetTimer => exact nomatch h
  case powerDone => exact nomatch h
  case romDone => exact nomatch h
  case verifyDone => exact nomatch h
  case configDone => exact nomatch h
  case storeDone => exact nomatch h
  case rngHealthFail => exact nomatch h
  case rngHealthPass => exact nomatch h
  case startStageTimeout => exact nomatch h
  case startRetry => exact nomatch h
  case yokeHello => exact nomatch h
  case yokeFormed => exact nomatch h
  case yokeRefused => exact nomatch h
  case applyEnd => exact nomatch h
  case cellarStore => exact nomatch h
  case cellarWriteDone => exact nomatch h
  case cfgInfo => exact nomatch h
  case cfgIdent => exact nomatch h
  case lockSet => exact nomatch h
  case secLockWrite => exact nomatch h
  case svnRaise => exact nomatch h
  case imageWrite => exact nomatch h
  case imageCommit => exact nomatch h
  case debugUnlock => exact nomatch h
  case getVersion => exact nomatch h
  case getCapabilities => exact nomatch h
  case negotiateAlgorithms => exact nomatch h
  case getDigests => exact nomatch h
  case getCertificate => exact nomatch h
  case challenge => exact nomatch h
  case getMeasurements => exact nomatch h
  case keyExchange => exact nomatch h
  case finish => exact nomatch h
  case endSession => exact nomatch h
  case getCosign => exact nomatch h
  case getPqChain => exact nomatch h
  case read64 => exact nomatch h
  case write64 => exact nomatch h
  case mbxIn => exact nomatch h
  case mbxStatus => exact nomatch h
  case mbxOut => exact nomatch h
  case telemetry => exact nomatch h
  case idcode => exact nomatch h
  case samplePreload => exact nomatch h
  case extest => exact nomatch h
  case tokenLoad => exact nomatch h
  case tokenStatus => exact nomatch h
  case dbgAccess => exact nomatch h
  case bypass => exact nomatch h
  case engineIntervalEnd => refine .inl ⟨?w261, ?h261⟩; case h261 => show execEngineIntervalEnd .. = _; unfold execEngineIntervalEnd; rfl
  case notice => refine .inl ⟨?w262, ?h262⟩; case h262 => show execNotice .. = _; unfold execNotice; rfl
  case auxPowerLoss => exact nomatch h
  case auxPowerReturn => exact nomatch h
  case hubResetRelease => exact nomatch h
  case railRampTimeout => exact nomatch h
  case ideKm => exact nomatch h
  case i3cDynamicAddress => exact nomatch h
/-- A command that main power gates and that reaches the supervisor. -/
theorem exec_sup (h : reachesSup c = true) (h2 : ungated c = false) : (∃ f, exec c s = supOn f s) ∨ ∃ mb f, exec c s = mbxSup mb f s := by
  cases c
  case regWrite => refine .inl ⟨?w269, ?h269⟩; case h269 => show execRegWrite .. = _; unfold execRegWrite; rfl
  case tickBoundary => exact nomatch h
  case tickLost => exact nomatch h
  case tickTreeWrite => refine .inl ⟨?w272, ?h272⟩; case h272 => show execTickTreeWrite .. = _; unfold execTickTreeWrite; rfl
  case tickPeriodWrite => refine .inl ⟨?w273, ?h273⟩; case h273 => show execTickPeriodWrite .. = _; unfold execTickPeriodWrite; rfl
  case tickGuardWrite => refine .inl ⟨?w274, ?h274⟩; case h274 => show execTickGuardWrite .. = _; unfold execTickGuardWrite; rfl
  case tick => exact nomatch h
  case delayMeasure => exact nomatch h
  case delayReq => exact nomatch h
  case delayResp => exact nomatch h
  case stretchReq => exact nomatch h
  case jobAdmit => exact nomatch h
  case roomClearingDone => exact nomatch h
  case jobStart => exact nomatch h
  case jobRestart => exact nomatch h
  case jobRelease => exact nomatch h
  case slotDispatch => exact nomatch h
  case stepComplete => exact nomatch h
  case stepDeadline => exact nomatch h
  case boundaryWorkDone => exact nomatch h
  case scrubTile => exact nomatch h
  case read => exact nomatch h
  case write => exact nomatch h
  case atomic => exact nomatch h
  case readRsp => exact nomatch h
  case writeRsp => exact nomatch h
  case atomicRsp => exact nomatch h
  case reqTimeout => exact nomatch h
  case demandDecay => exact nomatch h
  case migHint => exact nomatch h
  case migCopyStart => exact nomatch h
  case migPassEnd => exact nomatch h
  case migDrainDone => exact nomatch h
  case migFlip => exact nomatch h
  case migAbandon => exact nomatch h
  case maintLockGrant => exact nomatch h
  case migMaintWait => exact nomatch h
  case reduce => exact nomatch h
  case postedReduce => exact nomatch h
  case postCutoff => exact nomatch h
  case postConvert => exact nomatch h
  case mcastStore => exact nomatch h
  case ckptData => exact nomatch h
  case ckptAssemblyTimeout => exact nomatch h
  case ckptAck => exact nomatch h
  case ckptAckTimeout => exact nomatch h
  case ckptCopy => exact nomatch h
  case portCtlWrite => refine .inl ⟨?w316, ?h316⟩; case h316 => show execPortCtlWrite .. = _; unfold execPortCtlWrite; rfl
  case portDetectDone => exact nomatch h
  case portTrainDone => exact nomatch h
  case portLockDone => exact nomatch h
  case portNegotiateDone => exact nomatch h
  case portStageTimeout => exact nomatch h
  case portDownWait => exact nomatch h
  case laneLockLost => exact nomatch h
  case recoverTimeout => exact nomatch h
  case idleBlock => exact nomatch h
  case nak => exact nomatch h
  case laneBlock => exact nomatch h
  case negBlock => exact nomatch h
  case retrain => exact nomatch h
  case cellCrcFail => exact nomatch h
  case nakRepeat => exact nomatch h
  case fabBadCell => exact nomatch h
  case switchCellArrive => exact nomatch h
  case switchMatch => exact nomatch h
  case cellEgress => exact nomatch h
  case skimIssue => exact nomatch h
  case fabCredInitWrite => refine .inl ⟨?w337, ?h337⟩; case h337 => show execFabCredInitWrite .. = _; unfold execFabCredInitWrite; rfl
  case swxProfWrite => refine .inl ⟨?w338, ?h338⟩; case h338 => show execSwxProfWrite .. = _; unfold execSwxProfWrite; rfl
  case swxBufWrite => refine .inl ⟨?w339, ?h339⟩; case h339 => show execSwxBufWrite .. = _; unfold execSwxBufWrite; rfl
  case mcastSet => exact nomatch h
  case tagSet => exact nomatch h
  case shaperWrite => refine .inl ⟨?w342, ?h342⟩; case h342 => show execShaperWrite .. = _; unfold execShaperWrite; rfl
  case meterWrite => refine .inl ⟨?w343, ?h343⟩; case h343 => show execMeterWrite .. = _; unfold execMeterWrite; rfl
  case gateWrite => refine .inl ⟨?w344, ?h344⟩; case h344 => show execGateWrite .. = _; unfold execGateWrite; rfl
  case samplePeriodClose => exact nomatch h
  case crdS => exact nomatch h
  case crdE => exact nomatch h
  case cupg => exact nomatch h
  case cwb => exact nomatch h
  case csnpRsp => exact nomatch h
  case biconflict => exact nomatch h
  case holdWindowEnd => exact nomatch h
  case cohSnoopSlow => exact nomatch h
  case predDecay => exact nomatch h
  case lostWalkDone => exact nomatch h
  case cohWinWrite => refine .inl ⟨?w356, ?h356⟩; case h356 => show execCohWinWrite .. = _; unfold execCohWinWrite; rfl
  case lostWrites => exact nomatch h
  case segtRead => refine .inl ⟨?w358, ?h358⟩; case h358 => show execSegtRead .. = _; unfold execSegtRead; rfl
  case segtWrite => refine .inl ⟨?w359, ?h359⟩; case h359 => show execSegtWrite .. = _; unfold execSegtWrite; rfl
  case winRead => refine .inl ⟨?w360, ?h360⟩; case h360 => show execWinRead .. = _; unfold execWinRead; rfl
  case winWrite => refine .inl ⟨?w361, ?h361⟩; case h361 => show execWinWrite .. = _; unfold execWinWrite; rfl
  case fltPop => refine .inl ⟨?w362, ?h362⟩; case h362 => show execFltPop .. = _; unfold execFltPop; rfl
  case fltOvfClr => refine .inl ⟨?w363, ?h363⟩; case h363 => show execFltOvfClr .. = _; unfold execFltOvfClr; rfl
  case vtOpen => exact nomatch h
  case vtSwitch => exact nomatch h
  case vtClose => exact nomatch h
  case strnOpen => exact nomatch h
  case strnClose => exact nomatch h
  case mutationCommit => exact nomatch h
  case extAdd => exact nomatch h
  case extRevoke => exact nomatch h
  case extRelease => exact nomatch h
  case leaseRenew => exact nomatch h
  case ember => exact nomatch h
  case extGrace => exact nomatch h
  case leaseExpire => exact nomatch h
  case extDrainDone => exact nomatch h
  case extDrainCut => exact nomatch h
  case extReleased => exact nomatch h
  case addDcResponse => exact nomatch h
  case releaseDc => exact nomatch h
  case extOfferLapsed => exact nomatch h
  case compSet => exact nomatch h
  case compClear => exact nomatch h
  case handover => exact nomatch h
  case hoBegin => exact nomatch h
  case hoReleaseCheck => exact nomatch h
  case hoReady => exact nomatch h
  case hoRelease => exact nomatch h
  case hoCommit => exact nomatch h
  case hoRevert => exact nomatch h
  case hoTimeout => exact nomatch h
  case ownQuery => exact nomatch h
  case ownAnswer => exact nomatch h
  case ownQueryTimer => exact nomatch h
  case compNoOwner => exact nomatch h
  case hoMessageRetry => exact nomatch h
  case memRd => exact nomatch h
  case memWr => exact nomatch h
  case memInv => exact nomatch h
  case birsp => exact nomatch h
  case getEventRecords => exact nomatch h
  case clearEventRecords => exact nomatch h
  case getEventInterruptPolicy => exact nomatch h
  case setEventInterruptPolicy => exact nomatch h
  case getTimestamp => exact nomatch h
  case setTimestamp => exact nomatch h
  case getSupportedLogs => exact nomatch h
  case getLog => exact nomatch h
  case identifyMemoryDevice => exact nomatch h
  case getDcConfiguration => exact nomatch h
  case getDcExtentList => exact nomatch h
  case mldManagement => exact nomatch h
  case mailboxUnsupported => exact nomatch h
  case engSubmit => exact nomatch h
  case engStepSuspend => exact nomatch h
  case engStepResume => exact nomatch h
  case winList => exact nomatch h
  case tenantEnable => exact nomatch h
  case tenantDisable => exact nomatch h
  case ldEnable => exact nomatch h
  case ldDisable => exact nomatch h
  case fnState => exact nomatch h
  case noticeSub => exact nomatch h
  case fnDrainDone => exact nomatch h
  case fnDrainCut => exact nomatch h
  case fnOff => refine .inl ⟨?w427, ?h427⟩; case h427 => show execFnOff .. = _; unfold execFnOff; rfl
  case ringTailWrite => refine .inl ⟨?w428, ?h428⟩; case h428 => show execRingTailWrite .. = _; unfold execRingTailWrite; rfl
  case sysringTailWrite => refine .inl ⟨?w429, ?h429⟩; case h429 => show execSysringTailWrite .. = _; unfold execSysringTailWrite; rfl
  case ringCfgWrite => refine .inl ⟨?w430, ?h430⟩; case h430 => show execRingCfgWrite .. = _; unfold execRingCfgWrite; rfl
  case ringCoalesceTimer => exact nomatch h
  case hostLinkUp => exact nomatch h
  case hostLinkDown => exact nomatch h
  case perstAssert => exact nomatch h2
  case perstRelease => exact nomatch h2
  case abort => exact nomatch h
  case herdForm => exact nomatch h
  case herdAbort => exact nomatch h
  case herdCull => exact nomatch h
  case herdReimage => exact nomatch h
  case herdRebalance => exact nomatch h
  case herdShadow => exact nomatch h
  case herdStatus => exact nomatch h
  case herdScoreClear => exact nomatch h
  case beatSend => exact nomatch h
  case beat => exact nomatch h
  case memberLost => exact nomatch h
  case epochDone => exact nomatch h
  case epochCommit => exact nomatch h
  case restart => exact nomatch h
  case restored => exact nomatch h
  case restoreReq => exact nomatch h
  case restoreComplete => exact nomatch h
  case digest => exact nomatch h
  case digestMissing => exact nomatch h
  case members => exact nomatch h
  case shadowPassed => exact nomatch h
  case herdMessageRetry => exact nomatch h
  case scoreDecay => exact nomatch h
  case cullBudgetExpire => exact nomatch h
  case energySample => exact nomatch h
  case fastLimitStep => exact nomatch h
  case fastLimitEnd => exact nomatch h
  case emergLower => exact nomatch h
  case dampCapWrite => refine .inl ⟨?w465, ?h465⟩; case h465 => show execDampCapWrite .. = _; unfold execDampCapWrite; rfl
  case pwrAlertAssert => exact nomatch h
  case pwrAlertClear => exact nomatch h
  case internalAlert => exact nomatch h
  case internalAlertClear => exact nomatch h
  case dampAlertEnd => exact nomatch h
  case sensorRead => refine .inl ⟨?w471, ?h471⟩; case h471 => show execSensorRead .. = _; unfold execSensorRead; rfl
  case auxPowerOn => exact nomatch h2
  case powerStart => exact nomatch h2
  case mainEnFall => exact nomatch h2
  case mainPowerFault => exact nomatch h2
  case warmResetPin => exact nomatch h2
  case warmResetReg => refine .inl ⟨?w477, ?h477⟩; case h477 => show execWarmResetReg .. = _; unfold execWarmResetReg; rfl
  case watchdogExpire => exact nomatch h2
  case pllLockLost => refine .inl ⟨?w479, ?h479⟩; case h479 => show execPllLockLost .. = _; unfold execPllLockLost; rfl
  case pllResetTimer => refine .inl ⟨?w480, ?h480⟩; case h480 => show execPllResetTimer .. = _; unfold execPllResetTimer; rfl
  case powerDone => refine .inl ⟨?w481, ?h481⟩; case h481 => show execPowerDone .. = _; unfold execPowerDone; rfl
  case romDone => refine .inl ⟨?w482, ?h482⟩; case h482 => show execRomDone .. = _; unfold execRomDone; rfl
  case verifyDone => refine .inl ⟨?w483, ?h483⟩; case h483 => show execVerifyDone .. = _; unfold execVerifyDone; rfl
  case configDone => refine .inl ⟨?w484, ?h484⟩; case h484 => show execConfigDone .. = _; unfold execConfigDone; rfl
  case storeDone => refine .inl ⟨?w485, ?h485⟩; case h485 => show execStoreDone .. = _; unfold execStoreDone; rfl
  case rngHealthFail => refine .inl ⟨?w486, ?h486⟩; case h486 => show execRngHealthFail .. = _; unfold execRngHealthFail; rfl
  case rngHealthPass => refine .inl ⟨?w487, ?h487⟩; case h487 => show execRngHealthPass .. = _; unfold execRngHealthPass; rfl
  case startStageTimeout => refine .inl ⟨?w488, ?h488⟩; case h488 => show execStartStageTimeout .. = _; unfold execStartStageTimeout; rfl
  case startRetry => refine .inl ⟨?w489, ?h489⟩; case h489 => show execStartRetry .. = _; unfold execStartRetry; rfl
  case yokeHello => refine .inl ⟨?w490, ?h490⟩; case h490 => show execYokeHello .. = _; unfold execYokeHello; rfl
  case yokeFormed => refine .inl ⟨?w491, ?h491⟩; case h491 => show execYokeFormed .. = _; unfold execYokeFormed; rfl
  case yokeRefused => refine .inl ⟨?w492, ?h492⟩; case h492 => show execYokeRefused .. = _; unfold execYokeRefused; rfl
  case applyEnd => refine .inl ⟨?w493, ?h493⟩; case h493 => show execApplyEnd .. = _; unfold execApplyEnd; rfl
  case cellarStore => refine .inr ⟨?v494, ?w494, ?h494⟩; case h494 => show execCellarStore .. = _; unfold execCellarStore; rfl
  case cellarWriteDone => refine .inl ⟨?w495, ?h495⟩; case h495 => show execCellarWriteDone .. = _; unfold execCellarWriteDone; rfl
  case cfgInfo => refine .inr ⟨?v496, ?w496, ?h496⟩; case h496 => show execCfgInfo .. = _; unfold execCfgInfo; rfl
  case cfgIdent => refine .inr ⟨?v497, ?w497, ?h497⟩; case h497 => show execCfgIdent .. = _; unfold execCfgIdent; rfl
  case lockSet => refine .inr ⟨?v498, ?w498, ?h498⟩; case h498 => show execLockSet .. = _; unfold execLockSet; rfl
  case secLockWrite => refine .inl ⟨?w499, ?h499⟩; case h499 => show execSecLockWrite .. = _; unfold execSecLockWrite; rfl
  case svnRaise => refine .inr ⟨?v500, ?w500, ?h500⟩; case h500 => show execSvnRaise .. = _; unfold execSvnRaise; rfl
  case imageWrite => refine .inr ⟨?v501, ?w501, ?h501⟩; case h501 => show execImageWrite .. = _; unfold execImageWrite; rfl
  case imageCommit => refine .inr ⟨?v502, ?w502, ?h502⟩; case h502 => show execImageCommit .. = _; unfold execImageCommit; rfl
  case debugUnlock => refine .inr ⟨?v503, ?w503, ?h503⟩; case h503 => show execDebugUnlock .. = _; unfold execDebugUnlock; rfl
  case getVersion c r => refine .inl ⟨?w504, ?h504⟩; case h504 => show execGetVersion c r s = _; unfold execGetVersion; rfl
  case getCapabilities c r => refine .inl ⟨?w505, ?h505⟩; case h505 => show execGetCapabilities c r s = _; unfold execGetCapabilities; rfl
  case negotiateAlgorithms c r => refine .inl ⟨?w506, ?h506⟩; case h506 => show execNegotiateAlgorithms c r s = _; unfold execNegotiateAlgorithms; rfl
  case getDigests c r => refine .inl ⟨?w507, ?h507⟩; case h507 => show execGetDigests c r s = _; unfold execGetDigests; rfl
  case getCertificate => refine .inl ⟨?w508, ?h508⟩; case h508 => show execGetCertificate .. = _; unfold execGetCertificate; rfl
  case challenge => refine .inl ⟨?w509, ?h509⟩; case h509 => show execChallenge .. = _; unfold execChallenge; rfl
  case getMeasurements => refine .inl ⟨?w510, ?h510⟩; case h510 => show execGetMeasurements .. = _; unfold execGetMeasurements; rfl
  case keyExchange c r => refine .inl ⟨?w511, ?h511⟩; case h511 => show execKeyExchange c r s = _; unfold execKeyExchange; rfl
  case finish c r => refine .inl ⟨?w512, ?h512⟩; case h512 => show execFinish c r s = _; unfold execFinish; rfl
  case endSession c r => refine .inl ⟨?w513, ?h513⟩; case h513 => show execEndSession c r s = _; unfold execEndSession; rfl
  case getCosign => refine .inl ⟨?w514, ?h514⟩; case h514 => show execGetCosign .. = _; unfold execGetCosign; rfl
  case getPqChain => refine .inl ⟨?w515, ?h515⟩; case h515 => show execGetPqChain .. = _; unfold execGetPqChain; rfl
  case read64 => exact nomatch h2
  case write64 => exact nomatch h2
  case mbxIn => exact nomatch h2
  case mbxStatus => exact nomatch h2
  case mbxOut => exact nomatch h2
  case telemetry => exact nomatch h2
  case idcode => exact nomatch h2
  case samplePreload => exact nomatch h2
  case extest => exact nomatch h2
  case tokenLoad => exact nomatch h2
  case tokenStatus => exact nomatch h2
  case dbgAccess => exact nomatch h2
  case bypass => exact nomatch h2
  case engineIntervalEnd => exact nomatch h
  case notice => exact nomatch h
  case auxPowerLoss => exact nomatch h2
  case auxPowerReturn => exact nomatch h2
  case hubResetRelease => exact nomatch h2
  case railRampTimeout => refine .inl ⟨?w534, ?h534⟩; case h534 => show execRailRampTimeout .. = _; unfold execRailRampTimeout; rfl
  case ideKm => refine .inl ⟨?w535, ?h535⟩; case h535 => show execIdeKm .. = _; unfold execIdeKm; rfl
  case i3cDynamicAddress => exact nomatch h2
/-- A command that main power does not gate. -/
theorem exec_ungated (h : ungated c = true) : ∃ f, exec c s = supAny f s := by
  cases c
  case regWrite => exact nomatch h
  case tickBoundary => exact nomatch h
  case tickLost => exact nomatch h
  case tickTreeWrite => exact nomatch h
  case tickPeriodWrite => exact nomatch h
  case tickGuardWrite => exact nomatch h
  case tick => exact nomatch h
  case delayMeasure => exact nomatch h
  case delayReq => exact nomatch h
  case delayResp => exact nomatch h
  case stretchReq => exact nomatch h
  case jobAdmit => exact nomatch h
  case roomClearingDone => exact nomatch h
  case jobStart => exact nomatch h
  case jobRestart => exact nomatch h
  case jobRelease => exact nomatch h
  case slotDispatch => exact nomatch h
  case stepComplete => exact nomatch h
  case stepDeadline => exact nomatch h
  case boundaryWorkDone => exact nomatch h
  case scrubTile => exact nomatch h
  case read => exact nomatch h
  case write => exact nomatch h
  case atomic => exact nomatch h
  case readRsp => exact nomatch h
  case writeRsp => exact nomatch h
  case atomicRsp => exact nomatch h
  case reqTimeout => exact nomatch h
  case demandDecay => exact nomatch h
  case migHint => exact nomatch h
  case migCopyStart => exact nomatch h
  case migPassEnd => exact nomatch h
  case migDrainDone => exact nomatch h
  case migFlip => exact nomatch h
  case migAbandon => exact nomatch h
  case maintLockGrant => exact nomatch h
  case migMaintWait => exact nomatch h
  case reduce => exact nomatch h
  case postedReduce => exact nomatch h
  case postCutoff => exact nomatch h
  case postConvert => exact nomatch h
  case mcastStore => exact nomatch h
  case ckptData => exact nomatch h
  case ckptAssemblyTimeout => exact nomatch h
  case ckptAck => exact nomatch h
  case ckptAckTimeout => exact nomatch h
  case ckptCopy => exact nomatch h
  case portCtlWrite => exact nomatch h
  case portDetectDone => exact nomatch h
  case portTrainDone => exact nomatch h
  case portLockDone => exact nomatch h
  case portNegotiateDone => exact nomatch h
  case portStageTimeout => exact nomatch h
  case portDownWait => exact nomatch h
  case laneLockLost => exact nomatch h
  case recoverTimeout => exact nomatch h
  case idleBlock => exact nomatch h
  case nak => exact nomatch h
  case laneBlock => exact nomatch h
  case negBlock => exact nomatch h
  case retrain => exact nomatch h
  case cellCrcFail => exact nomatch h
  case nakRepeat => exact nomatch h
  case fabBadCell => exact nomatch h
  case switchCellArrive => exact nomatch h
  case switchMatch => exact nomatch h
  case cellEgress => exact nomatch h
  case skimIssue => exact nomatch h
  case fabCredInitWrite => exact nomatch h
  case swxProfWrite => exact nomatch h
  case swxBufWrite => exact nomatch h
  case mcastSet => exact nomatch h
  case tagSet => exact nomatch h
  case shaperWrite => exact nomatch h
  case meterWrite => exact nomatch h
  case gateWrite => exact nomatch h
  case samplePeriodClose => exact nomatch h
  case crdS => exact nomatch h
  case crdE => exact nomatch h
  case cupg => exact nomatch h
  case cwb => exact nomatch h
  case csnpRsp => exact nomatch h
  case biconflict => exact nomatch h
  case holdWindowEnd => exact nomatch h
  case cohSnoopSlow => exact nomatch h
  case predDecay => exact nomatch h
  case lostWalkDone => exact nomatch h
  case cohWinWrite => exact nomatch h
  case lostWrites => exact nomatch h
  case segtRead => exact nomatch h
  case segtWrite => exact nomatch h
  case winRead => exact nomatch h
  case winWrite => exact nomatch h
  case fltPop => exact nomatch h
  case fltOvfClr => exact nomatch h
  case vtOpen => exact nomatch h
  case vtSwitch => exact nomatch h
  case vtClose => exact nomatch h
  case strnOpen => exact nomatch h
  case strnClose => exact nomatch h
  case mutationCommit => exact nomatch h
  case extAdd => exact nomatch h
  case extRevoke => exact nomatch h
  case extRelease => exact nomatch h
  case leaseRenew => exact nomatch h
  case ember => exact nomatch h
  case extGrace => exact nomatch h
  case leaseExpire => exact nomatch h
  case extDrainDone => exact nomatch h
  case extDrainCut => exact nomatch h
  case extReleased => exact nomatch h
  case addDcResponse => exact nomatch h
  case releaseDc => exact nomatch h
  case extOfferLapsed => exact nomatch h
  case compSet => exact nomatch h
  case compClear => exact nomatch h
  case handover => exact nomatch h
  case hoBegin => exact nomatch h
  case hoReleaseCheck => exact nomatch h
  case hoReady => exact nomatch h
  case hoRelease => exact nomatch h
  case hoCommit => exact nomatch h
  case hoRevert => exact nomatch h
  case hoTimeout => exact nomatch h
  case ownQuery => exact nomatch h
  case ownAnswer => exact nomatch h
  case ownQueryTimer => exact nomatch h
  case compNoOwner => exact nomatch h
  case hoMessageRetry => exact nomatch h
  case memRd => exact nomatch h
  case memWr => exact nomatch h
  case memInv => exact nomatch h
  case birsp => exact nomatch h
  case getEventRecords => exact nomatch h
  case clearEventRecords => exact nomatch h
  case getEventInterruptPolicy => exact nomatch h
  case setEventInterruptPolicy => exact nomatch h
  case getTimestamp => exact nomatch h
  case setTimestamp => exact nomatch h
  case getSupportedLogs => exact nomatch h
  case getLog => exact nomatch h
  case identifyMemoryDevice => exact nomatch h
  case getDcConfiguration => exact nomatch h
  case getDcExtentList => exact nomatch h
  case mldManagement => exact nomatch h
  case mailboxUnsupported => exact nomatch h
  case engSubmit => exact nomatch h
  case engStepSuspend => exact nomatch h
  case engStepResume => exact nomatch h
  case winList => exact nomatch h
  case tenantEnable => exact nomatch h
  case tenantDisable => exact nomatch h
  case ldEnable => exact nomatch h
  case ldDisable => exact nomatch h
  case fnState => exact nomatch h
  case noticeSub => exact nomatch h
  case fnDrainDone => exact nomatch h
  case fnDrainCut => exact nomatch h
  case fnOff => exact nomatch h
  case ringTailWrite => exact nomatch h
  case sysringTailWrite => exact nomatch h
  case ringCfgWrite => exact nomatch h
  case ringCoalesceTimer => exact nomatch h
  case hostLinkUp => exact nomatch h
  case hostLinkDown => exact nomatch h
  case perstAssert => refine ⟨?w702, ?h702⟩; case h702 => show execPerstAssert .. = _; unfold execPerstAssert; rfl
  case perstRelease => refine ⟨?w703, ?h703⟩; case h703 => show execPerstRelease .. = _; unfold execPerstRelease; rfl
  case abort => exact nomatch h
  case herdForm => exact nomatch h
  case herdAbort => exact nomatch h
  case herdCull => exact nomatch h
  case herdReimage => exact nomatch h
  case herdRebalance => exact nomatch h
  case herdShadow => exact nomatch h
  case herdStatus => exact nomatch h
  case herdScoreClear => exact nomatch h
  case beatSend => exact nomatch h
  case beat => exact nomatch h
  case memberLost => exact nomatch h
  case epochDone => exact nomatch h
  case epochCommit => exact nomatch h
  case restart => exact nomatch h
  case restored => exact nomatch h
  case restoreReq => exact nomatch h
  case restoreComplete => exact nomatch h
  case digest => exact nomatch h
  case digestMissing => exact nomatch h
  case members => exact nomatch h
  case shadowPassed => exact nomatch h
  case herdMessageRetry => exact nomatch h
  case scoreDecay => exact nomatch h
  case cullBudgetExpire => exact nomatch h
  case energySample => exact nomatch h
  case fastLimitStep => exact nomatch h
  case fastLimitEnd => exact nomatch h
  case emergLower => exact nomatch h
  case dampCapWrite => exact nomatch h
  case pwrAlertAssert => exact nomatch h
  case pwrAlertClear => exact nomatch h
  case internalAlert => exact nomatch h
  case internalAlertClear => exact nomatch h
  case dampAlertEnd => exact nomatch h
  case sensorRead => exact nomatch h
  case auxPowerOn => refine ⟨?w740, ?h740⟩; case h740 => show execAuxPowerOn .. = _; unfold execAuxPowerOn; rfl
  case powerStart => refine ⟨?w741, ?h741⟩; case h741 => show execPowerStart .. = _; unfold execPowerStart; rfl
  case mainEnFall => refine ⟨?w742, ?h742⟩; case h742 => show execMainEnFall .. = _; unfold execMainEnFall; rfl
  case mainPowerFault => refine ⟨?w743, ?h743⟩; case h743 => show execMainPowerFault .. = _; unfold execMainPowerFault; rfl
  case warmResetPin => refine ⟨?w744, ?h744⟩; case h744 => show execWarmResetPin .. = _; unfold execWarmResetPin; rfl
  case warmResetReg => exact nomatch h
  case watchdogExpire => refine ⟨?w746, ?h746⟩; case h746 => show execWatchdogExpire .. = _; unfold execWatchdogExpire; rfl
  case pllLockLost => exact nomatch h
  case pllResetTimer => exact nomatch h
  case powerDone => exact nomatch h
  case romDone => exact nomatch h
  case verifyDone => exact nomatch h
  case configDone => exact nomatch h
  case storeDone => exact nomatch h
  case rngHealthFail => exact nomatch h
  case rngHealthPass => exact nomatch h
  case startStageTimeout => exact nomatch h
  case startRetry => exact nomatch h
  case yokeHello => exact nomatch h
  case yokeFormed => exact nomatch h
  case yokeRefused => exact nomatch h
  case applyEnd => exact nomatch h
  case cellarStore => exact nomatch h
  case cellarWriteDone => exact nomatch h
  case cfgInfo => exact nomatch h
  case cfgIdent => exact nomatch h
  case lockSet => exact nomatch h
  case secLockWrite => exact nomatch h
  case svnRaise => exact nomatch h
  case imageWrite => exact nomatch h
  case imageCommit => exact nomatch h
  case debugUnlock => exact nomatch h
  case getVersion => exact nomatch h
  case getCapabilities => exact nomatch h
  case negotiateAlgorithms => exact nomatch h
  case getDigests => exact nomatch h
  case getCertificate => exact nomatch h
  case challenge => exact nomatch h
  case getMeasurements => exact nomatch h
  case keyExchange => exact nomatch h
  case finish => exact nomatch h
  case endSession => exact nomatch h
  case getCosign => exact nomatch h
  case getPqChain => exact nomatch h
  case read64 => refine ⟨?w784, ?h784⟩; case h784 => show execRead64 .. = _; unfold execRead64; rfl
  case write64 => refine ⟨?w785, ?h785⟩; case h785 => show execWrite64 .. = _; unfold execWrite64; rfl
  case mbxIn => refine ⟨?w786, ?h786⟩; case h786 => show execMbxIn .. = _; unfold execMbxIn; rfl
  case mbxStatus => refine ⟨?w787, ?h787⟩; case h787 => show execMbxStatus .. = _; unfold execMbxStatus; rfl
  case mbxOut => refine ⟨?w788, ?h788⟩; case h788 => show execMbxOut .. = _; unfold execMbxOut; rfl
  case telemetry => refine ⟨?w789, ?h789⟩; case h789 => show execTelemetry .. = _; unfold execTelemetry; rfl
  case idcode => refine ⟨?w790, ?h790⟩; case h790 => show execIdcode .. = _; unfold execIdcode; rfl
  case samplePreload => refine ⟨?w791, ?h791⟩; case h791 => show execSamplePreload .. = _; unfold execSamplePreload; rfl
  case extest => refine ⟨?w792, ?h792⟩; case h792 => show execExtest .. = _; unfold execExtest; rfl
  case tokenLoad => refine ⟨?w793, ?h793⟩; case h793 => show execTokenLoad .. = _; unfold execTokenLoad; rfl
  case tokenStatus => refine ⟨?w794, ?h794⟩; case h794 => show execTokenStatus .. = _; unfold execTokenStatus; rfl
  case dbgAccess => refine ⟨?w795, ?h795⟩; case h795 => show execDbgAccess .. = _; unfold execDbgAccess; rfl
  case bypass c r => refine ⟨?w796, ?h796⟩; case h796 => show execBypass c r s = _; unfold execBypass; rfl
  case engineIntervalEnd => exact nomatch h
  case notice => exact nomatch h
  case auxPowerLoss => refine ⟨?w799, ?h799⟩; case h799 => show execAuxPowerLoss .. = _; unfold execAuxPowerLoss; rfl
  case auxPowerReturn => refine ⟨?w800, ?h800⟩; case h800 => show execAuxPowerReturn .. = _; unfold execAuxPowerReturn; rfl
  case hubResetRelease => refine ⟨?w801, ?h801⟩; case h801 => show execHubResetRelease .. = _; unfold execHubResetRelease; rfl
  case railRampTimeout => exact nomatch h
  case ideKm => exact nomatch h
  case i3cDynamicAddress => refine ⟨?w804, ?h804⟩; case h804 => show execI3cDynamicAddress .. = _; unfold execI3cDynamicAddress; rfl

end Sys2Proof.Laws
end

