-- ==== Sys2Proof/Laws/Words.lean ====
section
/-! SUPPORT. Laws/Words.lean: little-endian numbers in lists of bytes, and reading back what was written. -/

namespace Sys2Proof.Laws

open Sys2Proof Sys2Proof.Machine

/-! ### Little-endian numbers -/

@[simp] theorem natLe_length (n v : Nat) : (natLe n v).length = n := by
  induction n generalizing v with
  | zero => rfl
  | succ n ih => simp [natLe, ih]

theorem leNat_natLe (n v : Nat) : leNat (natLe n v) = v % 256 ^ n := by
  induction n generalizing v with
  | zero => simp [natLe, leNat, Nat.mod_one]
  | succ n ih =>
    simp only [natLe, leNat, ih, BitVec.toNat_ofNat]
    rw [show 256 ^ (n + 1) = 256 * 256 ^ n by rw [Nat.pow_succ, Nat.mul_comm], Nat.mod_mul]

@[simp] theorem slice_length (l : List Byte) (off n : Nat) : (slice l off n).length = n := by simp [slice]

/-- A field past the first piece of a list. -/
theorem slice_skip {a l : List Byte} {off n : Nat} (h : a.length ≤ off) : slice (a ++ l) off n = slice l (off - a.length) n := by
  unfold slice
  rw [List.drop_append, List.drop_eq_nil_of_le h, List.nil_append]

/-- The first piece of a list. -/
theorem slice_first {a l : List Byte} {n : Nat} (h : a.length = n) : slice (a ++ l) 0 n = a := by
  unfold slice; subst h; simp

theorem slice_all {a : List Byte} {n : Nat} (h : a.length = n) : slice a 0 n = a := by
  unfold slice; subst h; simp

theorem getLE_skip {k v off n : Nat} {l : List Byte} (h : k ≤ off) : getLE (natLe k v ++ l) off n = getLE l (off - k) n := by
  unfold getLE; rw [slice_skip (by simpa using h), natLe_length]
theorem getLE_first {n v : Nat} {l : List Byte} : getLE (natLe n v ++ l) 0 n = v % 256 ^ n := by
  unfold getLE; rw [slice_first (by simp), leNat_natLe]
theorem getLE_last {n v : Nat} : getLE (natLe n v) 0 n = v % 256 ^ n := by
  unfold getLE; rw [slice_all (by simp), leNat_natLe]

/-! ### Bytes of memory -/

/-- Consecutive bytes written: each is read back, every other address reads as before. -/
theorem read_writeN {m : List Host.Cell} (h : Memory.wf m) (a : Nat) (d : List Byte) (x : Nat) :
    Memory.read (Memory.writeN m a d) x = if a ≤ x ∧ x < a + d.length then d.getD (x - a) 0 else Memory.read m x := by
  induction d generalizing m a with
  | nil => simp [Memory.writeN]
  | cons b d ih =>
    simp only [Memory.writeN, ih (write_wf h a b), read_write h, List.length_cons]
    by_cases h1 : x = a
    · subst h1; simp
    · by_cases h2 : a + 1 ≤ x ∧ x < a + 1 + d.length
      · have h3 : a ≤ x ∧ x < a + (d.length + 1) := by omega
        have h4 : x - a = x - (a + 1) + 1 := by omega
        simp only [h2, h3, and_self, if_true, h4, List.getD_cons_succ]
      · have h3 : ¬ (a ≤ x ∧ x < a + (d.length + 1)) := by omega
        simp only [h2, h3, if_false, h1]

end Sys2Proof.Laws
end

