-- ==== Sys2Proof/Tests/Slice0.lean ====
section
/-! SUPPORT. Tests/Slice0.lean: one ill-formed term per check of WellFormed, small tests of single commands against values that the
spec's text gives, and a state and operands that meet the hypotheses of each statement. -/

namespace Sys2Proof.Tests

set_option Elab.async false

open Sys2Proof Sys2Proof.Machine

/-! ### Small states -/

/-- A hub in a stage of its start. -/
def tStage (g : Stage) : State := { State.reset with sup := { State.reset.sup with stage := g } }
/-- A hub in RUN. -/
def tRun : State := tStage .run
/-- A cell for this hub with no payload. -/
def tCell (ty vn : Nat) : Cell :=
  { ty := ty, vn := vn, colour := 0, ce := false, fwd := false, last := false, dst := 0, src := 0, dstEp := 0xFF, srcEp := 0, addr := 0, tag := 0, txn := 0, epoch := 0, opx := 0, len := 0, ack := 0, cvn := 0, ccnt := 0, payload := [] }
/-- A hub in RUN whose LD 0 is ON and bound to tenant 3, with one dynamic-capacity tile and the host link up. -/
def tLd : State :=
  (({ tRun with host := { tRun.host with tenants := [(3, { state := .on })], lds := [(0, { state := .on })], linkUp := true, perst := false } } : State).put (F.HOST_LD_CFG_TENANT 0) 3
    |>.put (F.HOST_LD_CFG_BOUND 0) 1).put (F.HOST_LD_DC_DC_LEN 0) 1
/-- A member of a tick tree that has missed 16 boundaries. -/
def tMember : State := ({ tRun with tk := { tRun.tk with missed := 16, num := 1000000 } } : State).put F.TICK_TREE_PARENT 3
def tSlot : SlotE := { tick := 0, cls := 1, inst := 0, phase := 0, start := 10, fin := 20, step := 0 }
/-- A job of tenant 3 in slot 4, in a state of Table 01-4. -/
def tJob (st : JobState) : State :=
  { tLd with seq := { tLd.seq with jobs := [(4, { state := st, tenant := 3, holds := true, image := { tenant := 3, members := 2, slots := [tSlot], steps := [[1, 1]] } })] } }
/-- A copy at its cut-over, and one that still passes. -/
def tCp : Copy := { tile := 9, close := some 3, drained := true }
def tCp8 : Copy := { tile := 8, passes := 1 }
def tCopy : State := { tRun with st := { tRun.st with copies := [tCp, tCp8] } }
/-- Port 2 leads to an agent. -/
def tAgent : State := { tRun with fab := { tRun.fab with ports := [(2, { state := .up, peer := some { hub := false } })] } }
def tToAgent : Cell := { tCell 0x10 1 with dstEp := 2 }
/-- Extent 0 of tenant 3, held by LD 0, in a state of Table 14-2. -/
def tExt (st : Nat) : State :=
  { tLd with ext := { tLd.ext with exts := [(0, { state := st, dcd := true, tenant := 3, start := 0, len := 65536, holder := reqLd tLd 0, rights := 3, period := 0 })] } }
/-- Composition entry 4, home of tenant 3's piece, this hub its owner and its record's home. -/
def tPiece : Piece := { state := 1, home := true, tenant := 3, tiles := 1, va := 0, owner := 0, recHub := 0, recIdx := 4 }
def tPieces : State := { tRun with ext := { tRun.ext with pieces := [(4, tPiece)] } }
/-- A hand-over message about entry 4 of hub 0's record. -/
def tHo (msg status : Nat) : Cell :=
  { tCell 0x02 0 with tag := 0xFFFF, addr := 0x2E05C900000, len := 63, payload := natLe 1 msg ++ natLe 1 status ++ natLe 2 0 ++ natLe 4 4 ++ natLe 4 0 }
/-- A herd of hubs 0 and 2 in slot 4, led by hub 0, that may cull. -/
def tHerd : State :=
  { tJob .admitted with herd := { tRun.herd with herds := [(4, { state := 2, id := 77, min := 1, members := [{ idx := 0, hub := 0 }, { idx := 1, hub := 2 }] })] }, tk := { tRun.tk with num := 1000000 } }
/-- A herd message of hub 2. -/
def tHerdMsg (msg : Nat) : Cell :=
  { tCell 0x02 0 with tag := 0xFFFF, addr := herdInbox, len := 63, src := 2, payload := natLe 1 msg ++ natLe 1 0 ++ natLe 2 2 ++ natLe 4 77 ++ natLe 4 0 }
/-- Port 5 in a state of its own. -/
def tPort (p : Port) : State := { tRun with fab := { tRun.fab with ports := [(5, p)] } }
/-- A request at Cell Switch input 33. -/
def tReq : Req := { id := 1, time := 0, inp := 33, cell := tCell 0x01 0 }
/-- A message to hub 2 that is not answered. -/
def tMsg : Msg := { id := 6, herd := false, dst := 2, addr := 0, payload := [], sent := 0 }
/-- Port 5 has a cell to send. -/
def tOut : State := { tPort { state := .up } with fab := { (tPort { state := .up }).fab with egress := [{ id := 1, c := tCell 0x01 0, inp := 33, out := 5, plane := 0 }], slot := 1 } }
/-- Tenant 3 is privileged; it has row handle 0 open and collection handle 2 taken. -/
def tPriv : State := ({ tLd with hnd := { tLd.hnd with vts := [(0, { isOpen := true, tenant := 3 })], colls := [(2, { taken := true, isOpen := true, tenant := 3 })] } } : State).put (F.ROWE_PRIV_MASK 0) 8

/-- Tenant 3 has a segment of 16 tiles at virtual address 0, all rights. -/
def tSeg : State := { tLd with xlt := { tLd.xlt with segs := [(24, { w0 := 2 ^ 63, w1 := 16, w2 := 7 })] } }
/-- A schedule image of tenant 3 for hubs 0 and 2: one reservation, one slot, one step. -/
def tImageBody : List Byte :=
  natLe 4 0x4843535A ++ natLe 2 1 ++ natLe 2 0 ++ natLe 2 3 ++ natLe 2 2 ++ natLe 4 0 ++ natLe 4 (tLd.fld F.TICK_PERIOD_BASE) ++ natLe 4 0 ++ natLe 4 1 ++ natLe 4 0 ++ natLe 4 1 ++ natLe 4 1 ++ natLe 4 1 ++ natLe 4 1 ++ natLe 8 0
  ++ natLe 4 184 ++ natLe 4 128 ++ natLe 4 136 ++ natLe 4 160 ++ natLe 4 128 ++ natLe 4 0 ++ natLe 4 176 ++ List.replicate 44 0
  ++ natLe 1 1 ++ natLe 1 0 ++ natLe 2 0 ++ natLe 4 1024
  ++ natLe 4 0 ++ natLe 2 1 ++ natLe 2 0 ++ natLe 2 0 ++ natLe 2 512 ++ natLe 2 1024 ++ natLe 2 0 ++ natLe 4 0 ++ natLe 4 0
  ++ natLe 1 1 ++ natLe 1 1 ++ List.replicate 14 0 ++ natLe 2 0 ++ natLe 2 2 ++ natLe 4 0
def tImage : List Byte := patch tImageBody 120 (natLe 8 (crc64 (patch tImageBody 120 (List.replicate 8 0))))
/-- Tile 0 holds the image, in slot 9. -/
def tImg : State := { tSeg with mem := Memory.writeN [] (slotKey 9 0) tImage, st := { tSeg.st with tiles := [(0, { state := .sealed, tenant := 3, loc := 9 })] } }
/-- A TICK tree cell with a payload. -/
def tTick (pl : List Byte) : Cell := { tCell 0x30 3 with tag := 0xFFFF, payload := pl }
/-- The member's parent and its ports, up, with a delay request out. -/
def tTree : State :=
  ({ tMember with fab := { tMember.fab with ports := [(3, { state := .up, peer := some { hub := true, domain := tMember.fld F.TICK_TREE_DOMAIN } }), (4, { state := .up, peer := some { hub := true, domain := tMember.fld F.TICK_TREE_DOMAIN } })] }, tk := { tMember.tk with delayReq := some 0 } } : State).put F.TICK_CHILDREN_MASK 16
/-- A herd of hubs 0 and 2 in slot 4, its job FAULTED, its leader waiting for an image; tile 0 holds one. -/
def tAwait : State :=
  { tImg with seq := { tImg.seq with jobs := [(4, { state := .faulted, tenant := 3, image := { tenant := 3, members := 2 } })] }, herd := { tImg.herd with herds := [(4, { state := 3, id := 77, min := 1, members := [{ idx := 0, hub := 0 }, { idx := 1, hub := 2 }] })] } }
/-- LD 0's line at device address 0, asked for by a snoop. -/
def tSnoop : State :=
  (({ tSeg with coh := { tSeg.coh with dir := [(0, { valid := true })], snoops := [{ line := 0, agent := 0, txn := 0, inv := true, since := 2 }] } } : State).put (F.COH_AGENT_LD_VALID 0) 1).put (F.COH_AGENT_LD_LD 0) 0
/-- A scrub's lock that waits. -/
def tLock : MLock := { id := 6, act := .scrub, first := 0, count := 1, held := false }
/-- Tile 0 sealed, a copy queued and a scrub that waits. -/
def tBarrow : State :=
  { tSeg with st := { tSeg.st with tiles := [(0, { state := .sealed, tenant := 3, loc := 9 })], queue := [{ tile := 0, promote := locFar 9 }], locks := [tLock] } }
/-- The image that tile 0 holds. -/
def tImageRead : Image :=
  { tenant := 3, members := 2, period := tLd.fld F.TICK_PERIOD_BASE, body := 1, repeats := 1, res := [{ cls := 1, inst := 0, amount := 1024 }],
    slots := [{ tick := 0, cls := 1, inst := 0, phase := 0, start := 512, fin := 1024, step := 0 }], steps := [[1, 1] ++ List.replicate 14 0], memberIds := [0, 2] }
/-- A collection record in tile 0: 32-byte vectors, one centroid, one list tile, its areas in tiles 1 to 5. -/
def tColl : State :=
  { tImg with mem := Memory.writeN [] (slotKey 9 0) (natLe 2 32 ++ natLe 2 5 ++ natLe 4 1 ++ natLe 8 1 ++ natLe 8 65536 ++ natLe 8 131072 ++ natLe 8 196608 ++ natLe 8 262144 ++ natLe 8 327680) }
def tCollRec : CollRec := { dim := 32, vlog := 5, ncent := 1, nlist := 1, cent := 65536, ctab := 131072, list := 196608, vec := 262144, stmap := 327680 }
/-- An inbound window admits tenant 3's cells with tag 7, and one of them. -/
def tWin : State := { tSeg with xlt := { tSeg.xlt with wins := [(0, { w0 := 2 ^ 63 + 7 * 2 ^ 32 + 3 * 2 ^ 16 + 0xFFFF, w1 := 2 ^ 50 - 1, w2 := 7 })] } }
def tWinCell : Cell := { tCell 0x01 0 with tag := 7, addr := 64 }
/-- Tile 0 sealed in far tier. -/
def tFar : State := { tSeg with st := { tSeg.st with tiles := [(0, { state := .sealed, tenant := 3, loc := mkLoc true 0 5 })] } }
/-- Tile 0's line at byte 64 is held by an agent, in coherent window 0. -/
def tHeld (s : State) : State := (({ s with coh := { s.coh with dir := [(1, { valid := true })] } } : State).put (F.COH_WIN_BASE_EN 0) 1).put (F.COH_WIN_END_END 0) 16
/-- A mutation of collection 2 in progress, of so many records, its ID list at address 64. -/
def tMutStep (n : Nat) : Step := { id := 7, kind := 0x21, cls := 3, tenant := 3, body := natLe 2 2 ++ natLe 2 0 ++ natLe 4 n ++ natLe 8 0 ++ natLe 8 64, aux := [2] }
def tMut (n : Nat) : State := { tSeg with seq := { tSeg.seq with steps := [tMutStep n] } }
def tUps : List Upset := [{ tile := 0, twice := false }]
/-- What STRN_OPEN has read of them: the record, then its centroid table. -/
def tSnap : List Byte × Rd := snapBytes (cmdStep (ldTenant tColl 0)) none { st := St.ok, cache := [], s := withUps tColl tUps } 0 64
def tTab : List Byte × Rd := areaBytes (cmdStep (ldTenant tColl 0)) tSnap.2 131072 8

/-! ### Well-formed and ill-formed terms -/

def gC : Cell := tCell 0 0
def gW : RegW := { path := .fm, half := .whole, val := 0 }
def gA : RegAcc := { path := .fm, off := 0, size := 8, val := 0 }
def gD : DcRange := { dpa := 0, len := 0 }
def gX : ExtFields := { flags := 0, tenant := 0, start := 0, len := 0, holder := 0, rights := 0, period := 0 }
def gE : EnergySample := { input := 0, rail0 := 0, rail1 := 0, rail2 := 0, rail3 := 0, sched := 0, unsched := 0 }
def gI : CfgIdent := { hubId := 0, yoke := false, upper := false, pairId := 0, peerSerial := 0, level := 0 }
def bC : Cell := { gC with dstEp := 256 }
def bW : RegW := { gW with half := .lo, val := 2 ^ 32 }
def bA : RegAcc := { gA with size := 1, val := 256 }
def bD : DcRange := { dpa := 0, len := 2 ^ 64 }
def bX : ExtFields := { gX with rights := 256 }
def bE : EnergySample := { gE with unsched := 2 ^ 32 }
def bI : CfgIdent := { gI with level := 2 ^ 16 }
def bU : Upset := { tile := 48234496, twice := false }
theorem test_ill_formed_cell : [{ gC with ty := 256 }, { gC with vn := 4 }, { gC with colour := 4 }, { gC with dst := 2 ^ 16 }, { gC with src := 2 ^ 16 }, { gC with dstEp := 256 }, { gC with srcEp := 256 }, { gC with addr := 2 ^ 64 }, { gC with tag := 2 ^ 16 }, { gC with txn := 2 ^ 16 }, { gC with epoch := 2 ^ 16 }, { gC with opx := 256 }, { gC with len := 256 }, { gC with ack := 2 ^ 12 }, { gC with cvn := 4 }, { gC with ccnt := 2 ^ 16 }, { gC with payload := List.replicate 257 0 }].all (fun x => !x.wf) = true ∧ gC.wf = true := by decide +kernel
theorem test_ill_formed_reg_write : [{ gW with path := .bar2 16 }, { gW with val := 2 ^ 64 }, { gW with half := .lo, val := 2 ^ 32 }, { gW with half := .hi, val := 2 ^ 32 }].all (fun x => !x.wf) = true ∧ gW.wf = true := by decide +kernel
theorem test_ill_formed_reg_access : [{ gA with path := .bar2 16 }, { gA with off := 2 ^ 32 }, { gA with val := 2 ^ 64 }, { gA with size := 4, val := 2 ^ 32 }].all (fun x => !x.wf) = true ∧ gA.wf = true := by decide +kernel
theorem test_ill_formed_range : [{ gD with dpa := 2 ^ 64 }, { gD with len := 2 ^ 64 }].all (fun x => !x.wf) = true ∧ gD.wf = true := by decide +kernel
theorem test_ill_formed_extent : [{ gX with flags := 256 }, { gX with tenant := 2 ^ 16 }, { gX with start := 2 ^ 64 }, { gX with len := 2 ^ 64 }, { gX with holder := 2 ^ 32 }, { gX with rights := 256 }, { gX with period := 2 ^ 32 }].all (fun x => !x.wf) = true ∧ gX.wf = true := by decide +kernel
theorem test_ill_formed_energy : [{ gE with input := 2 ^ 32 }, { gE with rail0 := 2 ^ 32 }, { gE with rail1 := 2 ^ 32 }, { gE with rail2 := 2 ^ 32 }, { gE with rail3 := 2 ^ 32 }, { gE with sched := 2 ^ 32 }, { gE with unsched := 2 ^ 32 }].all (fun x => !x.wf) = true ∧ gE.wf = true := by decide +kernel
theorem test_ill_formed_ident : [{ gI with hubId := 2 ^ 16 }, { gI with pairId := 2 ^ 16 }, { gI with peerSerial := 2 ^ 64 }, { gI with level := 2 ^ 16 }].all (fun x => !x.wf) = true ∧ gI.wf = true := by decide +kernel
theorem test_ill_formed_names : Mbx.wf (.ld 16) = false ∧ Mbx.wf .gone = false ∧ Fn.wf (.tenant 65536) = false ∧ Fn.wf (.ld 256) = false ∧ bU.wf = false ∧ SpdmConn.wf (.doe 16) = false := by decide
theorem test_ill_formed_1 : ([.regWrite bA, .tickTreeWrite bW, .tickPeriodWrite bW, .tickGuardWrite bW, .tick 26 0 gC, .tick 0 16 gC, .tick 0 0 bC, .delayReq 26 0 gC, .delayReq 0 16 gC, .delayReq 0 0 bC, .delayResp 26 0 gC, .delayResp 0 16 gC, .delayResp 0 0 bC, .stretchReq 26 gC, .stretchReq 0 bC, .jobAdmit .gone 0, .jobAdmit .fm (2 ^ 64), .roomClearingDone 32, .jobStart .gone 0 0, .jobStart .fm 256 0, .jobStart .fm 0 (2 ^ 48), .jobRestart .gone 0 0, .jobRestart .fm 256 0, .jobRestart .fm 0 (2 ^ 48)] : List Instr).all (fun i => !i.wf) = true := by decide +kernel
theorem test_ill_formed_2 : ([.jobRelease .gone 0, .jobRelease .fm 256, .slotDispatch 32 0 [], .slotDispatch 0 1024 [], .slotDispatch 0 0 [bU], .scrubTile [bU], .read 34 gC, .read 0 bC, .write 34 gC, .write 0 bC, .atomic 34 gC, .atomic 0 bC, .readRsp 34 gC, .readRsp 0 bC, .writeRsp 34 gC, .writeRsp 0 bC, .atomicRsp 34 gC, .atomicRsp 0 bC, .reqTimeout (2 ^ 16), .migHint .gone 0 0 0, .migHint .fm (2 ^ 64) 0 0, .migHint .fm 0 (2 ^ 32) 0, .migHint .fm 0 0 256, .migCopyStart 48234496] : List Instr).all (fun i => !i.wf) = true := by decide +kernel
theorem test_ill_formed_3 : ([.migPassEnd 48234496 [], .migPassEnd 0 [bU], .migDrainDone 48234496, .migFlip 48234496, .migAbandon 48234496, .reduce 34 gC, .reduce 0 bC, .postedReduce 34 gC, .postedReduce 0 bC, .postConvert 48234496, .mcastStore 34 gC, .mcastStore 0 bC, .ckptData 34 gC, .ckptData 0 bC, .ckptAssemblyTimeout 48234496, .ckptAck 34 gC, .ckptAck 0 bC, .ckptAckTimeout 0 48234496, .ckptCopy .gone [] [], .ckptCopy .fm [] [bU], .portCtlWrite 26 gW, .portCtlWrite 0 bW, .portDetectDone 26, .portTrainDone 26] : List Instr).all (fun i => !i.wf) = true := by decide +kernel
theorem test_ill_formed_4 : ([.portLockDone 26 0, .portNegotiateDone 26, .portStageTimeout 26 0, .portStageTimeout 0 256, .portDownWait 26, .laneLockLost 26 0, .laneLockLost 0 8, .recoverTimeout 26, .idleBlock 26 (List.replicate 32 0), .idleBlock 0 [], .nak 26 (List.replicate 32 0), .nak 0 [], .laneBlock 26 (List.replicate 32 0), .laneBlock 0 [], .negBlock 26 (List.replicate 32 0), .negBlock 0 [], .retrain 26 (List.replicate 32 0), .retrain 0 [], .cellCrcFail 26, .nakRepeat 26, .fabBadCell 34 gC, .fabBadCell 0 bC, .switchCellArrive 34 gC, .switchCellArrive 0 bC] : List Instr).all (fun i => !i.wf) = true := by decide +kernel
theorem test_ill_formed_5 : ([.cellEgress 26, .skimIssue 2, .fabCredInitWrite bW, .swxProfWrite 4 0 gW, .swxProfWrite 0 3 gW, .swxProfWrite 0 0 bW, .swxBufWrite bW, .mcastSet .gone 0 0, .mcastSet .fm (2 ^ 16) 0, .mcastSet .fm 0 (2 ^ 64), .tagSet .gone 0 0, .tagSet .fm (2 ^ 16) 0, .tagSet .fm 0 (2 ^ 64), .shaperWrite 26 0 .cfg gW, .shaperWrite 0 16 .cfg gW, .shaperWrite 0 0 .cfg bW, .meterWrite 1024 .cfg gW, .meterWrite 0 .cfg bW, .gateWrite 26 0 0 gW, .gateWrite 0 8 0 gW, .gateWrite 0 0 4 gW, .gateWrite 0 0 0 bW, .crdS 34 gC, .crdS 0 bC] : List Instr).all (fun i => !i.wf) = true := by decide +kernel
theorem test_ill_formed_6 : ([.crdE 34 gC, .crdE 0 bC, .cupg 34 gC, .cupg 0 bC, .cwb 34 gC, .cwb 0 bC, .csnpRsp 34 gC, .csnpRsp 0 bC, .biconflict 16 0, .biconflict 0 (2 ^ 52), .holdWindowEnd (2 ^ 37), .cohSnoopSlow (2 ^ 37) 0, .cohSnoopSlow 0 64, .cohWinWrite 64 .base gW, .cohWinWrite 0 .base bW, .lostWrites .gone 0 0, .lostWrites .fm (2 ^ 16) 0, .lostWrites .fm 0 (2 ^ 16), .segtRead bW, .segtWrite bW, .winRead bW, .winWrite bW, .fltPop bW, .fltOvfClr bW] : List Instr).all (fun i => !i.wf) = true := by decide +kernel
theorem test_ill_formed_7 : ([.vtOpen .gone 0, .vtOpen .fm (2 ^ 64), .vtSwitch .gone 0 0, .vtSwitch .fm (2 ^ 16) 0, .vtSwitch .fm 0 (2 ^ 64), .vtClose .gone 0, .vtClose .fm (2 ^ 16), .strnOpen .gone 0 [], .strnOpen .fm (2 ^ 64) [], .strnOpen .fm 0 [bU], .strnClose .gone 0, .strnClose .fm (2 ^ 16), .mutationCommit (2 ^ 16), .extAdd .gone gX, .extAdd .fm bX, .extRevoke .gone 0, .extRevoke .fm (2 ^ 32), .extRelease .gone 0, .extRelease .fm (2 ^ 32), .leaseRenew .gone 0 0, .leaseRenew .fm (2 ^ 32) 0, .leaseRenew .fm 0 (2 ^ 32), .ember 34 gC, .ember 0 bC] : List Instr).all (fun i => !i.wf) = true := by decide +kernel
theorem test_ill_formed_8 : ([.extGrace 4096, .leaseExpire 4096, .extDrainDone 4096, .extDrainCut 4096, .extReleased 4096, .addDcResponse 16 [], .addDcResponse 0 [bD], .releaseDc 16 gD, .releaseDc 0 bD, .extOfferLapsed 4096, .compSet .gone 0 (List.replicate 64 0), .compSet .fm (2 ^ 32) (List.replicate 64 0), .compSet .fm 0 [], .compClear .gone 0, .compClear .fm (2 ^ 32), .handover .gone 0 0 0 0 0, .handover .fm (2 ^ 32) 0 0 0 0, .handover .fm 0 (2 ^ 16) 0 0 0, .handover .fm 0 0 (2 ^ 16) 0 0, .handover .fm 0 0 0 (2 ^ 64) 0, .handover .fm 0 0 0 0 (2 ^ 64), .hoBegin 34 gC, .hoBegin 0 bC, .hoReleaseCheck 65536] : List Instr).all (fun i => !i.wf) = true := by decide +kernel
theorem test_ill_formed_9 : ([.hoReady 34 gC, .hoReady 0 bC, .hoRelease 34 gC, .hoRelease 0 bC, .hoCommit 34 gC, .hoCommit 0 bC, .hoRevert 34 gC, .hoRevert 0 bC, .hoTimeout 65536, .ownQuery 34 gC, .ownQuery 0 bC, .ownAnswer 34 gC, .ownAnswer 0 bC, .ownQueryTimer 65536, .memRd 16 0 .i 0, .memRd 0 (2 ^ 52) .i 0, .memRd 0 0 .i (2 ^ 16), .memInv 16 0 0, .memInv 0 (2 ^ 52) 0, .memInv 0 0 (2 ^ 16), .birsp 16 0 .i, .birsp 0 (2 ^ 52) .i, .getEventRecords .gone 0, .getEventRecords .fm 256] : List Instr).all (fun i => !i.wf) = true := by decide +kernel
theorem test_ill_formed_10 : ([.clearEventRecords .gone 0 [], .clearEventRecords .fm 256 [], .clearEventRecords .fm 0 [65536], .getEventInterruptPolicy .gone, .setEventInterruptPolicy .gone [], .getTimestamp .gone, .setTimestamp .gone 0, .setTimestamp .fm (2 ^ 64), .getSupportedLogs .gone, .getLog .gone 0 0 0, .getLog .fm (2 ^ 128) 0 0, .getLog .fm 0 (2 ^ 32) 0, .getLog .fm 0 0 (2 ^ 32), .identifyMemoryDevice .gone, .getDcConfiguration .gone, .getDcExtentList .gone, .mldManagement .gone 0 [], .mldManagement .fm (2 ^ 16) [], .mailboxUnsupported .gone 0 [], .mailboxUnsupported .fm (2 ^ 16) [], .engSubmit .gone 0 0 [] [], .engSubmit .fm 256 0 [] [], .engSubmit .fm 0 256 [] [], .engSubmit .fm 0 0 [] [bU]] : List Instr).all (fun i => !i.wf) = true := by decide +kernel
theorem test_ill_formed_11 : ([.winList .gone, .tenantEnable .gone 0, .tenantEnable .fm (2 ^ 16), .tenantDisable .gone 0, .tenantDisable .fm (2 ^ 16), .ldEnable .gone 0, .ldEnable .fm 256, .ldDisable .gone 0, .ldDisable .fm 256, .fnState .gone (.ld 0), .fnState .fm (.ld 256), .noticeSub .gone 0 0 0, .noticeSub .fm 256 0 0, .noticeSub .fm 0 (2 ^ 16) 0, .noticeSub .fm 0 0 256, .fnDrainDone (.ld 256), .fnDrainCut (.ld 256), .fnOff (.ld 256), .ringTailWrite 16 gW, .ringTailWrite 0 bW, .sysringTailWrite bW, .ringCfgWrite 16 .base gW, .ringCfgWrite 0 .base bW, .ringCoalesceTimer 16] : List Instr).all (fun i => !i.wf) = true := by decide +kernel
theorem test_ill_formed_12 : ([.hostLinkUp 17 0, .hostLinkUp 0 16, .abort 34 gC, .abort 0 bC, .herdForm .gone 0 0 0, .herdForm .fm 256 0 0, .herdForm .fm 0 (2 ^ 32) 0, .herdForm .fm 0 0 (2 ^ 16), .herdAbort .gone 0, .herdAbort .fm 256, .herdCull .gone 0 0, .herdCull .fm 256 0, .herdCull .fm 0 (2 ^ 16), .herdReimage .gone 0 0, .herdReimage .fm 256 0, .herdReimage .fm 0 (2 ^ 64), .herdRebalance .gone 0 0 0 0 0 0, .herdRebalance .fm 256 0 0 0 0 0, .herdRebalance .fm 0 (2 ^ 16) 0 0 0 0, .herdRebalance .fm 0 0 (2 ^ 32) 0 0 0, .herdRebalance .fm 0 0 0 (2 ^ 64) 0 0, .herdRebalance .fm 0 0 0 0 (2 ^ 32) 0, .herdRebalance .fm 0 0 0 0 0 (2 ^ 64), .herdShadow .gone 0 0 0 0] : List Instr).all (fun i => !i.wf) = true := by decide +kernel
theorem test_ill_formed_13 : ([.herdShadow .fm (2 ^ 16) 0 0 0, .herdShadow .fm 0 (2 ^ 64) 0 0, .herdShadow .fm 0 0 (2 ^ 16) 0, .herdShadow .fm 0 0 0 (2 ^ 32), .herdStatus .gone 0, .herdStatus .fm 256, .herdScoreClear .gone 0 0, .herdScoreClear .fm 256 0, .herdScoreClear .fm 0 (2 ^ 16), .beat 34 gC, .beat 0 bC, .memberLost 32 0, .memberLost 0 (2 ^ 16), .epochDone 34 gC, .epochDone 0 bC, .epochCommit 34 gC, .epochCommit 0 bC, .restart 34 gC, .restart 0 bC, .restored 34 gC, .restored 0 bC, .restoreReq 34 gC, .restoreReq 0 bC, .restoreComplete 32] : List Instr).all (fun i => !i.wf) = true := by decide +kernel
theorem test_ill_formed_14 : ([.digest 34 gC, .digest 0 bC, .digestMissing 32, .members 34 gC, .members 0 bC, .shadowPassed 34 gC, .shadowPassed 0 bC, .energySample bE, .dampCapWrite bW, .auxPowerOn true 128, .warmResetReg bW, .pllLockLost 15, .yokeHello 34 gC, .yokeHello 0 bC, .cellarStore .gone, .cfgInfo .gone, .cfgIdent .gone gI, .cfgIdent .fm bI, .lockSet .gone, .secLockWrite bW, .svnRaise .gone 0 0, .svnRaise .fm 256 0, .svnRaise .fm 0 (2 ^ 32), .imageWrite .gone 0 []] : List Instr).all (fun i => !i.wf) = true := by decide +kernel
theorem test_ill_formed_15 : ([.imageWrite .fm (2 ^ 32) [], .imageCommit .gone, .debugUnlock .gone [], .getVersion (.doe 16) [], .getCapabilities (.doe 16) [], .negotiateAlgorithms (.doe 16) [], .getDigests (.doe 16) [], .getCertificate (.doe 16) [], .challenge (.doe 16) [], .getMeasurements (.doe 16) [], .keyExchange (.doe 16) [], .finish (.doe 16) [], .endSession (.doe 16) [], .getCosign (.doe 16), .getPqChain (.doe 16) 0 0, .getPqChain .fm (2 ^ 32) 0, .getPqChain .fm 0 (2 ^ 32), .read64 (2 ^ 32), .write64 (2 ^ 32) 0, .write64 0 (2 ^ 64), .mbxIn (2 ^ 32) [], .mbxOut (2 ^ 32) 0, .mbxOut 0 (2 ^ 32), .extest []] : List Instr).all (fun i => !i.wf) = true := by decide +kernel
theorem test_ill_formed_16 : ([.dbgAccess (2 ^ 32) 0 true, .dbgAccess 0 (2 ^ 64) true, .bypass 256 true, .engineIntervalEnd 256 0 0, .engineIntervalEnd 0 256 0, .engineIntervalEnd 0 0 32, .notice 34 gC, .notice 0 bC, .ideKm (.doe 16) [], .i3cDynamicAddress 128 .setdasa, .memWr 16 0 .i 0 (List.replicate 64 none), .memWr 0 (2 ^ 52) .i 0 (List.replicate 64 none), .memWr 0 0 .i (2 ^ 16) (List.replicate 64 none), .memWr 0 0 .i 0 [], .sensorRead []] : List Instr).all (fun i => !i.wf) = true := by decide +kernel
theorem test_well_formed_1 : ([.regWrite gA, .tickBoundary, .tickLost, .tickTreeWrite gW, .tickPeriodWrite gW, .tickGuardWrite gW, .tick 0 0 gC, .delayMeasure, .delayReq 0 0 gC, .delayResp 0 0 gC, .stretchReq 0 gC, .jobAdmit .fm 0, .roomClearingDone 0, .jobStart .fm 0 0, .jobRestart .fm 0 0, .jobRelease .fm 0, .slotDispatch 0 0 [], .stepComplete 0 0, .stepDeadline 0 0, .boundaryWorkDone, .scrubTile [], .read 0 gC, .write 0 gC, .atomic 0 gC, .readRsp 0 gC, .writeRsp 0 gC, .atomicRsp 0 gC, .reqTimeout 0, .demandDecay, .migHint .fm 0 0 0, .migCopyStart 0, .migPassEnd 0 [], .migDrainDone 0, .migFlip 0, .migAbandon 0, .maintLockGrant 0, .migMaintWait 0, .reduce 0 gC, .postedReduce 0 gC, .postCutoff, .postConvert 0, .mcastStore 0 gC, .ckptData 0 gC, .ckptAssemblyTimeout 0, .ckptAck 0 gC, .ckptAckTimeout 0 0, .ckptCopy .fm [] [], .portCtlWrite 0 gW, .portDetectDone 0, .portTrainDone 0, .portLockDone 0 0, .portNegotiateDone 0, .portStageTimeout 0 0, .portDownWait 0, .laneLockLost 0 0, .recoverTimeout 0, .idleBlock 0 (List.replicate 32 0), .nak 0 (List.replicate 32 0), .laneBlock 0 (List.replicate 32 0), .negBlock 0 (List.replicate 32 0), .retrain 0 (List.replicate 32 0), .cellCrcFail 0, .nakRepeat 0, .fabBadCell 0 gC, .switchCellArrive 0 gC, .switchMatch, .cellEgress 0] : List Instr).all Instr.wf = true := by decide +kernel
theorem test_well_formed_2 : ([.skimIssue 0, .fabCredInitWrite gW, .swxProfWrite 0 0 gW, .swxBufWrite gW, .mcastSet .fm 0 0, .tagSet .fm 0 0, .shaperWrite 0 0 .cfg gW, .meterWrite 0 .cfg gW, .gateWrite 0 0 0 gW, .samplePeriodClose, .crdS 0 gC, .crdE 0 gC, .cupg 0 gC, .cwb 0 gC, .csnpRsp 0 gC, .biconflict 0 0, .holdWindowEnd 0, .cohSnoopSlow 0 0, .predDecay, .lostWalkDone, .cohWinWrite 0 .base gW, .lostWrites .fm 0 0, .segtRead gW, .segtWrite gW, .winRead gW, .winWrite gW, .fltPop gW, .fltOvfClr gW, .vtOpen .fm 0, .vtSwitch .fm 0 0, .vtClose .fm 0, .strnOpen .fm 0 [], .strnClose .fm 0, .mutationCommit 0, .extAdd .fm gX, .extRevoke .fm 0, .extRelease .fm 0, .leaseRenew .fm 0 0, .ember 0 gC, .extGrace 0, .leaseExpire 0, .extDrainDone 0, .extDrainCut 0, .extReleased 0, .addDcResponse 0 [], .releaseDc 0 gD, .extOfferLapsed 0, .compSet .fm 0 (List.replicate 64 0), .compClear .fm 0, .handover .fm 0 0 0 0 0, .hoBegin 0 gC, .hoReleaseCheck 0, .hoReady 0 gC, .hoRelease 0 gC, .hoCommit 0 gC, .hoRevert 0 gC, .hoTimeout 0, .ownQuery 0 gC, .ownAnswer 0 gC, .ownQueryTimer 0, .compNoOwner 0, .hoMessageRetry 0, .memRd 0 0 .i 0, .memInv 0 0 0, .birsp 0 0 .i, .getEventRecords .fm 0, .clearEventRecords .fm 0 []] : List Instr).all Instr.wf = true := by decide +kernel
theorem test_well_formed_3 : ([.getEventInterruptPolicy .fm, .setEventInterruptPolicy .fm [], .getTimestamp .fm, .setTimestamp .fm 0, .getSupportedLogs .fm, .getLog .fm 0 0 0, .identifyMemoryDevice .fm, .getDcConfiguration .fm, .getDcExtentList .fm, .mldManagement .fm 0 [], .mailboxUnsupported .fm 0 [], .engSubmit .fm 0 0 [] [], .engStepSuspend 0, .engStepResume 0, .winList .fm, .tenantEnable .fm 0, .tenantDisable .fm 0, .ldEnable .fm 0, .ldDisable .fm 0, .fnState .fm (.ld 0), .noticeSub .fm 0 0 0, .fnDrainDone (.ld 0), .fnDrainCut (.ld 0), .fnOff (.ld 0), .ringTailWrite 0 gW, .sysringTailWrite gW, .ringCfgWrite 0 .base gW, .ringCoalesceTimer 0, .hostLinkUp 0 0, .hostLinkDown, .perstAssert, .perstRelease, .abort 0 gC, .herdForm .fm 0 0 0, .herdAbort .fm 0, .herdCull .fm 0 0, .herdReimage .fm 0 0, .herdRebalance .fm 0 0 0 0 0 0, .herdShadow .fm 0 0 0 0, .herdStatus .fm 0, .herdScoreClear .fm 0 0, .beatSend, .beat 0 gC, .memberLost 0 0, .epochDone 0 gC, .epochCommit 0 gC, .restart 0 gC, .restored 0 gC, .restoreReq 0 gC, .restoreComplete 0, .digest 0 gC, .digestMissing 0, .members 0 gC, .shadowPassed 0 gC, .herdMessageRetry 0, .scoreDecay, .cullBudgetExpire, .energySample gE, .fastLimitStep, .fastLimitEnd, .emergLower, .dampCapWrite gW, .pwrAlertAssert, .pwrAlertClear, .internalAlert .underVoltage, .internalAlertClear, .dampAlertEnd] : List Instr).all Instr.wf = true := by decide +kernel
theorem test_well_formed_4 : ([.auxPowerOn true 0, .powerStart, .mainEnFall, .mainPowerFault .under, .warmResetPin, .warmResetReg gW, .watchdogExpire, .pllLockLost 0, .pllResetTimer, .powerDone, .romDone, .verifyDone, .configDone, .storeDone, .rngHealthFail, .rngHealthPass, .startStageTimeout, .startRetry, .yokeHello 0 gC, .yokeFormed true, .yokeRefused, .applyEnd, .cellarStore .fm, .cellarWriteDone true, .cfgInfo .fm, .cfgIdent .fm gI, .lockSet .fm, .secLockWrite gW, .svnRaise .fm 0 0, .imageWrite .fm 0 [], .imageCommit .fm, .debugUnlock .fm [], .getVersion .fm [], .getCapabilities .fm [], .negotiateAlgorithms .fm [], .getDigests .fm [], .getCertificate .fm [], .challenge .fm [], .getMeasurements .fm [], .keyExchange .fm [], .finish .fm [], .endSession .fm [], .getCosign .fm, .getPqChain .fm 0 0, .read64 0, .write64 0 0, .mbxIn 0 [], .mbxStatus, .mbxOut 0 0, .telemetry, .idcode, .samplePreload, .extest (List.replicate 16 true), .tokenLoad [], .tokenStatus, .dbgAccess 0 0 true, .bypass 0 true, .engineIntervalEnd 0 0 0, .notice 0 gC, .auxPowerLoss, .auxPowerReturn, .hubResetRelease, .railRampTimeout, .ideKm .fm [], .i3cDynamicAddress 0 .setdasa, .memWr 0 0 .i 0 (List.replicate 64 none), .sensorRead (List.replicate 64 none)] : List Instr).all Instr.wf = true := by decide +kernel

/-! ### Values that the spec's text works out -/

/-- The nine ASCII bytes of R66 and R193. -/
def tNine : List Byte := [0x31, 0x32, 0x33, 0x34, 0x35, 0x36, 0x37, 0x38, 0x39]
/-- R193. -/
theorem test_crc32c : crc32c tNine = 0xE3069283 := by decide +kernel
/-- R66. -/
theorem test_crc64 : crc64 tNine = 0x6C40DF5F0B497347 := by decide +kernel
/-- spec/01's worked example: units 21, 400, 512 and 960 at the default period, and at stretch level 8. -/
theorem test_slot_units : (unitAt tRun 21, unitAt tRun 400, unitAt tRun 512, unitAt tRun 960) = (256, 4882, 6250, 11718) := by decide +kernel
theorem test_slot_units_stretched : (let s : State := { tRun with tk := { tRun.tk with cur := 8 } }; (tickLen s, unitAt s 21, unitAt s 512)) = (14062, 288, 7031) := by decide +kernel
/-- spec/04's worked example of elements: block 5 of a Z4 tile holds 0x9C at byte 0x53. -/
theorem test_z4_elements : (elemAt 1 (List.replicate 0x53 0 ++ [0x9C] : List Byte).toArray 80 6, elemAt 1 (List.replicate 0x53 0 ++ [0x9C] : List Byte).toArray 80 7) = (-4, -7) := by decide +kernel
theorem test_z16_element : elemAt 3 (#[0x34, 0xFF] : Array Byte) 0 0 = -204 := by decide +kernel
/-- Table 04-3. -/
theorem test_align : (align 45 (-6) (-12), align (-101) (-14) (-12), align (-7) (-9) (-12), align 3 (-13) (-12)) = ((2880, false), (-25, false), (-56, false), (2, false)) := by decide
/-- The same example's conversions: AUTO Z8, and Z4 at the fixed scale −9. -/
theorem test_convert_auto : (autoScale [2801, -1040] (-12) 8 false, convert 2801 (-12) (-7) 8 .near, convert (-1040) (-12) (-7) 8 .near) = (-7, (88, false), (-32, false)) := by decide +kernel
theorem test_convert_saturates : convert 2801 (-12) (-9) 4 .near = (7, true) := by decide
/-- spec/04's worked example of the reciprocal square root. -/
theorem test_rsqrt : rsqrt 3 (-20) = (37825, -6) := by decide +kernel
/-- spec/07's worked example of a route. -/
theorem test_route : (pickPort 0x9C3A51E6 [4, 5, 9], pickPort 0x9C3A51E6 [4, 9]) = (some 5, some 9) := by decide +kernel
/-- spec/11's worked example: tenant 37's segment 2. -/
def tSegs : State := { tRun with xlt := { tRun.xlt with segs := [(8 * 37 + 2, { w0 := 2 ^ 63 + 0x400000 * 65536, w1 := 0x123456 * 2 ^ 32 + 16384, w2 := 0x5A17 * 2 ^ 48 + 7 })] } }
theorem test_segment : (xlate tSegs 37 0x4001234560 Need.w none).2 = ⟨0x123579, 0x4560, 37, 0x5A17⟩ := by decide +kernel
theorem test_segment_missed : (xlate tSegs 37 0x3FFFFFFFFF Need.r none).1 = St.unmapped := by decide +kernel
/-- Table 16-4: detected 10 µs, 17 µs and 20 µs after T(k). -/
theorem test_stop_boundary : (stopBoundary tRun 0 5000, stopBoundary tRun 0 8500, stopBoundary tRun 0 10000) = (1, 1, 2) := by decide +kernel
/-- spec/17's worked example. -/
theorem test_damper_levels : (wantCap 12500 620000 5692000 40000 792000, qAt 12500 620000 5692000 24, beLevel 785590 40000 792000) = (24, 785590, 7) := by decide +kernel
/-- spec/20's worked example: shaper 3 of port P9. -/
theorem test_shaper_address : (F.SHP_SHP_CFG_EN 9 3).addr = 0x425260 ∧ regReset 0x425260 = 0x0F00120000000400 := by decide +kernel
theorem test_shaper_write : (match exec (.regWrite { path := .fm, off := 0x425264, size := 4, val := 0x2F001200 }) tRun with
    | .next s => s.reg 0x425260 == 0x2F00120000000400 && ((smGet (fun _ => {}) s.fab.shapers (16 * 9 + 3)).tokens == 4718592)
    | _ => false) = true := by decide +kernel

/-! ### Single commands -/

/-- What a command's next state shows of one thing. -/
def shows {α : Type} [DecidableEq α] (i : Instr) (s : State) (f : State → α) (v : α) : Bool := match exec i s with
  | .next t => decide (f t = v)
  | _ => false
/-- R535: MAIN_EN begins a start. -/
theorem test_power_start : shows .powerStart State.reset (·.sup.stage) .power = true := by decide +kernel
/-- R506: a write of 1 sets the lock. -/
theorem test_lock : shows (.secLockWrite { path := .fm, half := .whole, val := 1 }) tRun (·.sup.lock) true = true := by decide +kernel
/-- R552: an access that is not aligned writes nothing. -/
theorem test_unaligned : shows (.regWrite { path := .fm, off := 0x425261, size := 4, val := 7 }) tRun (·.regs) [] = true := by decide +kernel
/-- R33: a period below its range is discarded. -/
theorem test_period_low : shows (.tickPeriodWrite { path := .fm, half := .whole, val := 1 }) tRun (·.reg F.TICK_PERIOD_BASE.addr) 12500 = true := by decide +kernel
/-- Table 06-1: DETECT passes to TRAIN. -/
theorem test_port_detect : shows (.portDetectDone 5) (tPort { state := .detect }) (fun s => (portGet s 5).state) .train = true := by decide +kernel
/-- R412: a link at x8 is degraded, one at x16 and 64 GT/s is not. -/
theorem test_host_link : shows (.hostLinkUp 8 6) { tRun with host := { tRun.host with perst := false } } (fun s => s.fld F.HOST_LINK_DEGRADED) 1 = true ∧ shows (.hostLinkUp 16 6) { tRun with host := { tRun.host with perst := false } } (fun s => s.fld F.HOST_LINK_DEGRADED) 0 = true := by decide +kernel
/-- Table 19-13: WARM_REG joins AUX_POR in CLK_RESET_CAUSE. -/
theorem test_warm_reset : shows (.warmResetReg { path := .fm, half := .whole, val := 1 }) tRun (·.sup.cause) 9 = true := by decide +kernel
/-- Table 12-6: VT_CLOSE frees the handle; a mailbox that holds a command starts no other. -/
theorem test_row_close : shows (.vtClose (.ld 0) 0) tPriv (fun s => (vtGet s 0).isOpen) false = true := by decide +kernel
theorem test_mailbox_busy : shows (.vtClose (.ld 0) 0) { tPriv with host := { tPriv.host with busy := [mbxKey (.ld 0)] } } (fun s => (vtGet s 0).isOpen) true = true := by decide +kernel

/-! ### Hypotheses that hold -/

theorem witness_idle : State.reset.pending = [] := by decide
theorem witness_hub_command : reachesSup (.memInv 0 0 0) = false ∧ reachesSup (.tenantEnable .fm 3) = false ∧ reachesSup (.tickBoundary) = false := by decide
theorem witness_still : State.reset.on = false ∧ ungated (.memInv 0 0 0) = false := by decide
theorem witness_unpowered : (State.reset.on = false → unpowered State.reset) ∧ step State.reset = .next { State.reset with time := 1 } := by
  refine ⟨fun _ => ?_, rfl⟩
  simp [unpowered, State.reset]
theorem witness_shadowed : (tileGet { tRun with st := { tRun.st with tiles := [(5, { state := .shadowed })] } } 5).state = .shadowed := by decide
theorem witness_open : let s : State := { tRun with st := { tRun.st with tiles := [(5, { state := .opened, loc := 9 })] } }
    Memory.wf s.mem ∧ smWf (fun _ => {}) s.st.tiles ∧ (tileGet s 5).state = .opened ∧ collTile s 5 = false := by decide
theorem witness_slots : Memory.wf [(65537, (1 : Byte)), (131072, (2 : Byte))] ∧ 65535 + [(7 : Byte)].length ≤ 65536 := by decide
theorem witness_round : rneShift 5 1 = 2 ∧ rneShift 7 1 = 4 ∧ rneShift (-5) 1 = -2 ∧ rneShift 6 2 = 2 := by decide
theorem witness_cell_form : let c : Cell := { tCell 0x21 3 with ack := 4095, cvn := 3, ccnt := 65535, ce := true, payload := List.replicate 256 0xA5 }
    c.wf = true ∧ c.payload.length = 256 := by decide +kernel
theorem witness_piece_image : pieceImage (pieceBytes { state := 1, home := true, tenant := 511, tiles := 16777216, va := 65536, owner := 4095, hoStart := 2 ^ 48 - 1 }) = { state := 1, home := true, tenant := 511, tiles := 16777216, va := 65536, owner := 4095, hoStart := 2 ^ 48 - 1 } := by decide
theorem witness_block : (List.replicate 32 (0xA5 : Byte)).length = 32 := by decide
theorem witness_reg_back : (match regFind 0x410010 with
      | some (r, i, j) => plainWrite tRun 0x410010 .whole 1024 r i j (rowWrite tRun.sup.lock (halfMask .whole) (halfVal .whole 1024) (tRun.reg 0x410010).toNat r.fields) ∧ r.name = "SWX_BUF"
          ∧ rowWrite tRun.sup.lock (halfMask .whole) (halfVal .whole 1024) (tRun.reg 0x410010).toNat r.fields < 2 ^ 64
      | none => False) ∧ smWf regReset tRun.regs ∧ tRun.on = true ∧ pathOpen tRun .cores = true := by
  refine ⟨?_, ?_, ?_, ?_⟩
  · show plainWrite _ _ _ _ _ _ _ _ ∧ _ ∧ _
    refine ⟨⟨rfl, ?_, ?_, ?_, ?_, ?_⟩, ?_, ?_⟩ <;> decide +kernel
  all_goals decide
theorem witness_counter : let f := F.SWX_MCAST_DROP_COUNT
    smWf regReset tRun.regs ∧ f.lo ≤ f.hi ∧ f.hi < 64 ∧ tRun.fld f < 2 ^ (f.hi + 1 - f.lo) - 1 := by decide +kernel
theorem witness_busy : let s : State := { tLd with host := { tLd.host with busy := [mbxKey (.ld 0)] } }
    mailboxOf (.winList (.ld 0)) = some (.ld 0) ∧ s.on = true ∧ Mbx.ld 0 ≠ .sideband ∧ Mbx.ld 0 ≠ .gone ∧ s.host.busy.contains (mbxKey (.ld 0)) = true := by decide
theorem witness_recovery : let s := tStage .recovery
    mailboxOf (.winList (.ld 0)) = some (.ld 0) ∧ s.sup.stage = .recovery ∧ Mbx.ld 0 ≠ .sideband ∧ Mbx.ld 0 ≠ .gone ∧ s.host.busy.contains (mbxKey (.ld 0)) = false
      ∧ Instr.winList (.ld 0) ≠ .cfgInfo (.ld 0) ∧ (∀ o d, Instr.winList (.ld 0) ≠ .imageWrite (.ld 0) o d) ∧ Instr.winList (.ld 0) ≠ .imageCommit (.ld 0) := by
  refine ⟨rfl, rfl, ?_, ?_, rfl, ?_, ?_, ?_⟩ <;> simp
theorem witness_aux_off : State.reset.on = false := by decide
theorem witness_aux_on : tRun.on = true := by decide
theorem witness_i3c : State.reset.sup.aux = true ∧ State.reset.sup.sbI3c = true := by decide
theorem witness_power_on : tRun.on = true := by decide
theorem witness_start_trip : let s : State := { State.reset with sup := { State.reset.sup with tripped := true, removed := true } }
    s.on = false ∧ s.sup.aux = true ∧ s.sup.tripped = true ∧ s.sup.removed = true := by decide
theorem witness_start_held : let s : State := { State.reset with sup := { State.reset.sup with tripped := true } }
    s.on = false ∧ s.sup.tripped = true ∧ s.sup.removed = false := by decide
theorem witness_start_cold : State.reset.on = false ∧ State.reset.sup.aux = true ∧ State.reset.sup.tripped = false := by decide
theorem witness_warm : tRun.on = true ∧ tRun.sup.tripped = false ∧ tRun.sup.stage = .run := by decide
theorem witness_pll : let s : State := { tRun with sup := { tRun.sup with pllLost := some 5 } }
    s.on = true ∧ s.sup.tripped = false ∧ s.sup.pllLost.isSome = true := by decide
theorem witness_rng_open : let s : State := { tRun with sup := { tRun.sup with rngEp := true } }
    s.on = true ∧ s.sup.rngEp = true := by decide
theorem witness_rng_first : tRun.on = true ∧ tRun.sup.rngEp = false := by decide
theorem witness_pll_lost : tRun.sup.stage = .run ∧ 14 < 15 := by decide
theorem witness_sensors_cool : tRun.on = true ∧ tripSensor (readSensors tRun []) = none := by decide +kernel
theorem witness_sensors_trip : let s : State := { tRun with damp := { tRun.damp with sensors := [(3, { temp := 2000, hot := 1, warned := true })] } }
    s.on = true ∧ tripSensor (readSensors s ((List.replicate 3 (some 400)) ++ [some 2000])) = some 3 := by decide +kernel
theorem witness_stage_power : inStage (tStage .power) .power = true ∧ (tStage .power).sup.warmHeld = false := by decide
theorem witness_stage_rom : inStage (tStage .rom) .rom = true := by decide
theorem witness_stage_verify : inStage (tStage .verify) .verify = true ∧ (tStage .verify).sup.cellar.imageTorn = none := by decide
theorem witness_stage_config : inStage (tStage .config) .config = true := by decide
theorem witness_stage_store : let s := { tStage .store with sup := { (tStage .store).sup with rngOk := true } }
    inStage s .store = true ∧ s.sup.rngOk = true ∧ (s.sup.hdr.yoke = false ∨ s.sup.cfgNone = true) := by decide
theorem witness_stage_store_yoke : let s := { tStage .store with sup := { (tStage .store).sup with rngOk := true, hdr := { yoke := true } } }
    inStage s .store = true ∧ s.sup.rngOk = true ∧ (s.sup.hdr.yoke = true ∧ s.sup.cfgNone = false) := by decide
theorem witness_stage_apply : inStage (tStage .apply) .apply = true := by decide
theorem witness_bound : (tStage .config).sup.stage ∈ [Stage.power, .rom, .verify, .config, .store, .apply] ∧ (tStage .config).damp.forced = false ∧ (tStage .config).sup.stopped = false := by decide
theorem witness_bound_power : (tStage .power).sup.stage = .power ∧ (tStage .power).sup.stopped = false := by decide
theorem witness_retry : let s := { tStage .power with sup := { (tStage .power).sup with stopped := true, reason := 10 } }
    s.on = true ∧ s.sup.stopped = true ∧ s.sup.retried = false ∧ s.sup.reason = 10 := by decide
theorem witness_yoke_formed : let s := { tStage .yoke with sup := { (tStage .yoke).sup with helloOk := true } }
    inStage s .yoke = true ∧ s.sup.helloOk = true := by decide
theorem witness_yoke_refused : inStage (tStage .yoke) .yoke = true := by decide
theorem witness_yoke_hello : let s := { tStage .yoke with fab := { (tStage .yoke).fab with ports := [(24, { state := .up, peer := some { hub := true, node := 0, port := 0xF1, acked := true, yoked := true, domain := 0, cred := [16, 16, 16, 16], rxNext := 0 } })] } }
    let c : Cell := { tCell 0x02 0 with tag := 0xFFFF, addr := 0x2E05CF00000, payload := [1] }
    s.sup.stage = .yoke ∧ s.on = true ∧ (ingress s 24 c).1 = some c ∧ c.ty = 0x02 ∧ c.tag = 0xFFFF ∧ c.addr = 0x2E05CF00000 ∧ getLE c.payload 0 1 = 1 := by
  refine ⟨?_, ?_, ?_, ?_, ?_, ?_, ?_⟩ <;> decide +kernel
theorem witness_cellar_ready : vendorReady .fm .sys tRun ∧ tRun.sup.job = none ∧ tRun.sup.lock = false ∧ 7 ≤ 4095 ∧ 9 ≤ 4095 := by
  refine ⟨⟨⟨?_, ?_, ?_, ?_⟩, ?_, ?_⟩, ?_, ?_, ?_, ?_⟩ <;> decide
theorem witness_cellar_done : let w : CellarJob := { kind := 0, mb := some .fm, data := [1], attempt := 1 }
    let s : State := { tRun with sup := { tRun.sup with job := some w } }
    s.on = true ∧ s.sup.job = some w ∧ w.kind < 2 ∧ s.sup.yoked = false ∧ w.attempt = 1 := by decide
theorem witness_cellar_done2 : let w : CellarJob := { kind := 1, mb := some .fm, data := [1], attempt := 2 }
    let s : State := { tRun with sup := { tRun.sup with job := some w } }
    s.on = true ∧ s.sup.job = some w ∧ w.kind < 2 ∧ w.attempt = 2 := by decide
theorem witness_image_recovery : recReady (.ld 0) (tStage .recovery) ∧ (tStage .recovery).sup.job = none ∧ 0 + [(1 : Byte)].length ≤ 16777216 := by
  refine ⟨Or.inr ⟨?_, ?_, ?_⟩, ?_, ?_⟩ <;> decide
theorem witness_sideband_ready : vendorReady .sideband .sys tRun ∧ recReady .sideband tRun ∧ tRun.sup.lock = false := by
  refine ⟨⟨⟨?_, ?_, ?_, ?_⟩, ?_, ?_⟩, Or.inl ⟨⟨?_, ?_, ?_, ?_⟩, ?_, ?_⟩, ?_⟩ <;> decide
theorem witness_token : vendorReady .fm .sys tRun ∧ 3437 ≤ (List.replicate 3437 (0 : Byte)).length := by
  refine ⟨⟨⟨?_, ?_, ?_, ?_⟩, ?_, ?_⟩, ?_⟩ <;> first | exact List.length_replicate.ge | decide
theorem witness_locked : let s : State := { tRun with sup := { tRun.sup with lock := true } }
    vendorReady .fm .sys s ∧ s.sup.lock = true := by
  refine ⟨⟨⟨?_, ?_, ?_, ?_⟩, ?_, ?_⟩, ?_⟩ <;> decide
theorem witness_counters : vendorReady .fm .sys tRun ∧ monoGet tRun.sup.cellar 5 < 3 ∧ 5 < 16 ∧ 3 < 2 ^ 32 ∧ (5 = 0 → 3 ≤ tRun.sup.imgSvn) ∧ (5 = 1 → 3 ≤ tRun.sup.imgKey) := by
  refine ⟨⟨⟨?_, ?_, ?_, ?_⟩, ?_, ?_⟩, ?_, ?_, ?_, ?_, ?_⟩ <;> decide
theorem witness_counter_equal : vendorReady .fm .sys tRun ∧ 0 = monoGet tRun.sup.cellar 0 ∧ 0 ≤ tRun.sup.imgSvn := by
  refine ⟨⟨⟨?_, ?_, ?_, ?_⟩, ?_, ?_⟩, ?_, ?_⟩ <;> decide
theorem witness_counter_low : let s : State := { tRun with sup := { tRun.sup with cellar := { tRun.sup.cellar with mono := [(2, 9)] } } }
    vendorReady .fm .sys s ∧ smWf (fun _ => 0) s.sup.cellar.mono ∧ 8 < monoGet s.sup.cellar 2 ∧ tRun.sup.imgSvn < tRun.sup.imgSvn + 1 := by
  refine ⟨⟨⟨?_, ?_, ?_, ?_⟩, ?_, ?_⟩, ?_, ?_, ?_⟩ <;> decide
theorem witness_sb_on : tRun.sup.aux = true ∧ tRun.on = true ∧ tRun.host.sb.state ≠ 1 ∧ 0x10000 % 8 = 0 ∧ 4064 + 32 ≤ 4096 ∧ 4064 + (List.replicate 32 (0 : Byte)).length ≤ 4096 := by decide +kernel
theorem witness_sb_unaligned : 0x10004 % 8 ≠ 0 ∧ 0x10001 % 8 ≠ 0 := by decide
theorem witness_sb_off : State.reset.sup.aux = true ∧ State.reset.on = false ∧ 0x10000 ≠ 0x30010 ∧ 0x10000 ≠ 0x40060 := by decide
theorem witness_tap_off : (State.reset.sup.stage = .off ∨ (State.reset.sup.stage = .rom ∧ State.reset.sup.reason = 9)) ∧ State.reset.sup.debug = 0 := by decide
theorem witness_tap_on : tRun.on = true ∧ ({ tRun.sup with debug := 2 } : Sup).debug = 2 ∧ ({ tRun.sup with debug := 1 } : Sup).debug = 1 ∧ 0x10000 % 8 = 0 := by decide
theorem witness_spdm : let s : State := { tRun with host := { tRun.host with linkUp := true }, sup := { tRun.sup with spdm := [(16, { level := 3, keyEx := true, session := true, signed := some [1] })] } }
    s.on = true ∧ connOpen s .fm = true ∧ 3 ≤ (spdmGet s .fm).level ∧ (spdmGet s .fm).keyEx = true ∧ (spdmGet s .fm).session = true ∧ (spdmGet s .fm).signed.isSome = true
    ∧ getLE [0, 0, 0, 4] 2 1 % 16 = 0 ∧ getLE [0, 0, 0, 4] 3 1 ≤ 4 ∧ bitOf (getLE [0, 0, 0, 4] 2 1) 0 = false ∧ bitOf (getLE [0, 0, 1, 4] 2 1) 0 = true ∧ getLE [0, 0, 0, 4] 4 2 ≤ (edChain s.sup).length := by
  refine ⟨?_, ?_, ?_, ?_, ?_, ?_, ?_, ?_, ?_, ?_, ?_⟩ <;> decide
theorem witness_cxl_fm : cxlReady .fm tRun ∧ mbxFree .fm tRun ∧ Mbx.fm ≠ .gone ∧ (0x4900 < 0xC000 ∨ 0xC0FF < 0x4900) := by
  refine ⟨⟨⟨?_, ?_, ?_, ?_⟩, ?_, ?_⟩, ⟨?_, ?_, ?_, ?_⟩, ?_, ?_⟩ <;> decide
theorem witness_cxl_events : let s : State := { tRun with host := { tRun.host with events := [(16, 2, 7, [1])] } }
    cxlReady .fm s ∧ (∀ h ∈ [7], ∃ e ∈ mbxEvents s .fm 2, e.1 = h) ∧ (∃ h ∈ [8], ∀ e ∈ mbxEvents s .fm 2, e.1 ≠ h) := by
  refine ⟨⟨⟨?_, ?_, ?_, ?_⟩, ?_, ?_⟩, ?_, ?_⟩ <;> decide
theorem witness_cxl_ld : cxlReady (.ld 0) tLd ∧ tLd.fld (F.HOST_LD_DC_DC_LEN 0) ≠ 0 := by
  refine ⟨⟨⟨?_, ?_, ?_, ?_⟩, ?_, ?_⟩, ?_⟩ <;> decide +kernel
theorem witness_fn_off : vendorReady .fm .sys tLd ∧ fnValid (.tenant 7) = true ∧ (fnGet tLd (.tenant 7)).state = .off ∧ (fnGet tLd (.tenant 7)).ready ≤ tLd.tk.num ∧ fnValid (.ld 0) = true ∧ ldBound tLd 0 = true ∧ (fnGet tLd (.ld 0)).state = .on := by
  refine ⟨⟨⟨?_, ?_, ?_, ?_⟩, ?_, ?_⟩, ?_, ?_, ?_, ?_, ?_, ?_⟩ <;> decide +kernel
theorem witness_fn_disable : vendorReady .sideband .sys tLd ∧ 3 < 512 ∧ (tenantGet tLd 3).state = .on ∧ tenantJobs tLd 3 = [] ∧ 0 < 16 ∧ (ldGet tLd 0).state = .on := by
  refine ⟨⟨⟨?_, ?_, ?_, ?_⟩, ?_, ?_⟩, ?_, ?_, ?_, ?_, ?_⟩ <;> decide +kernel
theorem witness_fn_state : mbxFree .fm tLd ∧ Mbx.fm ≠ .gone ∧ (∀ i, Mbx.fm ≠ .ld i) ∧ fnValid (.tenant 511) = true := by
  refine ⟨⟨?_, ?_, ?_, ?_⟩, ?_, ?_, ?_⟩ <;> first | decide | simp
theorem witness_fn_drain : let s : State := { tRun with host := { tRun.host with tenants := [(3, { state := .draining })], lds := [(0, { state := .draining })] } }
    s.on = true ∧ (fnGet s (.tenant 3)).state = .draining ∧ fnReqs s (.tenant 3) = [] ∧ queuedAny s (fnQueued (.tenant 3)) = false ∧ fnSteps s (.tenant 3) = [] ∧ (fnGet s (.ld 0)).state = .draining := by decide
theorem witness_fn_zero : let s : State := { tRun with host := { tRun.host with tenants := [(3, { state := .zeroising })], lds := [(0, { state := .zeroising })] }, sup := { tRun.sup with rngOk := true } }
    s.on = true ∧ (tenantGet s 3).state = .zeroising ∧ fnExts s (.tenant 3) = [] ∧ s.sup.rngOk = true ∧ (ldGet s 0).state = .zeroising ∧ fnExts s (.ld 0) = [] := by decide
theorem witness_link_up : let s : State := { tRun with host := { tRun.host with perst := false } }
    s.on = true ∧ s.host.linkUp = false ∧ s.host.perst = false ∧ s.sup.stage ≠ .power := by decide
theorem witness_link_down : tLd.on = true ∧ tLd.host.linkUp = true := by decide
theorem witness_sub : vendorReady (.ld 0) .ten tLd ∧ 4095 < 4096 ∧ (0xFE ≤ 0x2F ∨ 0xFE = 0xFE ∨ 0xFE = 0xFF) ∧ (ldTenant tLd 0, 4095, 0xFE) ∉ tLd.host.subs ∧ (4096 ≤ 4095 ∨ (0x30 ≤ 0x30 ∧ 0x30 ≤ 0xFD) ∨ 256 ≤ 0x30 ∨ (1 ≠ 1 ∧ 1 ≠ 2)) := by
  refine ⟨⟨⟨?_, ?_, ?_, ?_⟩, ?_, ?_⟩, ?_, ?_, ?_, ?_⟩ <;> decide +kernel
theorem witness_coal : let s : State := { tRun with host := { tRun.host with sigs := [(2, { unsignalled := 1, since := some 9 })] } }
    s.on = true ∧ (sigGet s 2).since = some 9 := by decide
theorem witness_job_ld : vendorReady (.ld 0) .ten tLd := by
  refine ⟨⟨?_, ?_, ?_, ?_⟩, ?_, ?_⟩ <;> decide
theorem witness_job_cmds : let s := tJob .admitted
    vendorReady (.ld 0) .ten s ∧ s.damp.forced = false ∧ jobMine s (.ld 0) 4 = true ∧ s.tk.num + 4 ≤ 4 ∧ (jobGet s 4).state = .admitted ∧ (jobGet s 4).clearing = none ∧ vendorReady .fm .tenSys s ∧ jobMine s .fm 4 = true ∧ (jobGet s 4).state ∉ [JobState.idle, .running] := by
  refine ⟨⟨⟨?_, ?_, ?_, ?_⟩, ?_, ?_⟩, ?_, ?_, ?_, ?_, ?_, ⟨⟨?_, ?_, ?_, ?_⟩, ?_, ?_⟩, ?_, ?_⟩ <;> decide +kernel
theorem witness_job_faulted : vendorReady .fm .tenSys (tJob .faulted) ∧ (tJob .faulted).damp.forced = false ∧ jobMine (tJob .faulted) .fm 4 = true ∧ (tJob .faulted).tk.num + 4 ≤ 4 ∧ (jobGet (tJob .faulted) 4).state = .faulted
    ∧ (jobGet (tJob .faulted) 4).clearing = none ∧ (jobGet (tJob .faulted) 4).everRan = false ∧ vendorReady (.ld 0) .ten (tJob .faulted) ∧ jobMine (tJob .faulted) (.ld 0) 4 = true := by
  refine ⟨⟨⟨?_, ?_, ?_, ?_⟩, ?_, ?_⟩, ?_, ?_, ?_, ?_, ?_, ?_, ⟨⟨?_, ?_, ?_, ?_⟩, ?_, ?_⟩, ?_⟩ <;> decide +kernel
theorem witness_job_herd : let s : State := { tHerd with seq := (tJob .running).seq }
    vendorReady .fm .tenSys s ∧ jobMine s .fm 4 = true ∧ (jobGet s 4).state = .running ∧ hasHerd s 4 = true := by
  refine ⟨⟨⟨?_, ?_, ?_, ?_⟩, ?_, ?_⟩, ?_, ?_, ?_⟩ <;> decide +kernel
theorem witness_job_idle_running : vendorReady .fm .tenSys (tJob .running) ∧ jobMine (tJob .running) .fm 4 = true ∧ (jobGet (tJob .running) 4).state = .running ∧ hasHerd (tJob .running) 4 = false ∧ jobMine (tJob .running) .fm 5 = true ∧ (jobGet (tJob .running) 5).state = .idle := by
  refine ⟨⟨⟨?_, ?_, ?_, ?_⟩, ?_, ?_⟩, ?_, ?_, ?_, ?_, ?_⟩ <;> decide +kernel
theorem witness_job_clearing : let s : State := { tRun with seq := { tRun.seq with jobs := [(2, { clearing := some .fm })] } }
    s.on = true ∧ (jobGet s 2).clearing = some .fm := by decide
theorem witness_dispatch : let s := tJob .running
    s.on = true ∧ (jobGet s 4).state = .running ∧ (jobGet s 4).image.slots[0]? = some tSlot ∧ (jobGet s 4).image.steps[tSlot.step]? = some [1, 1] ∧ imageTick (jobGet s 4).image (jobGet s 4).tick = some tSlot.tick
    ∧ s.seq.dispatched.contains (4, 0) = false ∧ max s.time (s.tk.start + unitAt s tSlot.start) < s.tk.start + unitAt s tSlot.fin := by
  refine ⟨?_, ?_, ?_, ?_, ?_, ?_, ?_⟩ <;> decide +kernel
theorem witness_step_done : let x : Step := { id := 7, done := true, cls := 2, inst := 1, suspended := false }
    let s : State := { tRun with seq := { tRun.seq with steps := [x] } }
    s.on = true ∧ stepGet s 7 = some x ∧ x.done = true ∧ x.waiting = false ∧ x.suspended = false ∧ x.blocked = false ∧ inputsIn x = true ∧ workOver s x = true ∧ x.job = none := by decide
theorem witness_step_sched : let x : Step := { id := 7, job := some 4, done := true, cls := 2, inst := 1, deadline := 900 }
    let s : State := { tRun with seq := { tRun.seq with steps := [x] } }
    s.on = true ∧ stepGet s 7 = some x ∧ x.done = true ∧ x.waiting = false ∧ x.suspended = false ∧ x.blocked = false ∧ inputsIn x = true ∧ workOver s x = true ∧ x.job = some 4 ∧ x.status = St.ok ∧ (phaseLearn s 4 x.phase x.cls 0).time < x.deadline := by decide +kernel
theorem witness_step_suspended : let x : Step := { id := 7, suspended := true, cls := 2, inst := 1 }
    let s : State := { tRun with seq := { tRun.seq with steps := [x] } }
    s.on = true ∧ stepGet s 7 = some x ∧ x.suspended = true ∧ inReserved s x.cls x.inst = false := by decide +kernel
theorem witness_submit : let d : List Byte := [0x10, 1, 0, 0, 64, 0, 0, 0, 0, 0, 0, 0, 0, 0, 0, 0] ++ List.replicate 64 0
    vendorReady (.ld 0) .ten tLd ∧ tLd.damp.forced = false ∧ (255 = 255 ∨ 255 < 8) ∧ (getLE d 0 1 = 0x10 ∨ getLE d 0 1 = 0x11) ∧ getLE d 1 1 = 1 ∧ getLE d 8 4 = 0 ∧ getLE d 4 4 = bodyLen (getLE d 0 1) ∧ d.length = 16 + bodyLen (getLE d 0 1) := by
  refine ⟨⟨⟨?_, ?_, ?_, ?_⟩, ?_, ?_⟩, ?_, ?_, ?_, ?_, ?_, ?_, ?_⟩ <;> decide
theorem witness_delay_measure : let s : State := { tMember with tk := { tMember.tk with delayTick := some 1000000 } }
    tMember.on = true ∧ isRoot tMember = false ∧ tMember.tk.delayTick = none ∧ s.on = true ∧ s.tk.delayTick = some 1000000 ∧ s.tk.num < 1000000 + 64 := by
  refine ⟨?_, ?_, ?_, ?_, ?_, ?_⟩ <;> decide +kernel
theorem witness_tick_member : let s := tMember
    s.on = true ∧ isRoot s = false ∧ 16 ≤ s.tk.missed ∧ s.fab.sampFrom + s.fld F.SHP_SAMP_CTL_PERIOD ≤ s.tk.num := by
  refine ⟨?_, ?_, ?_, ?_⟩ <;> decide +kernel
theorem witness_forced : let s : State := { tRun with damp := { tRun.damp with forced := true, forcedSrc := 1, alertExt := true } }
    s.on = true ∧ s.damp.forced = true ∧ s.damp.cleared = none := by decide
theorem witness_forced_cleared : let s : State := { tRun with damp := { tRun.damp with forced := true, cleared := some 3 } }
    s.on = true ∧ s.damp.forced = true ∧ s.damp.cleared = some 3 := by decide
theorem witness_not_forced : tRun.on = true ∧ tRun.damp.forced = false ∧ tRun.damp.fastEp = false ∧ tRun.damp.throttle = false := by decide
theorem witness_fast : let s : State := { tRun with damp := { tRun.damp with fastEp := true, fastLow := some 4, samples := [10000000] } }
    s.on = true ∧ s.damp.fastEp = true ∧ capFast s * 1000 ≤ fastPower s ∧ s.damp.fastLow = some 4 := by
  refine ⟨?_, ?_, ?_, ?_⟩ <;> decide +kernel
theorem witness_decay : tMember.on = true ∧ tMember.st.decayed + tMember.fld F.MIG_DEMAND_DECAY ≤ tMember.tk.num := by
  refine ⟨?_, ?_⟩ <;> decide +kernel
theorem witness_copy : let s := tCopy
    s.on = true ∧ copyOf (withUps s [{ tile := 8, twice := true }]) 8 = some tCp8 ∧ copyOf s 9 = some tCp ∧ tCp.close = some 3 ∧ tCp.close.isSome = true ∧ tCp.drained = true ∧ s.time < 3 + 1000 ∧ copyOf s 8 = some tCp8 ∧ tCp8.close = none ∧ tCp8.passes ≠ 0 := by
  refine ⟨?_, ?_, ?_, ?_, ?_, ?_, ?_, ?_, ?_, ?_⟩ <;> decide +kernel
theorem witness_cell_here : cellHere tRun 33 (tCell 0x01 0) (tCell 0x01 0) tRun ∧ (tCell 0x20 2).ty = 0x20 ∧ getLE (tCell 0x20 2).payload 0 2 = 0 ∧ cellHere tRun 33 (tCell 0x20 2) (tCell 0x20 2) tRun := by
  refine ⟨⟨⟨?_, ?_⟩, ?_⟩, ?_, ?_, ⟨⟨?_, ?_⟩, ?_⟩⟩ <;> decide
theorem witness_cell_rid : let c : Cell := { tCell 0x20 2 with payload := [1] }
    cellHere tRun 33 c c tRun ∧ c.ty = 0x20 ∧ getLE c.payload 0 2 ≠ 0 := by
  refine ⟨⟨⟨?_, ?_⟩, ?_⟩, ?_, ?_⟩ <;> decide
theorem witness_cell_away : cellTaken tRun 33 { tCell 0x01 0 with dst := 9 } { tCell 0x01 0 with dst := 9 } tRun ∧ routeOf tRun { tCell 0x01 0 with dst := 9 } ≠ .here := by
  refine ⟨⟨?_, ?_⟩, ?_⟩ <;> decide +kernel
theorem witness_cell_dropped : tRun.on = true ∧ ingress tRun 5 (tCell 0x01 0) = (none, tRun) := by
  refine ⟨?_, ?_⟩ <;> decide
theorem witness_switch_lost : cellTaken tRun 33 { tCell 0x01 0 with dst := 9 } { tCell 0x01 0 with dst := 9 } tRun ∧ 0x01 ∉ [0x21, 0x30, 0x33] ∧ routeOf tRun { tCell 0x01 0 with dst := 9 } = .lost ∧ routeOf tRun (tCell 0x01 0) = .here := by
  refine ⟨⟨?_, ?_⟩, ?_, ?_, ?_⟩ <;> decide +kernel
theorem witness_switch_ext : cellTaken tAgent 33 tToAgent tToAgent tAgent ∧ routeOf tAgent tToAgent = .ext 2 := by
  refine ⟨⟨?_, ?_⟩, ?_⟩ <;> decide +kernel
theorem witness_skim : let e : Skim := { inp := 0, c := tCell 0x01 0, gw := 32 }
    let s : State := { tRun with fab := { tRun.fab with skims := [e] } }
    s.on = true ∧ (skimPick s (31 + 1 % 2)).1 = some e := by
  refine ⟨?_, ?_⟩ <;> decide +kernel
theorem witness_timeout : let t : Txn := { txn := 6, dst := 9, unit := 33, deadline := 44 }
    let s : State := { tRun with fab := { tRun.fab with txns := [t] } }
    s.on = true ∧ s.fab.txns.find? (fun t => t.txn == 6) = some t := by decide
theorem witness_mcast : let c : Cell := { tCell 0x21 0 with txn := 5, tag := 3 }
    let s : State := { tRun with fab := { tRun.fab with groups := [(5, 3 * 2 ^ 48 + 2 ^ 47)] } }
    cellTaken s 33 c c s ∧ c.ty = 0x21 ∧ bitOf (groupGet s c.txn) 47 = true ∧ bits (groupGet s c.txn) 63 48 = c.tag ∧ bitOf (groupGet s c.txn) 46 = false ∧ cellTaken tRun 33 c c tRun ∧ (bitOf (groupGet tRun c.txn) 47 = false ∨ bits (groupGet tRun c.txn) 63 48 ≠ c.tag)
      ∧ (newCellId s).2.fab.unsent.any (fun x => x.unit == 33) = false ∧ hasEntry (newCellId s).2 33 c = true ∧ (newCellId tRun).2.fab.unsent.any (fun x => x.unit == 33) = false ∧ hasEntry (newCellId tRun).2 33 c = true := by
  refine ⟨⟨?_, ?_⟩, ?_, ?_, ?_, ?_, ⟨?_, ?_⟩, ?_, ?_, ?_, ?_, ?_⟩ <;> decide +kernel
theorem witness_mcast_waits : let c : Cell := { tCell 0x21 0 with txn := 5, tag := 3 }
    let s : State := { tRun with fab := { tRun.fab with unsent := [{ id := 1, unit := 33, c := c }] } }
    cellTaken s 33 c c s ∧ c.ty = 0x21 ∧ ¬ ((33 : Nat) < 26 ∨ ((newCellId s).2.fab.unsent.any (fun x => x.unit == 33) = false ∧ hasEntry (newCellId s).2 33 c = true)) := by
  refine ⟨⟨?_, ?_⟩, ?_, ?_⟩ <;> decide +kernel
theorem witness_switch_place : ∃ r p, cellVerdict tWin (newReq tWin 33 tWinCell).1 = (.here p, r) ∧ cellTaken tWin 33 tWinCell tWinCell tWin ∧ (1 ≤ tWinCell.ty ∧ tWinCell.ty ≤ 3) ∧ tWinCell.tag ≠ 0xFFFF ∧ routeOf tWin tWinCell = .here := by
  refine ⟨_, _, rfl, ⟨?_, ?_⟩, ?_, ?_, ?_⟩ <;> decide +kernel
theorem witness_switch_away : let s : State := { tWin with sup := { tWin.sup with yoked := true, upper := true } }
    ∃ r p, cellVerdict s (newReq s 33 tWinCell).1 = (.away p, r) ∧ cellTaken s 33 tWinCell tWinCell s ∧ routeOf s tWinCell = .here := by
  refine ⟨_, _, rfl, ⟨?_, ?_⟩, ?_⟩ <;> decide +kernel
theorem witness_switch_own : let c : Cell := { tCell 0x02 0 with tag := 0xFFFF }
    cellTaken tRun 33 c c tRun ∧ c.ty ∉ [0x20, 0x21, 0x22] ∧ routeOf tRun c = .here ∧ c.tag = 0xFFFF := by
  refine ⟨⟨?_, ?_⟩, ?_, ?_, ?_⟩ <;> decide +kernel
theorem witness_abort : let c : Cell := { tCell 0x33 3 with tag := 0xFFFF }
    cellTaken tRun 33 c c tRun := by
  refine ⟨?_, ?_⟩ <;> decide +kernel
theorem witness_pred : tRun.on = true ∧ tRun.tk.num < tRun.coh.predAt + tRun.fld F.COH_PRED_DECAY ∧ tMember.on = true ∧ tMember.coh.predAt + tMember.fld F.COH_PRED_DECAY ≤ tMember.tk.num := by
  refine ⟨?_, ?_, ?_, ?_⟩ <;> decide +kernel
theorem witness_dir_line : let s : State := { tRun with coh := { tRun.coh with dir := [(77, { valid := true, holdEnd := 9 })], snoops := [{ line := 77, agent := 16, txn := 0, inv := true, since := 2 }] } }
    s.on = true ∧ (dirGet s 77).valid = true ∧ s.coh.snoops.find? (fun p => p.line == 77 && p.agent == 16 && !p.warned) = some { line := 77, agent := 16, txn := 0, inv := true, since := 2 } := by decide
theorem witness_posts : let p : Post := { tile := 4, tenant := 1, key := 0, fmt := 1, tscale := 0, tick := 0, cut := 0 }
    let s : State := { tRun with chrn := { tRun.chrn with posts := [p] } }
    s.on = true ∧ s.chrn.posts.find? (fun p => p.tile == 4) = some p := by decide
theorem witness_asm : let a : Asm := { tile := 4, tenant := 1, key := 0, tick := 0, data := [], cell := tCell 0x22 2 }
    let s : State := { tRun with chrn := { tRun.chrn with asms := [a] }, tk := { tRun.tk with num := 1000000 } }
    s.on = true ∧ s.chrn.asms.find? (fun a => a.tile == 4) = some a ∧ a.tick + s.fld F.CHRN_CKPT_CTL_TIMEOUT ≤ s.tk.num := by
  refine ⟨?_, ?_, ?_⟩ <;> decide +kernel
theorem witness_ack : let k : Ack := { idx := 2, left := some 5 }
    let x : Step := { id := 1, kind := 4, cls := 1, body := List.replicate 40 0, acks := [k] }
    let s : State := { tRun with seq := { tRun.seq with steps := [x] }, tk := { tRun.tk with num := 1000000 } }
    s.on = true ∧ ckptStep s 0 none = some x ∧ k ∈ x.acks ∧ k.idx = 2 ∧ k.status = none ∧ k.left = some 5 ∧ 5 + s.fld F.CHRN_CKPT_CTL_TIMEOUT + 2 ≤ s.tk.num := by
  refine ⟨?_, ?_, ?_, ?_, ?_, ?_, ?_⟩ <;> decide +kernel
theorem witness_ext_add : vendorReady .fm .sys tRun ∧ extAddOk (mbxIn .fm tRun) { tenant := 3, flags := 1, start := 0, len := 65536, holder := 2 ^ 29, rights := 3, period := 0 } = true ∧ (List.range 16384).find? (fun i => (extGet (mbxIn .fm tRun) i).state == 0) = some 0 := by
  refine ⟨⟨⟨?_, ?_, ?_, ?_⟩, ?_, ?_⟩, ?_, ?_⟩ <;> decide +kernel
theorem witness_ext_release : vendorReady .fm .sys (tExt 2) ∧ leaseFor (mbxIn .fm (tExt 2)) 0 none = some 0 ∧ (extGet (mbxIn .fm (tExt 2)) 0).zero = false
    ∧ (lockRuns (mbxIn .fm (tExt 2)) .zeroise (tileRuns (extTiles (mbxIn .fm (tExt 2)) (extGet (mbxIn .fm (tExt 2)) 0)))).1 = St.ok
    ∧ vendorReady (.ld 0) .ten (tExt 2) ∧ leaseFor (tExt 2) 0 (some (ldReq (tExt 2) (.ld 0))) = some 0 := by
  refine ⟨⟨⟨?_, ?_, ?_, ?_⟩, ?_, ?_⟩, ?_, ?_, ?_, ⟨⟨?_, ?_, ?_, ?_⟩, ?_, ?_⟩, ?_⟩ <;> decide +kernel
theorem witness_ext_dcd : cxlReady (.ld 0) (tExt 2) ∧ ((dcdExts (tExt 2) 0 2 ++ dcdExts (tExt 2) 0 3).find? (fun e => 0 == extDpa (tExt 2) 0 e.2 && 65536 == e.2.len)).isSome = true
    ∧ cxlReady (.ld 0) (tExt 1) ∧ (∀ r ∈ [({ dpa := 0, len := 65536 } : DcRange)], ∃ e ∈ dcdExts (tExt 1) 0 1, r.dpa = extDpa (tExt 1) 0 e.2 ∧ r.len = e.2.len) := by
  refine ⟨⟨⟨?_, ?_, ?_, ?_⟩, ?_, ?_⟩, ?_, ⟨⟨?_, ?_, ?_, ?_⟩, ?_, ?_⟩, ?_⟩ <;> decide +kernel
theorem witness_ext_timers : (tExt 1).on = true ∧ (extGet (tExt 1) 0).state = 1 ∧ (tExt 2).on = true ∧ (extGet (tExt 2) 0).state = 2 ∧ (extGet (tExt 2) 0).renewed + 2 * (extGet (tExt 2) 0).p ≤ (tExt 2).tk.start
    ∧ (tExt 4).on = true ∧ (extGet (tExt 4) 0).state = 4 ∧ extDrained (tExt 4) 0 = true
    ∧ (extGet (tExt 5) 0).state = 5 ∧ (extGet (tExt 5) 0).locks.any (fun id => (tExt 5).st.locks.any (fun l => l.id == id && !l.held)) = false := by
  refine ⟨?_, ?_, ?_, ?_, ?_, ?_, ?_, ?_, ?_, ?_⟩ <;> decide +kernel
theorem witness_ext_zero : let x := fun (s : State) => ({ extGet s 0 with zero := true } : Ext)
    let s := extSet (tExt 5) 0 (x (tExt 5))
    s.on = true ∧ (extGet s 0).zero = true ∧ zeroWaits s 0 (extGet s 0) = false ∧ zeroLines s 0 (extGet s 0) = [] := by
  refine ⟨?_, ?_, ?_, ?_⟩ <;> decide +kernel
theorem witness_ext_zero_lines : let b : State := { tHeld tSeg with ext := { tSeg.ext with exts := [(0, { state := 5, zero := true, dcd := true, tenant := 3, start := 64, len := 64, holder := reqLd tLd 0, rights := 3, period := 0 })] } }
    b.on = true ∧ (extGet b 0).state = 5 ∧ (extGet b 0).zero = true ∧ zeroWaits b 0 (extGet b 0) = false ∧ zeroLines b 0 (extGet b 0) ≠ [] := by
  refine ⟨?_, ?_, ?_, ?_, ?_⟩ <;> decide +kernel
theorem witness_ext_cut : let s : State := { tExt 4 with reqs := [{ tReq with id := 1, ext := some 0 }] }
    s.on = true ∧ (extGet s 0).state = 4 ∧ extDrained { s with time := max s.time ((extGet s 0).fence + 25000) } 0 = false := by
  refine ⟨?_, ?_, ?_⟩ <;> decide +kernel
theorem witness_comp_clear : vendorReady .fm .sys tRun ∧ 5 < 65536 ∧ (pieceGet tRun 5).state ≠ 2 := by
  refine ⟨⟨⟨?_, ?_, ?_, ?_⟩, ?_, ?_⟩, ?_, ?_⟩ <;> decide +kernel
theorem witness_comp_set : compOk (mbxIn .fm tRun) 5 (pieceImage (pieceBytes { state := 1, tenant := 3, tiles := 2, va := 65536, owner := 1, recHub := 0 })) (pieceBytes { state := 1, tenant := 3, tiles := 2, va := 65536, owner := 1, recHub := 0 }) = true := by
  decide +kernel
theorem witness_handover : let x := tPiece
    vendorReady .fm .sys tPieces ∧ 4 < 65536 ∧ pieceGet tPieces 4 = x ∧ x.state ≠ 0 ∧ x.home = true ∧ 7 < 4096 ∧ 9 < 0xFFFF ∧ 65536 + 65536 * (x.tiles - 1) < 2 ^ 52
    ∧ tPieces.ext.pieces.any (fun e => e.2.tenant == x.tenant && e.2.home && e.2.state == 2) = false ∧ tPieces.ext.next.any (fun e => e.1 == 4) = false := by
  refine ⟨⟨⟨?_, ?_, ?_, ?_⟩, ?_, ?_⟩, ?_, ?_, ?_, ?_, ?_, ?_, ?_, ?_, ?_⟩ <;> decide +kernel
theorem witness_ho_cell : cellHere tRun 33 (tHo 1 0) (tHo 1 0) tRun ∧ isMsg 0x2E05C900000 1 (tHo 1 0) = true := by
  refine ⟨⟨⟨?_, ?_⟩, ?_⟩, ?_⟩ <;> decide +kernel
theorem witness_ho_begin : applied tPieces (tHo 1 0) = false ∧ pieceOfMsg tPieces (tHo 1 0) = some (4, tPiece) ∧ (hoGet tPieces 4).begun = false ∧ tPiece.owner = tPieces.hubId ∧ tPiece.home = true ∧ tPiece.state ≠ 2 ∧ getLE (tHo 1 0).payload 1 1 = St.ok := by
  refine ⟨?_, ?_, ?_, ?_, ?_, ?_, ?_⟩ <;> decide +kernel
theorem witness_ho_result : let x : Piece := { tPiece with state := 2 }
    let s : State := { tPieces with ext := { tPieces.ext with pieces := [(4, x)] } }
    applied s (tHo 2 0) = false ∧ pieceOfMsg s (tHo 2 0) = some (4, x) ∧ x.home = true ∧ x.state = 2 ∧ x.hoSeq = getLE (tHo 2 0).payload 8 4 ∧ (hoGet s 4).commit = none ∧ getLE (tHo 2 0).payload 1 1 = St.ok := by
  refine ⟨?_, ?_, ?_, ?_, ?_, ?_, ?_⟩ <;> decide +kernel
theorem witness_ho_applied : let s : State := { tPieces with ext := { tPieces.ext with applied := [(0, 4, 0)] } }
    applied s (tHo 5 0) = true := by decide +kernel
theorem witness_ho_check : let x : Piece := { tPiece with state := 2 }
    let s : State := { tPieces with ext := { tPieces.ext with pieces := [(4, x)], hos := [{ idx := 4, begun := true }] } }
    s.on = true ∧ (pieceGet s 4).state = 2 ∧ (pieceGet s 4).owner = s.hubId ∧ (hoGet s 4).begun = true ∧ (hoGet s 4).released = false ∧ pieceDrained s (pieceGet s 4) = true ∧ (pieceGet s 4).home = true ∧ (hoGet s 4).commit = none := by
  refine ⟨?_, ?_, ?_, ?_, ?_, ?_, ?_, ?_⟩ <;> decide +kernel
theorem witness_ho_query : let x : Piece := { tPiece with state := 2 }
    let s : State := { tPieces with ext := { tPieces.ext with pieces := [(4, x)], msgs := [tMsg] }, reqs := [{ tReq with id := 8, wait := .piece 4 }] }
    s.on = true ∧ s.reqs.find? (fun r => r.wait == .piece 4) = some { tReq with id := 8, wait := .piece 4 } ∧ (pieceGet s 4).state = 2 ∧ s.reqs.find? (fun r => r.id == 8) = some { tReq with id := 8, wait := .piece 4 }
    ∧ s.ext.msgs.find? (fun m => m.id == 6 && !m.herd) = some tMsg := by
  refine ⟨?_, ?_, ?_, ?_, ?_⟩ <;> decide +kernel
theorem witness_herd_form : let s := tJob .admitted
    vendorReady .fm .sys s ∧ 4 < 32 ∧ (jobGet s 4).state = .admitted ∧ 1 ≤ 1 ∧ 1 ≤ (jobGet s 4).image.members ∧ (herdSlots s).any (fun k => k != 4 && (herdGet s k).id == 77) = false := by
  refine ⟨⟨⟨?_, ?_, ?_, ?_⟩, ?_, ?_⟩, ?_, ?_, ?_, ?_, ?_⟩ <;> decide +kernel
theorem witness_herd_leader : vendorReady .fm .sys tHerd ∧ vendorReady (.ld 0) .tenSys tHerd ∧ herdMine (mbxIn (.ld 0) tHerd) (.ld 0) 4 = true ∧ (herdGet tHerd 4).state ≠ 0 ∧ isLeader tHerd (herdGet tHerd 4) = true ∧ (memberOf (herdGet tHerd 4) 2).isSome = true ∧ mayCull tHerd (herdGet tHerd 4) = true := by
  refine ⟨⟨⟨?_, ?_, ?_, ?_⟩, ?_, ?_⟩, ⟨⟨?_, ?_, ?_, ?_⟩, ?_, ?_⟩, ?_, ?_, ?_, ?_, ?_⟩ <;> decide +kernel
theorem witness_herd_failed : let s : State := { tRun with herd := { tRun.herd with herds := [(4, { state := 2, restore := some 3, restoreSt := some 6 })] } }
    s.on = true ∧ s.damp.forced = false ∧ (herdGet s 4).restore = some 3 ∧ (herdGet s 4).restoreSt = some 6 := by decide
theorem witness_herd_rebalance : vendorReady (.ld 0) .ten tHerd ∧ 2 < 4096 ∧ tileVa 0 1 = true ∧ tileVa 65536 1 = true ∧ (lockRuns tHerd .rebalance (tileRuns (rangeIds tHerd (jobGet tHerd 4).tenant 0 1))).1 = St.ok := by
  refine ⟨⟨⟨?_, ?_, ?_, ?_⟩, ?_, ?_⟩, ?_⟩ <;> decide +kernel
theorem witness_herd_msg : cellHere tHerd 33 (tHerdMsg 1) (tHerdMsg 1) tHerd ∧ isMsg herdInbox 1 (tHerdMsg 1) = true ∧ slotOfHerd tHerd (getLE (tHerdMsg 1).payload 4 4) = some 4 ∧ (getLE (tHerdMsg 1).payload 2 2, getLE (tHerdMsg 1).payload 0 1, getLE (tHerdMsg 1).payload 8 4) ∉ (herdGet tHerd 4).applied
    ∧ slotOfHerd tRun (getLE (tHerdMsg 1).payload 4 4) = none ∧ cellHere tRun 33 (tHerdMsg 1) (tHerdMsg 1) tRun := by
  refine ⟨⟨⟨?_, ?_⟩, ?_⟩, ?_, ?_, ?_, ?_, ⟨⟨?_, ?_⟩, ?_⟩⟩ <;> decide +kernel
theorem witness_herd_restart : let s := jobSet tHerd 4 { jobGet tHerd 4 with state := .faulted }
    (herdGet s 4).state ∉ [3, 4, 5] ∧ (jobGet s 4).state = .faulted ∧ getLE ((tHerdMsg 4).payload ++ natLe 4 0 ++ natLe 6 9) 16 6 ≠ 0 := by
  refine ⟨?_, ?_, ?_⟩ <;> decide +kernel
theorem witness_herd_restored : let h := setMember (herdGet tHerd 4) 2 (fun m => { m with restored := some St.ok })
    getLE (tHerdMsg 5).payload 1 1 = St.ok ∧ getLE (tHerdMsg 5).payload 2 2 = 2 ∧ (memberOf h 2).isSome = true ∧ isLeader (herdSet tHerd 4 h) h = true ∧ getLE (natLe 1 5 ++ natLe 1 9) 1 1 ≠ St.ok := by
  refine ⟨?_, ?_, ?_, ?_, ?_⟩ <;> decide +kernel
theorem witness_herd_eff : (memberOf (setMember (herdGet tHerd 4) (getLE (tHerdMsg 5).payload 2 2) (fun m => { m with restored := some (getLE (tHerdMsg 5).payload 1 1) })) (getLE (tHerdMsg 5).payload 2 2)).isSome = true ∧ isLeader tHerd (herdGet tHerd 4) = true
    ∧ (tHerd.xlt.wins.map Prod.snd).find? (fun w => w.en && w.src == getLE (tHerdMsg 8).payload 2 2 && w.tag == bits (getLE (tHerdMsg 8).payload 32 8) 47 32) = none := by
  refine ⟨?_, ?_, ?_⟩ <;> decide +kernel
theorem witness_herd_beats : let s : State := { tHerd with herd := { tHerd.herd with beatAt := 1000000 } }
    tHerd.on = true ∧ tHerd.herd.beatAt + tHerd.fld F.HERD_CTL_BEAT ≤ tHerd.tk.num ∧ s.on = true ∧ s.tk.num < s.herd.beatAt + s.fld F.HERD_CTL_BEAT ∧ (earliest ((herdSlots tHerd).map (decayEnd tHerd))).isSome = true := by
  refine ⟨?_, ?_, ?_, ?_, ?_⟩ <;> decide +kernel
theorem witness_herd_timers : tHerd.on = true ∧ (herdGet tHerd 4).state ≠ 0 ∧ (beatFrom tHerd (herdGet tHerd 4)).find? (fun m => m.hub == 2) = some { idx := 1, hub := 2 } ∧ 0 + 3 * tHerd.fld F.HERD_CTL_BEAT ≤ tHerd.tk.num ∧ herdSlots tHerd = [4] := by
  refine ⟨?_, ?_, ?_, ?_, ?_⟩ <;> decide +kernel
theorem witness_herd_restore : let s : State := { tRun with herd := { tRun.herd with herds := [(4, { state := 2, restore := some 3, active := true, digestWait := 2, culls := [9] })] } }
    s.on = true ∧ (herdGet s 4).restore = some 3 ∧ (herdGet s 4).restoreSt = none ∧ (herdGet s 4).wanted = [] ∧ (herdGet s 4).active = true ∧ 2 ≤ (herdGet s 4).digestWait ∧ earliest ((herdSlots s).flatMap (fun j => (herdGet s j).culls)) = some 9 ∧ s.damp.forced = false := by decide
theorem witness_herd_retry : let s : State := { tRun with ext := { tRun.ext with msgs := [{ tMsg with herd := true }] } }
    s.on = true ∧ s.ext.msgs.find? (fun m => m.id == 6 && m.herd) = some { tMsg with herd := true } := by decide
theorem witness_port_detect : let s := tPort { state := .detect }
    s.on = true ∧ 5 < 26 ∧ (portGet s 5).state = .detect := by decide
theorem witness_port_train : stageOf (portGet (tPort { state := .train }) 5) = .train ∧ stageOf (portGet (tPort { state := .recover, stage := .train }) 5) = .train := by decide
theorem witness_port_lock : let q : Port := { state := .lock, lanesSeen := (List.range 8).map (fun l => (l, 100 + l)) }
    let r : Port := { q with state := .recover, stage := .lock }
    (portGet (tPort q) 5).state = .lock ∧ lanesMissing (portGet (tPort q) 5) = 0 ∧ counterSkew (portGet (tPort q) 5) ≤ 8 ∧ 8 ≤ 8 ∧ 8 < 9 ∧ (portGet (tPort r) 5).state = .recover ∧ (portGet (tPort r) 5).stage = .lock ∧ stageOf (portGet (tPort r) 5) = .lock
    ∧ lanesMissing (portGet (tPort { q with lanesSeen := [(0, 1)] }) 5) ≠ 0 ∧ 8 < counterSkew { q with lanesSeen := [(0, 1), (1, 10)] } := by decide
theorem witness_port_neg : let g : Neg := { hub := true, node := 7, port := 3, acked := true, yoked := false, domain := 0, cred := [16, 16, 16, 16], rxNext := 0 }
    let s := tPort { state := .negotiate, neg := some g, negSame := 2, negAcked := true }
    let r := tPort { state := .recover, stage := .negotiate, neg := some g, negSame := 2, negAcked := true }
    s.on = true ∧ (portGet s 5).neg = some g ∧ 2 ≤ (portGet s 5).negSame ∧ (portGet s 5).negAcked = true ∧ (portGet s 5).state = .negotiate ∧ (portGet r 5).neg = some g ∧ 2 ≤ (portGet r 5).negSame ∧ (portGet r 5).negAcked = true ∧ (portGet r 5).state = .recover ∧ (portGet r 5).stage = .negotiate := by decide
theorem witness_port_down : let s := (tPort { state := .down }).put (F.FAB_PORT_CTL_EN 5) 1
    s.on = true ∧ (portGet s 5).state = .down ∧ s.flag (F.FAB_PORT_CTL_EN 5) = true ∧ mayEnable s 5 = true ∧ (portGet (tPort { state := .up }) 5).state = .up := by
  refine ⟨?_, ?_, ?_, ?_, ?_⟩ <;> decide +kernel
theorem witness_link_idle : let s := tPort { state := .up }
    let b := ctlBlock (natLe 1 0x1E ++ natLe 2 0)
    s.on = true ∧ portUp s 5 = true ∧ getLE b 28 4 = crc32c (slice b 0 28) ∧ getLE b 0 1 = 0x1E := by
  refine ⟨?_, ?_, ?_, ?_⟩ <;> decide +kernel
theorem witness_link_nak : let b := ctlBlock (natLe 1 0x2D ++ natLe 2 0)
    getLE b 28 4 = crc32c (slice b 0 28) ∧ getLE b 0 1 = 0x2D := by decide +kernel
theorem witness_link_retrain : let b := ctlBlock (natLe 1 0x55)
    getLE b 28 4 = crc32c (slice b 0 28) ∧ getLE b 0 1 = 0x55 := by decide +kernel
theorem witness_link_lane : let b := ctlBlock (natLe 1 0x33 ++ natLe 1 7)
    getLE b 28 4 = crc32c (slice b 0 28) ∧ getLE b 0 1 = 0x33 ∧ getLE b 1 1 < 8 ∧ stageOf (portGet (tPort { state := .lock }) 5) = .lock := by
  refine ⟨?_, ?_, ?_, ?_⟩ <;> decide +kernel
theorem witness_link_neg : let b := ctlBlock (natLe 1 0x4B ++ natLe 1 1 ++ natLe 2 7)
    getLE b 28 4 = crc32c (slice b 0 28) ∧ getLE b 0 1 = 0x4B ∧ (negOf b).isSome = true ∧ stageOf (portGet (tPort { state := .negotiate }) 5) = .negotiate := by
  refine ⟨?_, ?_, ?_, ?_⟩ <;> decide +kernel
theorem witness_link_bad : receiving (portGet (tPort { state := .lock }) 5) = true ∧ getLE (List.replicate 32 (1 : Byte)) 28 4 ≠ crc32c (slice (List.replicate 32 1) 0 28) := by decide +kernel
theorem witness_link_nakwait : let s := tPort { state := .up, nakWait := true }
    s.on = true ∧ portUp s 5 = true ∧ (portGet s 5).nakWait = true ∧ egressNext s 5 = none := by
  refine ⟨?_, ?_, ?_, ?_⟩ <;> decide +kernel
theorem witness_link_send : portUp tOut 5 = true ∧ (portGet tOut 5).replay.length < 2048 ∧ (egressNext tOut 5).isSome = true ∧ tOut.fab.egress.all (fun x => x.gateClose == none && x.c.ty != 0x30) = true := by
  refine ⟨?_, ?_, ?_, ?_⟩ <;> decide +kernel
theorem witness_reg_plain : tRun.on = true ∧ pathOpen tRun .fm = true ∧ (∀ n, RegPath.fm ≠ .bar2 n)
    ∧ (match regFind 0x400108 with
      | some (r, i, j) => r.name = "FAB_PORT_CTL_n" ∧ i = 1 ∧ tRun.sup.lock = false ∧ rangeOk tRun r.name i j (rowWrite false (halfMask .whole) 1 (tRun.reg 0x400108).toNat r.fields) = true
          ∧ refuseWrite tRun r.name i j (rowWrite false (halfMask .whole) 1 (tRun.reg 0x400108).toNat r.fields) = none
      | none => False) := by
  refine ⟨by decide, by decide, nofun, ?_⟩
  show _ ∧ _ ∧ _ ∧ _ ∧ _
  refine ⟨?_, ?_, ?_, ?_, ?_⟩ <;> decide +kernel
theorem witness_reg_tree : (match regFind 0x100028 with
      | some (r, i, j) => plainWrite tRun 0x100028 .whole 31 r i j 31
      | none => False) := by
  show plainWrite _ _ _ _ _ _ _ _
  refine ⟨rfl, ?_, ?_, ?_, ?_, ?_⟩ <;> decide +kernel
theorem witness_reg_locked : let s : State := { tRun with sup := { tRun.sup with lock := true } }
    s.on = true ∧ pathOpen s .fm = true ∧ s.sup.lock = true ∧ (match regFind 0x100000 with
      | some (r, _, _) => r.name = "TICK_PERIOD" ∧ r.fields.all (fun f => f.acc == .rwl || f.acc == .ro) = true
      | none => False) := by
  refine ⟨by decide, by decide, by decide, ?_⟩
  show _ ∧ _
  refine ⟨?_, ?_⟩ <;> decide +kernel
theorem witness_reg_bad : tRun.on = true ∧ ¬ (2 = 8 ∧ 1 % 8 = 0) ∧ ¬ (2 = 4 ∧ 1 % 4 = 0) := by decide
theorem witness_acts : tRun.on = true ∧ pathOpen tRun .fm = true ∧ Half.whole ≠ .hi ∧ 1 % 2 = 1 ∧ tRun.sup.lock = false ∧ tRun.sup.tripped = false := by decide
theorem witness_acts_pop : let e : FltE := { tenant := 3, seg := 0, vtile := 0, mask := 1, status := St.unmapped, seq := 1, count := 1, firstVa := 0, lastVa := 0, more := false, access := 1, firstTick := 0, lastTick := 0, reqs := [reqSys] }
    let s : State := { tRun with xlt := { tRun.xlt with faults := [e] } }
    (s.put F.FLT_POP_SEQ (halfVal .whole 1)).xlt.faults = [e] ∧ e.seq = halfVal .whole 1 % 2 ^ 32 := by decide
theorem witness_acts_win : (match regFind 0x501040 with
      | some (r, i, j) => i = 2 ∧ r.name = "COH_WIN_BASE_n" ∧ tRun.sup.lock = false ∧ rangeOk tRun "COH_WIN_BASE_n" 2 j (rowWrite false (halfMask .whole) 7 (tRun.reg 0x501040).toNat r.fields) = true
      | none => False) := by
  show _ ∧ _ ∧ _ ∧ _
  refine ⟨?_, ?_, ?_, ?_⟩ <;> decide +kernel
theorem witness_acts_ring : tRun.on = true ∧ 0 < 16 ∧ Half.whole ≠ .lo ∧ (tRun.fld (F.HOST_RING_IDX_HEAD 0) + 2 ^ 32 - 0) % 2 ^ 32 ≤ 2 ^ tRun.fld (F.HOST_RING_CTL_SIZE_LOG2 0) ∧ (tRun.fld F.HOST_SYSRING_HEAD_HEAD + 2 ^ 32 - 0) % 2 ^ 32 ≤ 65536 ∧ 65536 < (tRun.fld F.HOST_SYSRING_HEAD_HEAD + 2 ^ 32 - 1) % 2 ^ 32
    ∧ 2 ^ tRun.fld (F.HOST_RING_CTL_SIZE_LOG2 0) < (tRun.fld (F.HOST_RING_IDX_HEAD 0) + 2 ^ 32 - 1) % 2 ^ 32 := by
  refine ⟨?_, ?_, ?_, ?_, ?_, ?_, ?_⟩ <;> decide +kernel
theorem witness_vt_open : vendorReady (.ld 0) .priv tPriv ∧ 65536 % 65536 = 0 ∧ 65536 < 2 ^ 52 ∧ (List.range 256).find? (fun h => !(vtGet tPriv h).isOpen) = some 1 ∧ vtMine tPriv (.ld 0) 0 = true ∧ (vtGet tPriv 0).next = none ∧ (vtGet tPriv 0).old = none ∧ vtSteps tPriv 0 = 0 := by
  refine ⟨⟨⟨?_, ?_, ?_, ?_⟩, ?_, ?_⟩, ?_, ?_, ?_, ?_, ?_, ?_, ?_⟩ <;> decide +kernel
theorem witness_strn_close : vendorReady (.ld 0) .ten tPriv ∧ (collGet tPriv 2).taken = true ∧ (collGet tPriv 2).tenant = ldTenant tPriv 0 ∧ (collGet tPriv 2).pend = false ∧ collBound tPriv 2 = 0 ∧ nextMut tPriv 2 = none := by
  refine ⟨⟨⟨?_, ?_, ?_, ?_⟩, ?_, ?_⟩, ?_, ?_, ?_, ?_, ?_⟩ <;> decide +kernel
theorem ingress_out {x : Option Cell × State} {c : Cell} (h : x.1 = some c) : x = (some c, x.2) := by
  obtain ⟨a, b⟩ := x; cases h; rfl
theorem witness_tick_cells : let c := tTick (natLe 1 1 ++ natLe 1 0 ++ natLe 2 (tTree.fld F.TICK_TREE_DOMAIN) ++ natLe 20 0 ++ natLe 4 tTree.tk.base)
    ∃ u, cellTaken (atFrac 5 tTree) 3 c c u ∧ c.ty = 0x30 ∧ getLE c.payload 0 1 = 1 ∧ foreign u c = false ∧ isRoot u = false ∧ 3 = parentPort u ∧ getLE c.payload 24 4 = u.tk.base ∧ u.tk.delayReq = some (getLE c.payload 40 8) := by
  intro c; refine ⟨(ingress (atFrac 5 tTree) 3 c).2, ⟨?_, ingress_out ?_⟩, ?_, ?_, ?_, ?_, ?_, ?_, ?_⟩ <;> decide +kernel
theorem witness_tick_stretch : let c := tTick (natLe 1 4 ++ natLe 1 0 ++ natLe 2 (tTree.fld F.TICK_TREE_DOMAIN))
    ∃ u, cellTaken tTree 4 c c u ∧ foreign u c = false ∧ 4 ∈ childPorts u := by
  intro c; refine ⟨(ingress tTree 4 c).2, ⟨?_, ingress_out ?_⟩, ?_, ?_⟩ <;> decide +kernel
theorem witness_tick_foreign : let c := tTick (natLe 1 1 ++ natLe 1 0 ++ natLe 2 (tRun.fld F.TICK_TREE_DOMAIN + 1))
    cellTaken (atFrac 5 tRun) 33 c c (atFrac 5 tRun) ∧ c.ty = 0x30 ∧ getLE c.payload 0 1 = 1 ∧ foreign (atFrac 5 tRun) c = true := by
  refine ⟨⟨?_, ?_⟩, ?_, ?_, ?_⟩ <;> decide +kernel
theorem witness_barrow : let m : Move := { tile := 0, promote := locFar 9 }
    tBarrow.on = true ∧ moveFor (prefGo tBarrow) 0 = some m := by
  refine ⟨?_, ?_⟩ <;> decide +kernel
theorem witness_barrow_copy : let m : Move := { tile := 0, promote := true }
    moveStale tFar m = false ∧ nearRoom tFar none = true ∧ (copySlot tFar m).isSome = true ∧ tFar.st.locks.any (fun k => k.act == .migration && k.first == m.tile) = false ∧ (lockInternal tFar .migration m.tile 1).1 = true := by
  refine ⟨?_, ?_, ?_, ?_, ?_⟩ <;> decide +kernel
theorem witness_lock : let c : MLock := { id := 7, act := .checkpoint, first := 9, count := 1, held := false }
    let s : State := { tBarrow with st := { tBarrow.st with locks := [c] } }
    tBarrow.on = true ∧ tBarrow.st.locks.find? (fun l => l.id == 6 && !l.held && !l.warned) = some tLock ∧ tBarrow.st.locks.find? (fun l => l.id == 6 && !l.held) = some tLock ∧ tLock.act = .scrub ∧ grantable tBarrow tLock = true
    ∧ s.st.locks.find? (fun l => l.id == 7 && !l.held) = some c ∧ grantable s c = true ∧ c.act = .checkpoint := by
  refine ⟨?_, ?_, ?_, ?_, ?_, ?_, ?_, ?_⟩ <;> decide +kernel
theorem witness_lock_waits : let s : State := { tBarrow with st := { tBarrow.st with locks := [tLock, { id := 5, act := .zeroise, first := 0, count := 1, held := true }] } }
    s.on = true ∧ s.st.locks.find? (fun l => l.id == 6 && !l.held) = some tLock ∧ grantable s tLock = false := by
  refine ⟨?_, ?_, ?_⟩ <;> decide +kernel
theorem witness_hint : vendorReady (.ld 0) .ten tImg ∧ tenantCheck tImg (ldTenant tImg 0) = St.ok ∧ 65536 % 65536 = 0 ∧ 65536 < 2 ^ 52 ∧ 16777216 ≤ 16777216 ∧ (hintTile tImg (ldTenant tImg 0) 0 (reqLd tImg 0)).1 = St.ok ∧ (hintTile tImg (ldTenant tImg 0) 1048576 (reqLd tImg 0)).1 ≠ St.ok := by
  refine ⟨⟨⟨?_, ?_, ?_, ?_⟩, ?_, ?_⟩, ?_, ?_, ?_, ?_, ?_, ?_⟩ <;> decide +kernel
theorem witness_scrub : let s := tImg.put F.TILE_SCRUB_CTL_EN 1
    s.on = true ∧ s.flag F.TILE_SCRUB_CTL_EN = true ∧ s.damp.forced = false ∧ s.st.locks = [] ∧ s.st.scrubDue ≤ s.time ∧ (ownTiles s).find? (fun e => s.st.scrubNext ≤ e.1 && e.2.state == .sealed) = some (0, tileGet s 0) := by
  refine ⟨?_, ?_, ?_, ?_, ?_, ?_⟩ <;> decide +kernel
theorem witness_scrub_early : let s : State := { tImg with st := { tImg.st with scrubDue := 7 } }
    s.on = true ∧ s.st.scrubOn = false ∧ s.time < s.st.scrubDue := by decide
theorem witness_birsp : tSnoop.on = true ∧ ldLine tSnoop 0 0 = some 0 ∧ (tSnoop.coh.snoops.find? (fun p => p.line == 0 && (slotsOfLd tSnoop 0).contains p.agent)).isSome = true ∧ isLost tSnoop 0 = false
    ∧ ldLine tSnoop 0 64 = some 1 ∧ tSnoop.coh.snoops.any (fun p => p.line == 1 && (slotsOfLd tSnoop 0).contains p.agent) = false ∧ tSnoop.coh.conflicts = [] := by
  refine ⟨?_, ?_, ?_, ?_, ?_, ?_, ?_⟩ <;> decide +kernel
theorem witness_herd_shadow : vendorReady .fm .sys tImg ∧ herdSlots tImg = [] ∧ (readImageAs (mbxIn .fm tImg) 0 3 0 reqSys).1 = (St.ok, some tImageRead) ∧ idleSlot (mbxIn .fm tImg) = some 0
    ∧ roomOver (admitJob (mbxIn .fm tImg) 0 tImageRead) = false := by
  refine ⟨⟨⟨?_, ?_, ?_, ?_⟩, ?_, ?_⟩, ?_, ?_, ?_, ?_⟩ <;> decide +kernel
theorem witness_herd_reimage : vendorReady (.ld 0) .ten tAwait ∧ herdMine tAwait (.ld 0) 4 = true ∧ (jobGet tAwait 4).state = .faulted ∧ (jobGet tAwait 4).clearing = none ∧ (herdGet tAwait 4).state ∈ [3, 4]
    ∧ (let r := readImage (jobSet tAwait 4 {}) (ldTenant tAwait 0) 0 (ldReq tAwait (.ld 0)); r.1 = (St.ok, some tImageRead) ∧ namesHerd (jobSet r.2 4 (jobGet tAwait 4)) (herdGet tAwait 4) tImageRead = true) := by
  refine ⟨⟨⟨?_, ?_, ?_, ?_⟩, ?_, ?_⟩, ?_, ?_, ?_, ?_, ?_, ?_⟩ <;> decide +kernel
theorem witness_strn_open : vendorReady (.ld 0) .ten tColl ∧ tSnap.2.st = St.ok ∧ collRec tSnap.1 = tCollRec ∧ tCollRec.ok = true ∧ tCollRec.ctab = 131072 ∧ 8 * tCollRec.ncent = 8 ∧ tTab.2.st = St.ok ∧ listsOk tCollRec (listsOf tCollRec tTab.1) = true
    ∧ tTab.2.s.hnd.colls = [] ∧ (List.range 64).any (fun n => tTab.2.s.flag (F.COH_WIN_BASE_EN n)) = false
    ∧ (tCollRec.areas.flatMap (fun a => (List.range a.2).map (fun i => (xlate tTab.2.s 3 (a.1 + 65536 * i) Need.r none).1))).find? (· != St.ok) = none ∧ (List.range 64).find? (fun h => !(collGet tTab.2.s h).taken) = some 0 := by
  refine ⟨⟨⟨?_, ?_, ?_, ?_⟩, ?_, ?_⟩, ?_, ?_, ?_, ?_, ?_, ?_, ?_, ?_, ?_, ?_, ?_⟩ <;> decide +kernel
theorem witness_rebalance_range : 2 < 4096 ∧ tileVa 0 2 = true ∧ tileVa (2 ^ 52 - 131072) 2 = true ∧ (tileRuns (rangeIds tAwait (jobGet tAwait 4).tenant 0 2)) = [(0, 2)] ∧ (lockRuns tAwait .rebalance (tileRuns (rangeIds tAwait (jobGet tAwait 4).tenant 0 2))).1 = St.ok := by
  refine ⟨?_, ?_, ?_, ?_, ?_⟩ <;> decide +kernel
theorem witness_mutation : nextMut (tMut 0) 2 = some (tMutStep 0) ∧ resLines (tMut 0) (tMutStep 0) (mutOf (tMutStep 0).body) ++ mutLines (tMut 0) (tMutStep 0) (mutRun (tMutStep 0) (mutOf (tMutStep 0).body) (collGet (tMut 0) 2).cr { st := St.ok, img := [], dirty := [], lists := [], s := tMut 0 }).2 = [] := by
  refine ⟨?_, ?_⟩ <;> decide +kernel
theorem witness_mutation_lines : let s := tHeld (tMut 1)
    s.on = true ∧ nextMut s 2 = some (tMutStep 1) ∧ ∀ l, resLines s (tMutStep 1) (mutOf (tMutStep 1).body) ++ l ≠ [] := by
  refine ⟨?_, ?_, fun l h => absurd (List.append_eq_nil_iff.1 h).1 ?_⟩ <;> decide +kernel
theorem witness_cell_rows : ∀ ty ∈ [0x01, 0x02, 0x03, 0x11, 0x12, 0x13, 0x32, 0x40, 0x41, 0x42, 0x43, 0x4A, 0x22, 0x14, 0x31], cellHere tRun 33 (tCell ty 0) (tCell ty 0) tRun ∧ (tCell ty 0).ty = ty := by
  intro ty _
  exact ⟨⟨⟨rfl, rfl⟩, rfl⟩, rfl⟩

end Sys2Proof.Tests
end

section
/-! PROOFS. spec/00_scope.md: every step takes one command (R13, R14), and what a write of a register leaves (R9 to R12, Table 00-5). -/

namespace Sys2Proof.Proofs

open Sys2Proof Sys2Proof.Machine Sys2Proof.Laws

variable {s : State} {f : State → State} {p : RegPath} {a v i j new : Nat} {h : Half} {r : RegRow} {w : RegW} {own : Option Nat}

/-! ### Every step takes one command -/

/-- Every command, whichever way it reaches the hub, answers a next state with the queue it found. -/
theorem exec_next_keeps_queue (c : Instr) (s : State) : ∃ t, exec c s = .next t ∧ t.pending = s.pending := by
  cases hu : ungated c with
  | true =>
    obtain ⟨f, e⟩ := exec_ungated (s := s) hu
    exact e ▸ supAny_next
  | false =>
    cases hr : reachesSup c with
    | true =>
      obtain ⟨f, e⟩ | ⟨mb, f, e⟩ := exec_sup (s := s) hr hu
      · exact e ▸ supOn_next
      · exact e ▸ mbxSup_next
    | false =>
      obtain ⟨f, e⟩ | ⟨mb, f, e⟩ := exec_hub (s := s) hr
      · obtain ⟨t, ht, hq, -⟩ := hubOnly_next (f := f) (s := s)
        exact ⟨t, e ▸ ht, hq⟩
      · obtain ⟨t, ht, hq, -⟩ := mbxOnly_next (mb := mb) (f := f) (s := s)
        exact ⟨t, e ▸ ht, hq⟩

/-- Settles O4: a waiting command leaves the queue's rest as it found it, and an empty queue stays empty. -/
theorem everyStepTakesOneCommand : Obligations.EveryStepTakesOneCommand := by
  intro s
  cases hp : s.pending with
  | nil => exact ⟨{ s with time := s.time + 1 }, by simp only [step, hp], hp⟩
  | cons c rest =>
    obtain ⟨t, ht, hq⟩ := exec_next_keeps_queue c { s with pending := rest }
    exact ⟨t, by simp only [step, hp, ht], hq⟩

/-! ### A register after its write -/

/-- The register set holds its value, and every other register what it held. -/
theorem reg_setReg (hw : smWf regReset s.regs) (a : Nat) (x : BitVec 64) (b : Nat) : (s.setReg a x).reg b = if b = a then x else s.reg b :=
  smGet_smSet hw a x b

/-- The registers whose write does more than set their fields (Table 20-16). -/
def actingNames : List String :=
  ["TICK_TREE", "TICK_CHILDREN", "FAB_PORT_CTL_n", "SHP_SHP_CFG_q_k", "SHP_SHP_MATCH_q_k", "SHP_METER_CFG_m", "SHP_METER_RATE_m", "DAMP_CAP", "DAMP_REASON_SEEN", "HOST_RING_BASE_i",
    "HOST_RING_CTL_i"]

theorem writeActs_of_not_acting {name : String} (hn : name ∉ actingNames) : writeActs s name i j h = s := by
  unfold writeActs
  split
  case h_12 => rfl
  all_goals exact absurd (by decide) hn

/-! ### Raw writes (R9) -/

theorem pathAddr_bar0 (hb : ∀ n, p ≠ .bar2 n) (off : Nat) : pathAddr p off = some off := by
  cases p with
  | bar2 n => exact absurd rfl (hb n)
  | _ => rfl

/-- Where the bytes of an access of a half begin. -/
def accOff (h : Half) (a : Nat) : Nat := if h = .hi then a + 4 else a
/-- How many bytes an access of a half has. -/
def accSize (h : Half) : Nat := if h = .whole then 8 else 4

/-- An aligned access over an open path other than a BAR2 writes its half of the register. -/
theorem busWrite_aligned (ho : pathOpen s p = true) (hb : ∀ n, p ≠ .bar2 n) (ha : a % 8 = 0) :
    busWrite s { path := p, off := accOff h a, size := accSize h, val := v } = regWrite s a h v := by
  have h4 : (a + 4) % 8 = 4 := by omega
  cases h <;> simp [busWrite, pathAddr_bar0 hb, ho, accOff, accSize, ha, h4]

/-- Any other access is an unsupported request and writes nothing. -/
theorem busWrite_misaligned {off size : Nat} (ho : pathOpen s p = true) (hb : ∀ n, p ≠ .bar2 n) (h8 : ¬ (size = 8 ∧ off % 8 = 0)) (h4 : ¬ (size = 4 ∧ off % 4 = 0)) :
    busWrite s { path := p, off := off, size := size, val := v } = s.emit (.regBad p off) := by
  have lo : ¬ (size = 4 ∧ off % 8 = 0) := by omega
  have hi : ¬ (size = 4 ∧ off % 8 = 4) := by omega
  simp only [busWrite, pathAddr_bar0 hb, ho, h8, lo, hi, Bool.not_true, Bool.false_eq_true, if_false]

theorem exec_regWrite (x : RegAcc) (s : State) : exec (.regWrite x) s = supOn (fun u => busWrite u x) s := rfl

/-- A plain write through the bus, while main power is on. -/
theorem exec_regWrite_plain (hon : s.on = true) (ho : pathOpen s p = true) (hb : ∀ n, p ≠ .bar2 n) (ha : a % 8 = 0) (hp : plainWrite s a h v r i j new) :
    exec (.regWrite { path := p, off := accOff h a, size := accSize h, val := v }) s = .next ((writeActs (s.setReg a (BitVec.ofNat 64 new)) r.name i j h).under s) := by
  rw [exec_regWrite, supOn_on hon, busWrite_aligned ho hb ha, regWrite_plain hp]
  rfl

/-- Settles O15: a register whose write does nothing beyond setting its fields takes the value its access codes give, alone. -/
theorem plainRegisterWritesReadBack : Obligations.PlainRegisterWritesReadBack := by
  intro s p a v i j new r hw hon ho hb ha hlt hp hn
  have e := exec_regWrite_plain hon ho hb ha hp
  rw [writeActs_of_not_acting hn] at e
  refine ⟨_, e, ?_, ?_, rfl, smSet_wf hw _ _⟩
  · show ((s.setReg a _).reg a).toNat = new
    rw [reg_setReg hw, if_pos rfl, BitVec.toNat_ofNat, Nat.mod_eq_of_lt hlt]
  · intro b hne
    exact (reg_setReg hw a _ b).trans (if_neg hne)

/-! ### The lock (R10, R560) -/

/-- Under the lock a write of a register whose fields are all RWL or RO changes nothing. -/
theorem hubWrite_locked (hn : r.name ∉ ["SEGT_OP", "WIN_OP", "FLT_POP", "FLT_OVF_CLR", "HOST_RING_IDX_i", "HOST_SYSRING_TAIL"]) (hl : s.sup.lock = true)
    (hf : r.fields.all (fun f => f.acc == .rwl || f.acc == .ro) = true) : hubWrite a r i j h v s = s := by
  simp only [List.mem_cons, List.not_mem_nil, or_false, not_or] at hn
  obtain ⟨n1, n2, n3, n4, n5, n6⟩ := hn
  simp only [hubWrite, n1, n2, n3, n4, n5, n6, hl, hf, if_false, and_self, if_true]

/-! ### Writes by a register's own row -/

/-- A row whose operands are in range acts. -/
theorem supOn_guard {o : Out State} {q : Prop} [Decidable q] (hq : q) (e : o = supOn (fun u => if q then f u else u) s) : o = supOn f s := by
  simpa only [hq, if_true] using e

/-- The BAR2 of an LD reaches the LD's own rings (R549). -/
theorem namedWrite_own {n : Nat} (hw : w.path = .bar2 n) : namedWrite s a w (some n) = regWrite s a w.half w.val := by
  simp only [namedWrite, hw, pathOpen, Bool.not_true, Bool.false_eq_true, if_false, if_true]

/-- A row that writes a plain register sets its fields and acts. -/
theorem supOn_plain (hon : s.on = true) (hr : namedWrite s a w own = regWrite s a w.half w.val) (hp : plainWrite s a w.half w.val r i j new) :
    supOn (fun u => namedWrite u a w own) s = .next ((writeActs (s.setReg a (BitVec.ofNat 64 new)) r.name i j w.half).under s) := by
  rw [supOn_on hon, hr, regWrite_plain hp]
  rfl

/-- The rows that write one plain register: each with its register's address in BAR0 and the range of its operands. -/
def plainRows (w : RegW) (n c k g x : Nat) : List (Instr × Nat × Prop) :=
  [(.tickTreeWrite w, 0x100028, True), (.tickPeriodWrite w, 0x100000, True), (.tickGuardWrite w, 0x100008, True), (.fabCredInitWrite w, 0x400010, True), (.swxBufWrite w, 0x410010, True),
    (.dampCapWrite w, 0x040008, True), (.portCtlWrite n w, 0x400100 + 8 * n, n < 26), (.swxProfWrite n c w, 0x410100 + 0x20 * n + 8 * c, n < 4 ∧ c < 3),
    (.shaperWrite n k .cfg w, 0x424000 + 0x200 * n + 0x20 * k, n < 26 ∧ k < 16), (.shaperWrite n k .mtch w, 0x424008 + 0x200 * n + 0x20 * k, n < 26 ∧ k < 16),
    (.meterWrite n .cfg w, 0x42A000 + 0x10 * n, n < 1024), (.meterWrite n .rate w, 0x42A008 + 0x10 * n, n < 1024),
    (.gateWrite n g x w, 0x428000 + 0x100 * n + 0x20 * g + 8 * x, n < 26 ∧ g < 8 ∧ x < 4), (.cohWinWrite n .va w, 0x501010 + 0x20 * n, n < 64), (.cohWinWrite n .agents w, 0x501018 + 0x20 * n, n < 64),
    (.ringCfgWrite n .base w, 0x700120 + 0x40 * n, n < 16), (.ringCfgWrite n .ctl w, 0x700128 + 0x40 * n, n < 16)]

/-- Each row of the list writes the register at its address. -/
theorem plainRows_namedWrite (s : State) (w : RegW) (n c k g x : Nat) :
    ∀ e ∈ plainRows w n c k g x, e.2.2 → ∃ own, exec e.1 s = supOn (fun u => namedWrite u e.2.1 w own) s := by
  simp only [plainRows, List.forall_mem_cons, List.not_mem_nil, false_imp_iff, implies_true, and_true]
  refine ⟨?tree, ?period, ?guard, ?credits, ?buffer, ?cap, ?port, ?profile, ?shaper, ?shaperMatch, ?meter, ?meterRate, ?gate, ?winVa, ?winAgents, ?ringBase, ?ringCtl⟩
  case tree | period | guard | credits | buffer | cap => exact fun _ => ⟨none, rfl⟩
  case ringBase | ringCtl => exact fun hq => ⟨some n, supOn_guard hq rfl⟩
  all_goals exact fun hq => ⟨none, supOn_guard hq rfl⟩

/-- Settles O53: raw accesses by their width and the lock, then the registers' own rows over BAR0 and over a ring's BAR2. -/
theorem plainRegisterWritesSetTheirFields : Obligations.PlainRegisterWritesSetTheirFields := by
  refine ⟨?raw, ?locked, ?misaligned, ?ownRow, ?ownRing⟩
  case raw =>
    intro s p a h v i j new r hon ho hb ha hp
    exact exec_regWrite_plain hon ho hb ha hp
  case locked =>
    intro s p a v i j r hon ho hb ha hf hn hl hall
    have hsup : r.name ∉ supNames := fun hm => hn (List.mem_append_left _ hm)
    have hact : r.name ∉ ["SEGT_OP", "WIN_OP", "FLT_POP", "FLT_OVF_CLR", "HOST_RING_IDX_i", "HOST_SYSRING_TAIL"] := fun hm => hn (List.mem_append_right supNames hm)
    have hbus : busWrite s { path := p, off := a, size := 8, val := v } = regWrite s a .whole v := busWrite_aligned (h := .whole) ho hb ha
    rw [exec_regWrite, supOn_on hon, hbus, regWrite_hub hf hsup, hubWork, hubWrite_locked hact hl hall]
    rfl
  case misaligned =>
    intro s p off size v hon ho hb h8 h4
    rw [exec_regWrite, supOn_on hon, busWrite_misaligned ho hb h8 h4]
    rfl
  case ownRow =>
    intro s w n c k g x hon ho hb e he r i j new hq hp
    obtain ⟨own, hrow⟩ := plainRows_namedWrite s w n c k g x e he hq
    rw [hrow, supOn_plain hon (namedWrite_open ho hb) hp]
  case ownRing =>
    intro s w n i j new r q hon hn hw a hp
    have hrow : exec (.ringCfgWrite n q w) s = supOn (fun u => namedWrite u a w (some n)) s := by
      cases q <;> exact supOn_guard hn rfl
    rw [hrow, supOn_plain hon (namedWrite_own hw) hp]

end Sys2Proof.Proofs
end

section
/-! PROOFS. spec/01_tick_and_schedule.md: the timebase on an empty queue (R17), the commands of job slots (R45, R47, R50 to R53, R99,
R563), and the tick boundary, tick loss and the tick cells (R25 to R28, R31, R35, R37, R86; R256 of spec/08). -/

namespace Sys2Proof.Proofs

open Sys2Proof Sys2Proof.Machine Sys2Proof.Laws

variable {s u : State} {mb : Mbx} {iss : Issuer} {f : State → State} {j start port frac : Nat} {c a : Cell}

/-- Settles O2: the empty queue is the second branch of a step. -/
theorem anEmptyQueueCountsOneCycle : Obligations.AnEmptyQueueCountsOneCycle := by
  intro s hp
  simp only [step, hp]

/-! ### What the sideband's doorbell leaves of the jobs (R543) -/

@[simp] theorem mbxIn_tk : (mbxIn mb s).tk = s.tk := core_tk mbxIn_core
@[simp] theorem mbxIn_seq : (mbxIn mb s).seq = s.seq := core_seq mbxIn_core
@[simp] theorem mbxIn_damp : (mbxIn mb s).damp = s.damp := core_damp mbxIn_core
@[simp] theorem mbxIn_herd : (mbxIn mb s).herd = s.herd := core_herd mbxIn_core
@[simp] theorem jobGet_mbxIn : jobGet (mbxIn mb s) j = jobGet s j := by simp only [jobGet, mbxIn_seq]
@[simp] theorem jobGet_hold : jobGet (s.hold mb) j = jobGet s j := rfl
@[simp] theorem herdGet_mbxIn : herdGet (mbxIn mb s) j = herdGet s j := by simp only [herdGet, mbxIn_herd]
@[simp] theorem hasHerd_mbxIn : hasHerd (mbxIn mb s) j = hasHerd s j := by simp only [hasHerd, herdGet_mbxIn]
@[simp] theorem hasHerd_hold : hasHerd (s.hold mb) j = hasHerd s j := rfl
@[simp] theorem resumeTick_mbxIn : resumeTick (mbxIn mb s) j = resumeTick s j := by simp only [resumeTick, hasHerd_mbxIn, herdGet_mbxIn, jobGet_mbxIn]

@[simp] theorem mbxTenant_mbxIn : mbxTenant (mbxIn mb s) mb = mbxTenant s mb := by cases mb <;> rfl
@[simp] theorem jobMine_mbxIn : jobMine (mbxIn mb s) mb j = jobMine s mb j := by simp only [jobMine, mbxTenant_mbxIn, jobGet_mbxIn]

/-! ### The job commands (R45, R47, R50 to R53, R99, R563) -/

/-- A hub command of a mailbox that is ready does its own work. -/
theorem mbxOnly_vendor (h : vendorReady mb iss s) : mbxOnly mb (vendor mb iss f) s = .next ((f (mbxIn mb s)).under s) := by
  rw [mbxOnly_eq, gate_vendor h]

theorem exec_jobStart : exec (.jobStart mb j start) s = mbxOnly mb (startCmd mb .ten j start false) s := rfl
theorem exec_jobRestart : exec (.jobRestart mb j start) s = mbxOnly mb (startCmd mb .tenSys j start true) s := rfl
theorem exec_roomClearingDone : exec (.roomClearingDone j) s = execRoomClearingDone j s := rfl

/-- A start command that is not refused (R50, R476) arms the slot where the slot's state allows it. -/
theorem startCmd_accepted {restart : Bool} (h : vendorReady mb iss s) (hf : s.damp.forced = false) (hm : jobMine s mb j = true) (hs : s.tk.num + 4 ≤ start)
    (hc : (jobGet s j).clearing = none) :
    mbxOnly mb (startCmd mb iss j start restart) s = .next ((
      if restart = true then (if (jobGet s j).state = .faulted then (armJob (mbxIn mb s) j start (resumeTick s j)).reply mb St.ok else (mbxIn mb s).reply mb St.badDesc)
      else if (jobGet s j).state = .admitted ∨ ((jobGet s j).state = .faulted ∧ (jobGet s j).everRan = false)
        then (armJob (mbxIn mb s) j start (if (jobGet s j).state = .admitted then 0 else (jobGet s j).resume)).reply mb St.ok
      else (mbxIn mb s).reply mb St.badDesc).under s) := by
  refine (mbxOnly_vendor h).trans ?_
  have hlt : ¬ start < s.tk.num + 4 := Nat.not_lt.mpr hs
  simp only [mbxIn_damp, mbxIn_tk, jobGet_mbxIn, jobMine_mbxIn, resumeTick_mbxIn, hf, hm, hc, hlt, Bool.not_true, Bool.not_eq_true', Bool.false_eq_true, Option.isSome_none, or_self, if_false]

/-- Arming a slot from a mailbox keeps the rest of its record. -/
theorem armJob_mbxIn (resume : Nat) : armJob (mbxIn mb s) j start resume
    = jobSet (mbxIn mb s) j { jobGet s j with state := .armed, start := start, resume := resume, tick := resume, fault := none, stopAt := none } := by
  rw [armJob, jobGet_mbxIn]

/-- The end of room clearing for a slot whose admission or new image waits for it (R99). -/
theorem exec_roomClearingDone_waiting (hon : s.on = true) (hc : (jobGet s j).clearing = some mb) :
    exec (.roomClearingDone j) s = .next ((
      if roomOver (clearGo s) = true then (if clearFailed (clearGo s) = true then (unadmitted (clearGo s) j).replyBg mb St.busy else clearGo s)
      else cleared (clearGo s) j mb).under s) := by
  rw [exec_roomClearingDone, execRoomClearingDone, hubOnly_on hon]
  cases hr : roomOver (clearGo s) <;> simp [hc, hr]

/-- A slot is cleared for its first image, or for the one that replaces a herd's (R99, R455). -/
theorem cleared_eq : cleared s j mb = if (jobGet s j).prior = none then (admitJob s j (jobGet s j).image).replyBg mb St.ok (natLe 1 j) else (reimaged s j).replyBg mb St.ok := by
  cases hp : (jobGet s j).prior <;> simp [cleared, hp]

/-- A release of an IDLE slot has nothing to do (R52). -/
theorem exec_jobRelease_idle (h : vendorReady mb .tenSys s) (hm : jobMine s mb j = true) (hst : (jobGet s j).state = .idle) :
    exec (.jobRelease mb j) s = .next (((mbxIn mb s).reply mb St.ok).under s) := by
  refine (mbxOnly_vendor h).trans ?_
  simp only [jobMine_mbxIn, jobGet_mbxIn, hm, hst, Bool.not_true, Bool.false_eq_true, if_false]

/-- A release of a RUNNING slot waits, its mailbox held, until the next boundary or its herd's stop (R52). -/
theorem exec_jobRelease_running (h : vendorReady mb .tenSys s) (hm : jobMine s mb j = true) (hst : (jobGet s j).state = .running)
    (hu : u = (if hasHerd s j = true then raiseFault ((mbxIn mb s).hold mb) j St.aborted 5 else (mbxIn mb s).hold mb)) :
    exec (.jobRelease mb j) s = .next ((jobSet u j { jobGet u j with release := (jobGet u j).release ++ [mb], stopAt := some ((jobGet u j).stopAt.getD (u.tk.num + 1)) }).under s) := by
  refine (mbxOnly_vendor h).trans ?_
  simp only [jobMine_mbxIn, jobGet_mbxIn, hasHerd_hold, hasHerd_mbxIn, hm, hst, hu, Bool.not_true, Bool.false_eq_true, if_false]

/-- A release of any other slot frees it at once; an admission that waits there for room is answered E_ABORTED (R52, R99). -/
theorem exec_jobRelease_stopped (h : vendorReady mb .tenSys s) (hm : jobMine s mb j = true) (hst : (jobGet s j).state ∉ [JobState.idle, .running]) :
    exec (.jobRelease mb j) s = .next (((releaseJob ((jobGet s j).clearing.elim (mbxIn mb s) (fun m => (mbxIn mb s).replyBg m St.aborted)) j).reply mb St.ok).under s) := by
  refine (mbxOnly_vendor h).trans ?_
  simp only [jobMine_mbxIn, jobGet_mbxIn, hm, Bool.not_true, Bool.false_eq_true, if_false]
  cases hj : (jobGet s j).state with
  | idle | running => simp [hj] at hst
  | _ => cases (jobGet s j).clearing <;> rfl

/-- Settles O35: each command past its gate, then the branch its hypotheses pick. -/
theorem jobCommandsMoveTheirSlot : Obligations.JobCommandsMoveTheirSlot := by
  refine ⟨?admission, ?clearing, ?start, ?restart, ?releaseIdle, ?releaseRunning, ?releaseHerd, ?releaseOther⟩
  case admission =>
    intro s i va h
    refine (mbxOnly_vendor h).trans ?_
    rw [mbxIn_ld]
    rfl
  case clearing =>
    intro s j mb hon hc u
    rw [exec_roomClearingDone_waiting hon hc, cleared_eq]
  case start =>
    intro s mb j start h hf hm hs hc hst r
    rw [exec_jobStart, startCmd_accepted h hf hm hs hc, if_neg Bool.false_ne_true, if_pos hst, armJob_mbxIn]
  case restart =>
    intro s mb j start h hf hm hs hc hst
    rw [exec_jobRestart, startCmd_accepted h hf hm hs hc, if_pos rfl, if_pos hst, armJob_mbxIn]
  case releaseIdle => exact fun s mb j h hm hst => exec_jobRelease_idle h hm hst
  case releaseRunning =>
    intro s mb j h hm hst hh
    rw [exec_jobRelease_running h hm hst (if_neg (Bool.eq_false_iff.mp hh)).symm, jobGet_hold, jobGet_mbxIn, hold_tk, mbxIn_tk]
  case releaseHerd => exact fun s mb j h hm hst hh => exec_jobRelease_running h hm hst (if_pos hh).symm
  case releaseOther =>
    intro s mb j h hm hst
    rw [exec_jobRelease_stopped h hm hst]
    cases (jobGet s j).clearing <;> rfl

/-! ### A tick cell at its port (R192, R194, R205) -/

/-- A cell that was taken in does its row's work, and its buffer entry is given back. -/
theorem arrive_taken {g : Cell → State → State} (h : ingress s port c = (some a, u)) : arrive g port c s = giveBack (g a u) port a.vn := by
  simp only [arrive, h]

/-- A row that stamps its cell's arrival (R17) and takes it in. -/
theorem hubOnly_arrive_stamped {g : Cell → State → State} (h : cellTaken (atFrac frac s) port c a u) :
    hubOnly (fun s => arrive g port c (atFrac frac s)) s = .next ((giveBack (g a u) port a.vn).under s) := by
  obtain ⟨hon, hin⟩ := h
  rw [hubOnly_on (show s.on = true from hon), arrive_taken hin]

theorem exec_tick (h : cellTaken (atFrac frac s) port c a u) : exec (.tick port frac c) s = .next ((giveBack (tickArrive port a u) port a.vn).under s) :=
  hubOnly_arrive_stamped h
theorem exec_delayReq (h : cellTaken (atFrac frac s) port c a u) : exec (.delayReq port frac c) s = .next ((giveBack (delayReqTake port a u) port a.vn).under s) :=
  hubOnly_arrive_stamped h
theorem exec_delayResp (h : cellTaken (atFrac frac s) port c a u) : exec (.delayResp port frac c) s = .next ((giveBack (delayRespTake port a u) port a.vn).under s) :=
  hubOnly_arrive_stamped h
theorem exec_stretchReq (h : cellTaken s port c a u) : exec (.stretchReq port c) s = .next ((giveBack (stretchTake port a u) port a.vn).under s) := by
  obtain ⟨hon, hin⟩ := h
  exact (hubOnly_on hon).trans (by rw [arrive_taken hin])

/-! ### What each tick cell does (R25 to R28, R37) -/

/-- A TICK cell of another domain is counted (R25). -/
theorem tickArrive_foreign (hty : c.ty = 0x30) (hsub : getLE c.payload 0 1 = 1) (hd : foreign s c = true) : tickArrive port c s = countForeign s := by
  simp [tickArrive, hty, hsub, hd]

/-- A TICK cell of the domain and of the period in force, from the parent, goes to the children; a member takes it or steps (R26, R28). -/
theorem tickArrive_fromParent (hty : c.ty = 0x30) (hsub : getLE c.payload 0 1 = 1) (hd : foreign s c = false) (hr : isRoot s = false) (hp : port = parentPort s)
    (hb : getLE c.payload 24 4 = s.tk.base) :
    tickArrive port c s = if (forwardTick s port c).tk.joined = true then tickTake (forwardTick s port c) c else tickStep (forwardTick s port c) c := by
  subst hp
  simp [tickArrive, hty, hsub, hd, hr, hb]

/-- A delay request of the domain is answered on its port (R27). -/
theorem delayReqTake_domestic (hd : foreign s c = false) :
    delayReqTake port c s = sendPort s 33 port (tickCell s (tickPayload s 3 0 s.tk.cur 0 0 s.tk.base 0 (getLE c.payload 40 8) (stamp s s.tk.frac) 0)) := by
  simp only [delayReqTake, hd, Bool.false_eq_true, if_false]

/-- A stretch request of a child port records its level (R37). -/
theorem stretchTake_child (hd : foreign s c = false) (hp : port ∈ childPorts s) :
    stretchTake port c s = askStretch (tkSet s { s.tk with childReq := (port, min 64 (getLE c.payload 15 1)) :: s.tk.childReq.filter (fun e => e.1 != port) }) := by
  simp only [stretchTake, hd, List.contains_iff_mem.mpr hp, Bool.false_eq_true, if_false, if_true]

/-! ### Rows of the hub's own time (R27, R31, R55, R86; R256) -/

theorem exec_tickBoundary : exec .tickBoundary s = execTickBoundary s := rfl
theorem exec_tickLost : exec .tickLost s = execTickLost s := rfl
theorem exec_delayMeasure : exec .delayMeasure s = execDelayMeasure s := rfl
theorem exec_boundaryWorkDone : exec .boundaryWorkDone s = execBoundaryWorkDone s := rfl
theorem exec_samplePeriodClose : exec .samplePeriodClose s = execSamplePeriodClose s := rfl

/-- A member that has not measured within 64 ticks sends a delay request to its parent. -/
theorem exec_delayMeasure_due (hon : s.on = true) (hr : isRoot s = false) (hd : ∀ t, s.tk.delayTick = some t → t + 64 ≤ s.tk.num) :
    exec .delayMeasure s = .next ((sendPort (tkSet s { s.tk with delayTick := some s.tk.num }) 33 (parentPort s)
      (tickCell s (tickPayload s 2 0 s.tk.cur 0 0 s.tk.base 0 0 0 0))).under s) := by
  rw [exec_delayMeasure, execDelayMeasure, hubOnly_on hon]
  cases ht : s.tk.delayTick with
  | none => simp [hr]
  | some t => simp [hr, Nat.not_lt.mpr (hd t ht)]
/-- Within 64 ticks of the last measurement there is no other. -/
theorem exec_delayMeasure_soon {t : Nat} (hon : s.on = true) (ht : s.tk.delayTick = some t) (hlt : s.tk.num < t + 64) : exec .delayMeasure s = .next s := by
  rw [exec_delayMeasure, execDelayMeasure, hubOnly_on hon]
  simp only [ht, hlt, decide_true, or_true, if_true]
  rfl

/-- Settles O37: each row past the power gate or its port, then the branch its hypotheses pick. -/
theorem tickBoundariesAndTickCells : Obligations.TickBoundariesAndTickCells := by
  refine ⟨?boundary, ?lost, ?tick, ?tickForeign, ?measure, ?measureSoon, ?delayReq, ?delayResp, ?stretch, ?workDone, ?samples⟩
  case boundary =>
    intro s hon
    rw [exec_tickBoundary, execTickBoundary, hubOnly_on hon]
    rfl
  case lost =>
    intro s hon hr hm a
    rw [exec_tickLost, execTickLost, hubOnly_on hon, if_neg (not_or.mpr ⟨Bool.eq_false_iff.mp hr, Nat.not_lt.mpr hm⟩)]
    simp only [tkSet, a]
  case tick =>
    intro s u port frac c a h hty hsub hd hr hp hb
    rw [exec_tick h, tickArrive_fromParent hty hsub hd hr hp hb]
  case tickForeign =>
    intro s u port frac c a h hty hsub hd
    rw [exec_tick h, tickArrive_foreign hty hsub hd]
    rfl
  case measure => exact fun s hon hr hd => exec_delayMeasure_due hon hr hd
  case measureSoon => exact fun s t hon ht hlt => exec_delayMeasure_soon hon ht hlt
  case delayReq =>
    intro s u port frac c a h hd
    rw [exec_delayReq h, delayReqTake_domestic hd]
  case delayResp =>
    intro s u port frac c a h hd hp hr hq d ds
    rw [exec_delayResp h, delayRespTake, if_neg (Bool.eq_false_iff.mp hd), if_pos ⟨hp, by rw [hr]; rfl, hq⟩]
    rfl
  case stretch =>
    intro s u port c a h hd hp
    rw [exec_stretchReq h, stretchTake_child hd hp]
    rfl
  case workDone =>
    intro s hon
    rw [exec_boundaryWorkDone, execBoundaryWorkDone, hubOnly_on hon]
    rfl
  case samples =>
    intro s hon hle a
    rw [exec_samplePeriodClose, execSamplePeriodClose, hubOnly_on hon, if_neg (Nat.not_lt.mpr hle)]

end Sys2Proof.Proofs
end

section
/-! PROOFS. spec/02_tile_store.md: the bytes of a slot (R62, R64, R514), and byte-path stores to tiles (R67, R73, R78, R80, Table 02-4;
R103 for the time of use, and R366 with log 27, DEDUCED, for the tiles of an open collection). -/

namespace Sys2Proof.Proofs

open Sys2Proof Sys2Proof.Machine Sys2Proof.Laws

variable {s : State} {m : List Host.Cell} {t off ten key l l' o n : Nat} {d : List Byte} {x : Tile}

/-! ### Bytes of memory -/

/-- A table without the keys that fail a test: they hold their default, every other key what it held. -/
theorem smGet_filter_keys {α : Type} (dflt : Nat → α) (p : Nat → Bool) (m : SMap α) (k : Nat) :
    smGet dflt (m.filter (fun e => p e.1)) k = if p k = true then smGet dflt m k else dflt k := by
  induction m with
  | nil => simp [smGet]
  | cons e m ih =>
    by_cases hk : e.1 = k
    · subst hk
      cases hp : p e.1 with
      | true => simp [hp, smGet]
      | false => simpa [hp] using ih
    · cases hp : p e.1 <;> simpa [hp, smGet, hk] using ih

theorem readN_writeN (hm : Memory.wf m) (a : Nat) (d : List Byte) : Memory.readN (Memory.writeN m a d) a d.length = d := by
  refine List.ext_getElem (by simp [Memory.readN]) fun i _ hi => ?_
  simp [Memory.readN, read_writeN hm, hi]

/-! ### Slots (R62) -/

/-- A byte of a slot lies among consecutive bytes of a slot only if it is the same slot and its offset is one of theirs. -/
theorem slotKey_in_range (ho : o < 65536) (hn : off + n ≤ 65536) (h : slotKey l off ≤ slotKey l' o ∧ slotKey l' o < slotKey l off + n) :
    l' = l ∧ off ≤ o ∧ o < off + n := by
  unfold slotKey at h
  omega

theorem slotKey_div (ho : o < 65536) : slotKey l o / 65536 = l := by
  unfold slotKey
  omega

theorem slotRead_slotWrite (hm : Memory.wf s.mem) : (s.slotWrite l off d).slotRead l off d.length = d :=
  readN_writeN hm (slotKey l off) d

theorem read_slotWrite_elsewhere (hm : Memory.wf s.mem) (hd : off + d.length ≤ 65536) (ho : o < 65536)
    (hne : l' ≠ l ∨ o < off ∨ off + d.length ≤ o) :
    Memory.read (s.slotWrite l off d).mem (slotKey l' o) = Memory.read s.mem (slotKey l' o) := by
  have hout : ¬ (slotKey l off ≤ slotKey l' o ∧ slotKey l' o < slotKey l off + d.length) := fun h => by
    obtain ⟨hl, hlo, hhi⟩ := slotKey_in_range ho hd h
    omega
  exact (read_writeN hm _ d _).trans (if_neg hout)

theorem read_slotZero (s : State) (l : Nat) (ho : o < 65536) :
    Memory.read (s.slotZero l).mem (slotKey l' o) = if l' = l then 0 else Memory.read s.mem (slotKey l' o) := by
  have h := smGet_filter_keys (fun _ => (0 : Byte)) (fun a => a / 65536 != l) s.mem (slotKey l' o)
  rw [slotKey_div ho] at h
  by_cases hl : l' = l <;> simpa [Memory.read, State.slotZero, hl] using h

/-- Settles O10: a slot's bytes are consecutive addresses, and the addresses of two slots do not meet. -/
theorem slotsKeepWhatIsWritten : Obligations.SlotsKeepWhatIsWritten := by
  refine ⟨fun s l off d hm hd => ⟨slotWrite_wf hm l off d, slotRead_slotWrite hm, ?_⟩, fun s l hm => ⟨slotZero_wf hm l, ?_, ?_⟩⟩
  · exact fun l' o ho hne => read_slotWrite_elsewhere hm hd ho hne
  · exact fun o ho => (read_slotZero s l ho).trans (if_pos rfl)
  · exact fun l' o ho hl => (read_slotZero s l ho).trans (if_neg hl)

/-! ### The tile map (R69) -/

theorem tileGet_tileSet (hw : smWf (fun _ => {}) s.st.tiles) (t : Nat) (x : Tile) (k : Nat) :
    tileGet (tileSet s t x) k = if k = t then x else tileGet s k :=
  smGet_smSet hw t x k

/-- A store to a tile whose entry was just set changes the checksum in that entry and no other entry. -/
theorem tileGet_storeAt_tileSet (hw : smWf (fun _ => {}) s.st.tiles) (k : Nat) :
    tileGet (storeAt (tileSet s t x) t off d) k =
      if k = t then { x with crc := crcChange x.crc off (s.slotRead x.loc off d.length) d } else tileGet s k := by
  have hx : tileGet (tileSet s t x) t = x := (tileGet_tileSet hw t x t).trans (if_pos rfl)
  unfold storeAt
  rw [hx]
  refine (tileGet_tileSet (smSet_wf hw t x) t _ k).trans ?_
  rw [tileGet_tileSet hw]
  by_cases hk : k = t
  · rw [if_pos hk, if_pos hk]; rfl
  · rw [if_neg hk, if_neg hk, if_neg hk]

/-- That store writes its bytes in the slot which the entry set names, and no other byte of memory. -/
theorem read_storeAt_tileSet (hm : Memory.wf s.mem) (hw : smWf (fun _ => {}) s.st.tiles) (a : Nat) :
    Memory.read (storeAt (tileSet s t x) t off d).mem a =
      if slotKey x.loc off ≤ a ∧ a < slotKey x.loc off + d.length then d.getD (a - slotKey x.loc off) 0 else Memory.read s.mem a := by
  unfold storeAt
  rw [tileGet_tileSet hw, if_pos rfl]
  exact read_writeN hm _ d a

theorem touch_of_not_free (h : (tileGet s t).state ≠ .free) : touch s t = tileSet s t { tileGet s t with lastUse := s.time } := if_neg h

/-! ### Byte-path stores (R73, R78, Table 02-4) -/

/-- Settles O8: to a tile of an open collection and to a SHADOWED tile the answer is the same. -/
theorem byteStoresToShadowedTilesAreBusy : Obligations.ByteStoresToShadowedTilesAreBusy := by
  intro s t off ten key d hst
  unfold byteStore
  cases hc : collTile s t with
  | true => rfl
  | false => simp [hst]

/-- A byte-path store to an OPEN tile outside every open collection marks its use, then stores. -/
theorem byteStore_opened (hst : (tileGet s t).state = .opened) (hc : collTile s t = false) :
    byteStore s t off d ten key = (St.ok, storeAt (tileSet s t { tileGet s t with lastUse := s.time }) t off d) := by
  rw [← touch_of_not_free (by simp [hst])]
  simp [byteStore, hc, hst]

/-- Settles O9: the entry that the store finds is the tile's own with the time of use set, so its slot is the tile's. -/
theorem byteStoresToOpenTilesWriteTheirBytesAlone : Obligations.ByteStoresToOpenTilesWriteTheirBytesAlone := by
  intro s t off ten key d hm hw hst hc x r
  have hr : r = (St.ok, storeAt (tileSet s t { x with lastUse := s.time }) t off d) := byteStore_opened hst hc
  rw [hr]
  exact ⟨rfl, read_storeAt_tileSet hm hw, tileGet_storeAt_tileSet hw, rfl⟩

end Sys2Proof.Proofs
end

section
/-! PROOFS. spec/03_tiers_migration_prefetch.md: the barrow's copies from the start to the flip or the abandonment (R108, R109, R112 to
R114), the demand table's decay (R102), placement hints (R104 to R106) and the waiting maintenance locks (R120 to R123); scrub (R91 of
spec/02). -/

namespace Sys2Proof.Proofs

open Sys2Proof Sys2Proof.Machine Sys2Proof.Laws

variable {s u v : State} {m : Move} {ups : List Upset} {t k d : Nat}

/-! ### The rows of the barrow and of scrub -/

theorem exec_migCopyStart : exec (.migCopyStart t) s = execMigCopyStart t s := rfl
theorem exec_migPassEnd : exec (.migPassEnd t ups) s = execMigPassEnd t ups s := rfl
theorem exec_migDrainDone : exec (.migDrainDone t) s = execMigDrainDone t s := rfl
theorem exec_migFlip : exec (.migFlip t) s = execMigFlip t s := rfl
theorem exec_migAbandon : exec (.migAbandon t) s = execMigAbandon t s := rfl
theorem exec_demandDecay : exec .demandDecay s = execDemandDecay s := rfl
theorem exec_scrubTile : exec (.scrubTile ups) s = execScrubTile ups s := rfl
theorem exec_maintLockGrant : exec (.maintLockGrant k) s = execMaintLockGrant k s := rfl
theorem exec_migMaintWait : exec (.migMaintWait k) s = execMigMaintWait k s := rfl

/-! ### What the rows turn on -/

/-- A move that stands, with room, a slot and its lock, begins its copy (R103, R108). -/
theorem startCopy_begins (hs : moveStale u m = false) (hr : m.promote = true → m.job = none → nearRoom u none = true) (hd : copySlot u m = some d)
    (hl : u.st.locks.any (fun k => k.act == .migration && k.first == m.tile) = false) (hg : lockInternal u .migration m.tile 1 = (true, k, v)) :
    startCopy u m = beginCopy v m d := by
  have hroom : ¬ (m.promote = true ∧ m.job.isNone = true ∧ (!nearRoom u none) = true) := by
    rintro ⟨hp, hj, hn⟩
    simp [hr hp (Option.isNone_iff_eq_none.mp hj)] at hn
  rw [startCopy, if_neg (Bool.eq_false_iff.mp hs), if_neg hroom]
  simp only [hd, hl, hg, Bool.false_eq_true, if_false, if_true]

/-- The tile map of a copy that begins: its tile's entry is IN_TRANSIT to the copy's slot (R108). -/
theorem beginCopy_tiles : (beginCopy v m d).st.tiles
    = smSet (fun _ => {}) v.st.tiles m.tile { tileGet v m.tile with state := .inTransit, alt := d, shCharge := if m.promote = true then m.job else none } := rfl

/-- Nothing holds scrub off: it is enabled, no forced state and no lock of its own stop it, and its pass has begun or is due (R91). -/
theorem scrub_not_held_off (he : s.flag F.TILE_SCRUB_CTL_EN = true) (hf : s.damp.forced = false) (hl : s.st.locks.any (fun l => l.act == .scrub) = false)
    (hd : s.st.scrubOn = true ∨ s.st.scrubDue ≤ s.time) :
    ¬ ((!s.flag F.TILE_SCRUB_CTL_EN) = true ∨ s.damp.forced = true ∨ s.st.locks.any (fun l => l.act == .scrub) = true
      ∨ ((!s.st.scrubOn) = true ∧ s.time < s.st.scrubDue)) := by
  rintro (h | h | h | ⟨ho, ht⟩)
  · simp [he] at h
  · exact Bool.eq_false_iff.mp hf h
  · exact Bool.eq_false_iff.mp hl h
  · exact hd.elim (fun h => by simp [h] at ho) (Nat.not_le.mpr ht)

/-! ### The family -/

/-- Settles O39: each row past the power gate or its mailbox, then the branch its hypotheses pick. -/
theorem barrowCopiesHintsAndScrub : Obligations.BarrowCopiesHintsAndScrub := by
  refine ⟨?start, ?begins, ?passEnd, ?drain, ?flip, ?abandon, ?decay, ?hint, ?scrub, ?scrubEarly, ?grantScrub, ?grantCheckpoint, ?lockWaits, ?maintWait⟩
  case start =>
    intro s t m hon hm
    rw [exec_migCopyStart, execMigCopyStart, hubOnly_on hon]
    simp only [hm]
  case begins => exact fun u v m d k hs hr hd hl hg => ⟨startCopy_begins hs hr hd hl hg, beginCopy_tiles⟩
  case passEnd =>
    intro s t c ups hon hc ho r c'
    rw [exec_migPassEnd, execMigPassEnd, hubOnly_on hon]
    simp only [hc, ho, Option.isSome_none, Bool.false_eq_true, if_false, Bool.not_eq_true']
    rfl
  case drain =>
    intro s t c0 c hon hc h0
    rw [exec_migDrainDone, execMigDrainDone, hubOnly_on hon]
    simp only [hc, h0]
  case flip =>
    intro s t c0 c hon hc h0 hd ht
    rw [exec_migFlip, execMigFlip, hubOnly_on hon]
    simp only [hc, h0, hd, ht, and_self, if_true]
  case abandon =>
    intro s t c0 c hon hc h0
    rw [exec_migAbandon, execMigAbandon, hubOnly_on hon]
    simp only [hc, h0, Option.bind_some, State.upTo]
  case decay =>
    intro s hon hd
    rw [exec_demandDecay, execDemandDecay, hubOnly_on hon, if_neg (Nat.not_lt.mpr hd)]
    rfl
  case hint =>
    intro s i va n hint h ha hv h0 hn hh ht w after
    have hform : ¬ (va % 65536 ≠ 0 ∨ 2 ^ 52 ≤ va ∨ n = 0 ∨ 16777216 < n ∨ 4 < hint) := by omega
    refine (mbxOnly_vendor h).trans (congrArg (fun u : State => Host.Outcome.next (u.under s)) ?_)
    rw [mbxIn_ld]
    exact (if_neg hform).trans (if_neg (not_not.mpr ht))
  case scrub =>
    intro s ups hon he hf hl hd v
    rw [exec_scrubTile, execScrubTile, hubOnly_on hon, if_neg (scrub_not_held_off (s := withUps s ups) he hf hl hd)]
    rfl
  case scrubEarly =>
    intro s ups hon ho ht
    have hearly : (!(withUps s ups).st.scrubOn) = true := congrArg not ho
    rw [exec_scrubTile, execScrubTile, hubOnly_on hon, if_pos (.inr (.inr (.inr ⟨hearly, ht⟩)))]
    rfl
  case grantScrub | grantCheckpoint =>
    intro s k l hon hl hg ha
    rw [exec_maintLockGrant, execMaintLockGrant, hubOnly_on hon]
    simp only [hl, hg, ha, Bool.not_true, Bool.false_eq_true, if_false]
  case lockWaits =>
    intro s k l hon hl hg
    rw [exec_maintLockGrant, execMaintLockGrant, hubOnly_on hon]
    simp only [hl, hg, Bool.not_false, if_true]
    rfl
  case maintWait =>
    intro s k l hon hl
    rw [exec_migMaintWait, execMigMaintWait, hubOnly_on hon]
    simp only [hl, State.upTo, stSet]

end Sys2Proof.Proofs
end

section
/-! PROOFS. spec/04_integer_arithmetic.md: rounding to nearest, ties to even (R132). -/

namespace Sys2Proof.Proofs

open Sys2Proof Sys2Proof.Machine Sys2Proof.Laws

variable {v p m n : Int} {k : Nat}

/-! ### The nearest integer, ties to even -/

/-- `m` differs from `v / p` by at most a half, and is even where it differs by exactly a half. -/
def NearestEven (v p m : Int) : Prop :=
  0 ≤ 2 * (v - m * p) + p ∧ 2 * (v - m * p) ≤ p ∧ ((2 * (v - m * p) = p ∨ 2 * (v - m * p) + p = 0) → m % 2 = 0)

theorem NearestEven.neg (h : NearestEven v p m) : NearestEven (-v) p (-m) := by
  obtain ⟨hlow, hhigh, htie⟩ := h
  simp only [NearestEven, neg_mul]
  exact ⟨by omega, by omega, fun ht => by have := htie (by omega); omega⟩

/-- The greater of two nearest integers would be the lesser plus one, both of them a half away and so both even. -/
theorem NearestEven.le (hp : 0 < p) (hm : NearestEven v p m) (hn : NearestEven v p n) : m ≤ n := by
  obtain ⟨hmlow, -, hmtie⟩ := hm
  obtain ⟨-, hnhigh, hntie⟩ := hn
  by_contra hlt
  have hstep : (n + 1) * p ≤ m * p := mul_le_mul_of_nonneg_right (by omega) hp.le
  rw [add_one_mul] at hstep
  have heq : (n + 1) * p = m * p := by rw [add_one_mul]; omega
  have hmn : n + 1 = m := mul_right_cancel₀ hp.ne' heq
  have hmeven := hmtie (by omega)
  have hneven := hntie (by omega)
  omega

theorem NearestEven.unique (hp : 0 < p) (hm : NearestEven v p m) (hn : NearestEven v p n) : m = n :=
  le_antisymm (hm.le hp hn) (hn.le hp hm)

/-! ### rne_shift -/

theorem rneShift_wide (hk : 48 ≤ k) : rneShift v k = 0 := if_pos hk

theorem rneShift_narrow (hk : k < 48) :
    rneShift v k = if 2 ^ (k - 1) < v % 2 ^ k ∨ v % 2 ^ k = 2 ^ (k - 1) ∧ v / 2 ^ k % 2 = 1 then v / 2 ^ k + 1 else v / 2 ^ k :=
  if_neg (Nat.not_le.mpr hk)

/-- With the quotient `q` and the remainder `r`, `v` is `r` above `q * 2 ^ k` and `2 ^ k - r` below `(q + 1) * 2 ^ k`. -/
theorem rneShift_narrow_nearestEven (h1 : 1 ≤ k) (hk : k < 48) : NearestEven v (2 ^ k) (rneShift v k) := by
  have hhalf : (2 : Int) * 2 ^ (k - 1) = 2 ^ k := mul_pow_sub_one (by omega) 2
  have hp : (0 : Int) < 2 ^ k := by positivity
  have hdiv := Int.mul_ediv_add_emod v (2 ^ k)
  have hr0 := Int.emod_nonneg v hp.ne'
  have hr := Int.emod_lt_of_pos v hp
  rw [mul_comm] at hdiv
  rw [rneShift_narrow hk]
  split
  case isTrue hup =>
    simp only [NearestEven, add_one_mul]
    omega
  case isFalse hdown =>
    simp only [NearestEven]
    omega

/-- Half of `2 ^ k` is at least every i48's magnitude, so 0 is nearest. -/
theorem zero_nearestEven (hk : 48 ≤ k) (hlow : -(2 ^ 47) ≤ v) (hhigh : v < 2 ^ 47) : NearestEven v (2 ^ k) 0 := by
  have hpow : (2 : Int) ^ 48 ≤ 2 ^ k := pow_le_pow_right₀ (by omega) hk
  simp only [NearestEven, zero_mul]
  omega

theorem rneShift_nearestEven (h1 : 1 ≤ k) (hlow : -(2 ^ 47) ≤ v) (hhigh : v < 2 ^ 47) : NearestEven v (2 ^ k) (rneShift v k) := by
  obtain hk | hk := Nat.lt_or_ge k 48
  · exact rneShift_narrow_nearestEven h1 hk
  · rw [rneShift_wide hk]
    exact zero_nearestEven hk hlow hhigh

theorem rneShift_neg (h1 : 1 ≤ k) : rneShift (-v) k = -rneShift v k := by
  obtain hk | hk := Nat.lt_or_ge k 48
  · exact (rneShift_narrow_nearestEven h1 hk).unique (by positivity) (rneShift_narrow_nearestEven h1 hk).neg
  · rw [rneShift_wide hk, rneShift_wide hk, neg_zero]

/-- Settles O11: below 48 the model's remainder is `v - q * 2 ^ k`; the symmetry is the nearest integer's uniqueness. -/
theorem roundingIsToNearestTiesToEven : Obligations.RoundingIsToNearestTiesToEven := by
  refine ⟨fun v k _ hk => rneShift_wide hk, ?function, fun v k h1 hlow hhigh => rneShift_nearestEven h1 hlow hhigh, fun v k h1 => rneShift_neg h1⟩
  case function =>
    intro v k _ hk q r h
    have hr : v % 2 ^ k = r := by rw [Int.emod_def, mul_comm]
    rw [rneShift_narrow hk, hr, ite_or]

end Sys2Proof.Proofs
end

section
/-! PROOFS. spec/05_churn_reductions_optimizer.md: the cutoff and the conversion of posted frames (R165), the timeouts of a checkpoint
copy at its partner (R176) and at its sender (R177), and the commanded copy (R174). -/

namespace Sys2Proof.Proofs

open Sys2Proof Sys2Proof.Machine Sys2Proof.Laws

variable {s : State} {t rid i n : Nat} {a : Asm} {k : Ack} {x : Step} {mb : Mbx} {body : List Byte} {ups : List Upset}

/-! ### The rows of posted frames and of checkpoint copies -/

theorem exec_postCutoff : exec .postCutoff s = execPostCutoff s := rfl
theorem exec_postConvert : exec (.postConvert t) s = execPostConvert t s := rfl
theorem exec_ckptAssemblyTimeout : exec (.ckptAssemblyTimeout t) s = execCkptAssemblyTimeout t s := rfl
theorem exec_ckptAckTimeout : exec (.ckptAckTimeout rid t) s = execCkptAckTimeout rid t s := rfl
theorem exec_ckptCopy : exec (.ckptCopy mb body ups) s = execCkptCopy mb body ups s := rfl

/-! ### The two timeouts of a checkpoint copy (R176, R177) -/

/-- An assembly that is TIMEOUT ticks old is dropped, and its trailer, where it came, is answered with E_LINK. -/
theorem exec_ckptAssemblyTimeout_due (hon : s.on = true) (ha : s.chrn.asms.find? (fun a => a.tile == t) = some a)
    (hold : a.tick + s.fld F.CHRN_CKPT_CTL_TIMEOUT ≤ s.tk.num) :
    exec (.ckptAssemblyTimeout t) s = .next ((match a.trailer with
      | some c => ckptReply (asmDrop s t) c St.link (churnPort (t % 16))
      | none => asmDrop s t).under s) := by
  rw [exec_ckptAssemblyTimeout, execCkptAssemblyTimeout, hubOnly_on hon]
  simp only [ha]
  exact congrArg (fun u : State => Host.Outcome.next (u.under s)) (if_neg (Nat.not_lt.mpr hold))

theorem ackLate_of_left (hs : k.status = none) (hl : k.left = some n) (hn : n + s.fld F.CHRN_CKPT_CTL_TIMEOUT + 2 ≤ s.tk.num) : ackLate s k = true := by
  simp only [ackLate, hs, hl, hn, Option.isNone_none, decide_true, Bool.and_self]

/-- A late acknowledgement of the tile, whichever entry of the step it is, has the tile counted with E_LINK. -/
theorem exec_ckptAckTimeout_late (hon : s.on = true) (hx : ckptStep s rid none = some x) (hk : k ∈ x.acks) (hl : ackLate s k = true) :
    exec (.ckptAckTimeout rid k.idx) s = .next ((ackTile s x k.idx St.link).under s) := by
  have hany : x.acks.any (fun b => b.idx == k.idx && ackLate s b) = true :=
    List.any_eq_true.mpr ⟨k, hk, by simp only [beq_self_eq_true, hl, Bool.and_self]⟩
  rw [exec_ckptAckTimeout, execCkptAckTimeout, hubOnly_on hon]
  simp only [hx, hany, if_true]

/-- Settles O43: each row past the power gate or the LD's mailbox, then the branch its hypotheses pick. -/
theorem churnTimersAndCheckpointRows : Obligations.ChurnTimersAndCheckpointRows := by
  refine ⟨?cutoff, ?convert, ?assembly, ?acknowledgement, ?copy⟩
  case cutoff =>
    intro s hon
    rw [exec_postCutoff, execPostCutoff, hubOnly_on hon]
    rfl
  case convert =>
    intro s t p hon hp
    rw [exec_postConvert, execPostConvert, hubOnly_on hon]
    simp only [hp]
  case assembly => exact fun s t a hon ha hold => exec_ckptAssemblyTimeout_due hon ha hold
  case acknowledgement =>
    rintro s rid t x k hon hx hk rfl hs ⟨n, hl, hn⟩
    exact exec_ckptAckTimeout_late hon hx hk (ackLate_of_left hs hl hn)
  case copy =>
    intro s i body ups h x a
    rw [exec_ckptCopy, execCkptCopy, mbxOnly_vendor h, mbxIn_ld]
    rfl

end Sys2Proof.Proofs
end

section
/-! PROOFS. spec/06_fabric_ports_and_cells.md: the bytes of a cell and its CCRC (R189, R191 to R193, Table 06-4), and the scrambler of a
port's stream (R183). -/

namespace Sys2Proof.Proofs

open Sys2Proof Sys2Proof.Machine Sys2Proof.Laws

variable {c : Cell} {x : Nat}

/-! ### The CCRC is a 32-bit number (R193) -/

theorem crc32Bit_lt (h : x < 2 ^ 32) : crc32Bit x < 2 ^ 32 := by
  unfold crc32Bit
  split
  · exact Nat.xor_lt_two_pow (by omega) (by decide)
  · omega

theorem crc32Byte_lt (b : Byte) (h : x < 2 ^ 32) : crc32Byte x b < 2 ^ 32 := by
  have hb : b.toNat < 2 ^ 32 := Nat.lt_trans b.isLt (by decide)
  unfold crc32Byte
  iterate 8 apply crc32Bit_lt
  exact Nat.xor_lt_two_pow h hb

theorem foldl_crc32Byte_lt (d : List Byte) (h : x < 2 ^ 32) : d.foldl crc32Byte x < 2 ^ 32 := by
  induction d generalizing x with
  | nil => exact h
  | cons b d ih => exact ih (crc32Byte_lt b h)

theorem crc32c_lt (d : List Byte) : crc32c d < 2 ^ 32 :=
  Nat.xor_lt_two_pow (foldl_crc32Byte_lt d (by decide)) (by decide)

/-! ### The packed words of the header (Table 06-4) -/

theorem b2n_lt (b : Bool) : b2n b < 2 := by cases b <;> decide

theorem b2n_eq_one (b : Bool) : decide (b2n b = 1) = b := by cases b <;> decide

theorem bits_eq (hi lo : Nat) : bits x hi lo = x / 2 ^ lo % 2 ^ (hi + 1 - lo) := rfl

theorem bitOf_eq (n : Nat) : bitOf x n = decide (x / 2 ^ n % 2 = 1) := Nat.testBit_eq_decide_div_mod_eq

/-- Each field of the CTL byte is read where it is put. -/
theorem cellCtl_fields (hv : c.vn < 4) (hc : c.colour < 4) :
    cellCtl c < 256 ∧ bits (cellCtl c) 7 6 = c.vn ∧ bits (cellCtl c) 5 4 = c.colour
      ∧ bitOf (cellCtl c) 3 = c.ce ∧ bitOf (cellCtl c) 2 = c.fwd ∧ bitOf (cellCtl c) 1 = c.last := by
  have h3 := b2n_lt c.ce
  have h2 := b2n_lt c.fwd
  have h1 := b2n_lt c.last
  have hce : cellCtl c / 2 ^ 3 % 2 = b2n c.ce := by unfold cellCtl; omega
  have hfwd : cellCtl c / 2 ^ 2 % 2 = b2n c.fwd := by unfold cellCtl; omega
  have hlast : cellCtl c / 2 ^ 1 % 2 = b2n c.last := by unfold cellCtl; omega
  refine ⟨?_, ?_, ?_, ?_, ?_, ?_⟩
  · unfold cellCtl; omega
  · rw [bits_eq]; unfold cellCtl; omega
  · rw [bits_eq]; unfold cellCtl; omega
  · rw [bitOf_eq, hce, b2n_eq_one]
  · rw [bitOf_eq, hfwd, b2n_eq_one]
  · rw [bitOf_eq, hlast, b2n_eq_one]

/-- Each field of the LINK word is read where it is put. -/
theorem cellLink_fields (ha : c.ack < 2 ^ 12) (hv : c.cvn < 4) (hn : c.ccnt < 2 ^ 16) :
    cellLink c < 2 ^ 32 ∧ bits (cellLink c) 31 20 = c.ack ∧ bits (cellLink c) 19 18 = c.cvn ∧ bits (cellLink c) 17 2 = c.ccnt := by
  simp only [bits_eq, cellLink]
  omega

/-! ### The bytes of a cell (R189) -/

theorem cellHead_length (c : Cell) : (cellHead c).length = 28 := by simp [cellHead]

theorem cellPay_of_full (h : c.payload.length = 256) : cellPay c = c.payload := slice_all h

/-- The bytes of a cell, each field in front of the fields that follow it. -/
theorem cellBytes_fields (c : Cell) : cellBytes c =
    natLe 1 c.ty ++ (natLe 1 (cellCtl c) ++ (natLe 2 c.dst ++ (natLe 2 c.src ++ (natLe 1 c.dstEp ++ (natLe 1 c.srcEp ++ (natLe 8 c.addr
    ++ (natLe 2 c.tag ++ (natLe 2 c.txn ++ (natLe 2 c.epoch ++ (natLe 1 c.opx ++ (natLe 1 c.len ++ (natLe 4 (cellLink c)
    ++ (natLe 4 (cellCcrc c) ++ cellPay c))))))))))))) := by
  simp only [cellBytes, cellHead, List.append_assoc]

theorem cellBytes_length (c : Cell) : (cellBytes c).length = 288 := by simp [cellBytes, cellHead_length, cellPay]

theorem slice_cellBytes_head (c : Cell) : slice (cellBytes c) 0 28 = cellHead c := by
  unfold cellBytes
  rw [List.append_assoc, slice_first (cellHead_length c)]

theorem slice_cellBytes_payload (c : Cell) : slice (cellBytes c) 32 256 = cellPay c := by
  unfold cellBytes
  rw [slice_skip (by simp [cellHead_length])]
  simp [cellHead_length, slice_all, cellPay]

/-- The CCRC that a cell carries is the one its receiver computes (R193). -/
theorem ccrcOk_cellBytes (c : Cell) : ccrcOk (cellBytes c) = true := by
  have hstored : getLE (cellBytes c) 28 4 = cellCcrc c := by
    rw [cellBytes_fields]
    simp only [getLE_skip, Nat.reduceLeDiff, Nat.reduceSub, getLE_first]
    exact Nat.mod_eq_of_lt (crc32c_lt _)
  rw [ccrcOk, hstored, slice_cellBytes_head, slice_cellBytes_payload, beq_iff_eq]
  rfl

/-- A receiver reads every field as it was sent (R191). -/
theorem cellOfBytes_cellBytes (hc : c.wf = true) (hp : c.payload.length = 256) : cellOfBytes (cellBytes c) = c := by
  simp only [Cell.wf, Bool.and_eq_true, decide_eq_true_eq, Nat.reducePow] at hc
  obtain ⟨⟨⟨⟨⟨⟨⟨⟨⟨⟨⟨⟨⟨⟨⟨⟨hty, hvn⟩, hcol⟩, hdst⟩, hsrc⟩, hdstEp⟩, hsrcEp⟩, haddr⟩, htag⟩, htxn⟩, hepoch⟩, hopx⟩, hlen⟩, hack⟩, hcvn⟩, hccnt⟩, -⟩ := hc
  obtain ⟨hctl, hv, hco, hce, hfwd, hlast⟩ := cellCtl_fields hvn hcol
  obtain ⟨hlink, ha, hcv, hcc⟩ := cellLink_fields hack hcvn hccnt
  have hpay : slice (cellBytes c) 32 256 = c.payload := by rw [slice_cellBytes_payload, cellPay_of_full hp]
  simp only [Nat.reducePow] at hlink
  rw [cellOfBytes, hpay, cellBytes_fields]
  simp only [getLE_skip, getLE_first, Nat.reduceLeDiff, Nat.reduceSub, Nat.reducePow, pow_one, le_refl, Nat.sub_self, Nat.mod_eq_of_lt, *]

/-- Settles O12: each field stands at its own bytes, and the CCRC lies within its 4 bytes. -/
theorem cellsReadBackFromTheirBytes : Obligations.CellsReadBackFromTheirBytes :=
  fun c hc hp => ⟨cellBytes_length c, cellOfBytes_cellBytes hc hp, ccrcOk_cellBytes c⟩

/-! ### The scrambler (R183) -/

/-- A bit scrambled twice over the same history is itself. -/
theorem scrBit_scrBit (h : List Bool) (b : Bool) : scrBit h (scrBit h b) = b := by
  simp [scrBit]

theorem scramble_length (h l : List Bool) : (scramble h l).1.length = l.length := by
  induction l generalizing h with
  | nil => rfl
  | cons b l ih => simp only [scramble, List.length_cons, ih]

/-- The descrambler's history is the bits received, which are the bits that the scrambler remembers. -/
theorem descramble_scramble (h l : List Bool) : descramble h (scramble h l).1 = (l, (scramble h l).2) := by
  induction l generalizing h with
  | nil => rfl
  | cons b l ih => simp only [scramble, descramble, ih, scrBit_scrBit]

theorem bytesBits_length (l : List Byte) : (bytesBits l).length = 8 * l.length := by
  simp [bytesBits, List.length_flatMap, Nat.mul_comm]

/-- Settles O14: descrambler and scrambler keep the same history (which histories a port holds is no row's matter: log 14, DESIGN CHOICE). -/
theorem descramblingUndoesScrambling : Obligations.DescramblingUndoesScrambling := by
  refine ⟨fun h l => ⟨descramble_scramble h l, scramble_length h l⟩, fun h data l hl => ⟨?_, rfl, descramble_scramble h _⟩⟩
  simp only [blockBits, List.length_cons, scramble_length, bytesBits_length, hl]

end Sys2Proof.Proofs
end

section
/-! PROOFS. spec/06_fabric_ports_and_cells.md: the rows that carry one cell (R192, R194, R205), at the cell's home or on its way (R219,
R220 of spec/07). -/

namespace Sys2Proof.Proofs

open Sys2Proof Sys2Proof.Machine Sys2Proof.Laws

variable {s u : State} {f : State → State} {g : Cell → State → State} {inp : Nat} {c a : Cell} {i : Instr}

/-! ### A cell at its port -/

/-- A row whose cell is bound elsewhere sends it on by the route table. -/
theorem arriveHere_away (h : ingress s inp c = (some a, u)) (hr : routeOf u a ≠ .here) : arriveHere g inp c s = sendFrom u inp a := by
  unfold arriveHere
  rw [h]
  cases hu : routeOf u a with
  | here => exact absurd hu hr
  | ext p => simp only [hu]
  | lost => simp only [hu]

section
variable (he : exec i s = hubOnly (arriveHere g inp c) s)
include he

theorem exec_arriveHere_here (h : cellHere s inp c a u) : exec i s = .next ((giveBack (g a u) inp a.vn).under s) := by
  obtain ⟨⟨hon, hin⟩, hr⟩ := h
  rw [he, hubOnly_on hon, arriveHere_here hin hr]
theorem exec_arriveHere_away (h : cellTaken s inp c a u) (hr : routeOf u a ≠ .here) : exec i s = .next ((sendFrom u inp a).under s) := by
  obtain ⟨hon, hin⟩ := h
  rw [he, hubOnly_on hon, arriveHere_away hin hr]
theorem exec_arriveHere_dropped (hon : s.on = true) (h : ingress s inp c = (none, u)) : exec i s = .next (u.under s) := by
  rw [he, hubOnly_on hon, arriveHere_drop h]
end

/-! ### The rows of one cell -/

/-- A row that carries one cell of a type: its command, the type, and what its unit does with the cell at its home. -/
abbrev CellRow : Type := (Nat → Cell → Instr) × Nat × (Nat → Cell → State → State)

/-- The row performs its cell at the cell's home, and does what its unit does to a cell of its type. -/
def CellRow.AtHome (r : CellRow) : Prop :=
  ∃ g : Nat → Cell → State → State, (∀ inp c s, exec (r.1 inp c) s = hubOnly (arriveHere (g inp) inp c) s) ∧ ∀ inp a u, a.ty = r.2.1 → g inp a u = r.2.2 inp a u

/-- A row that passes a cell of its own type alone to its unit. -/
theorem CellRow.atHome_of_type {e : Nat → Cell → Instr} {ty : Nat} {f : Nat → Cell → State → State}
    (he : ∀ inp c s, exec (e inp c) s = hubOnly (arriveHere (fun a u => if a.ty = ty then f inp a u else u) inp c) s) : CellRow.AtHome (e, ty, f) :=
  ⟨fun inp a u => if a.ty = ty then f inp a u else u, he, fun _ _ _ hty => if_pos hty⟩
/-- The rows of checkpoint cells write the same test the other way round. -/
theorem CellRow.atHome_of_not_type {e : Nat → Cell → Instr} {ty : Nat} {f : Nat → Cell → State → State}
    (he : ∀ inp c s, exec (e inp c) s = hubOnly (arriveHere (fun a u => if a.ty ≠ ty then u else f inp a u) inp c) s) : CellRow.AtHome (e, ty, f) :=
  ⟨fun inp a u => if a.ty ≠ ty then u else f inp a u, he, fun _ _ _ hty => if_neg (not_not.mpr hty)⟩

/-- The rows that carry one cell, but for the two reductions, whose buffer the pail may hold. (Lean's compiler has no tag for so late a
constructor of `Instr`, hence `noncomputable`.) -/
noncomputable def cellRows : List CellRow :=
  [(.read, 0x01, requestHere), (.write, 0x02, requestHere), (.atomic, 0x03, requestHere), (.readRsp, 0x11, fun _ c s => rspTake c s),
    (.writeRsp, 0x12, fun _ c s => rspTake c s), (.atomicRsp, 0x13, fun _ c s => rspTake c s),
    (.notice, 0x32, fun _ c s => s.emit (.event "NOTICE" ((slice c.payload 0 64).map (fun b => b.toNat)))), (.crdS, 0x40, fun inp c s => pump (acceptCell inp c s)),
    (.crdE, 0x41, fun inp c s => pump (acceptCell inp c s)), (.cupg, 0x42, fun inp c s => pump (acceptCell inp c s)), (.cwb, 0x43, fun inp c s => pump (acceptCell inp c s)),
    (.csnpRsp, 0x4A, fun _ c s => wake (csnpRsp c s)), (.ckptData, 0x22, fun _ c s => ckptDataTake c s), (.ckptAck, 0x14, fun _ c s => ckptAckTake c s),
    (.ember, 0x31, fun _ c s => emberTake c s)]

theorem cellRows_atHome : ∀ r ∈ cellRows, CellRow.AtHome r := by
  simp only [cellRows, List.forall_mem_cons, List.not_mem_nil, false_imp_iff, implies_true, and_true]
  refine ⟨?read, ?write, ?atomic, ?readRsp, ?writeRsp, ?atomicRsp, ?notice, ?crdS, ?crdE, ?cupg, ?cwb, ?csnpRsp, ?ckptData, ?ckptAck, ?ember⟩
  case ckptData | ckptAck => exact CellRow.atHome_of_not_type fun _ _ _ => rfl
  case ember => exact ⟨fun _ => emberTake, fun _ _ _ => rfl, fun _ _ _ _ => rfl⟩
  all_goals exact CellRow.atHome_of_type fun _ _ _ => rfl

/-! ### The reductions -/

theorem exec_reduce : exec (.reduce inp c) s = execReduce inp c s := rfl
theorem exec_postedReduce : exec (.postedReduce inp c) s = execPostedReduce inp c s := rfl

/-- A reduction with a RID at its home may complete an engine's frame, for which other cells are held back (R160). -/
theorem exec_reduce_here (h : cellHere s inp c a u) (hty : a.ty = 0x20) (hrid : getLE a.payload 0 2 ≠ 0) :
    exec (.reduce inp c) s = .next ((retryVn2 (vn2Cell u inp a u.time)).under s) := by
  obtain ⟨⟨hon, hin⟩, hr⟩ := h
  rw [exec_reduce, execReduce, hubOnly_on hon]
  simp only [hin]
  rw [if_pos ⟨hr, hty, hrid⟩]

theorem exec_postedReduce_here (h : cellHere s inp c a u) (hty : a.ty = 0x20) (hrid : getLE a.payload 0 2 = 0) :
    exec (.postedReduce inp c) s = .next ((vn2Cell u inp a u.time).under s) := by
  obtain ⟨⟨hon, hin⟩, hr⟩ := h
  rw [exec_postedReduce, execPostedReduce, hubOnly_on hon]
  simp only [hin]
  rw [if_pos ⟨hr, hty, hrid⟩]

/-- Settles O40: one lemma over the rows, whose three cases are the route's and the port's. -/
theorem cellsActAtTheirHomeOrGoOn : Obligations.CellsActAtTheirHomeOrGoOn := by
  refine ⟨?here, ?away, ?dropped, fun s u inp c a h hty hrid => exec_reduce_here h hty hrid, fun s u inp c a h hty hrid => exec_postedReduce_here h hty hrid⟩
  case here =>
    intro r hmem s u inp c a h hty
    obtain ⟨g, he, hg⟩ := cellRows_atHome r hmem
    rw [exec_arriveHere_here (he inp c s) h, hg inp a u hty]
  case away =>
    intro r hmem s u inp c a h hr
    obtain ⟨g, he, -⟩ := cellRows_atHome r hmem
    exact exec_arriveHere_away (he inp c s) h hr
  case dropped =>
    intro r hmem s u inp c hon h
    obtain ⟨g, he, -⟩ := cellRows_atHome r hmem
    exact exec_arriveHere_dropped (he inp c s) hon h

end Sys2Proof.Proofs
end

section
/-! PROOFS. spec/07_switch_core.md: a cell enters the switch core (R219, R220), the cell time (R225), multicast stores (R229) and the
skimmer's issue (R235); spec/06_fabric_ports_and_cells.md: the bound of a response (R203) and ABORT (R208). -/

namespace Sys2Proof.Proofs

open Sys2Proof Sys2Proof.Machine Sys2Proof.Laws

variable {s u v w : State} {inp p txn g id : Nat} {c a : Cell} {pl : Place} {r : Req} {e : Skim} {t : Txn}

/-! ### The rows -/

theorem exec_switchCellArrive : exec (.switchCellArrive inp c) s = execSwitchCellArrive inp c s := rfl
theorem exec_switchMatch : exec .switchMatch s = execSwitchMatch s := rfl
theorem exec_skimIssue : exec (.skimIssue g) s = execSkimIssue g s := rfl
theorem exec_reqTimeout : exec (.reqTimeout txn) s = execReqTimeout txn s := rfl
theorem exec_mcastStore : exec (.mcastStore inp c) s = execMcastStore inp c s := rfl
theorem exec_abort : exec (.abort inp c) s = execAbort inp c s := rfl

/-- A cell that the port has taken in enters the switch core. -/
theorem exec_switchCellArrive_taken (h : cellTaken s inp c a u) : exec (.switchCellArrive inp c) s = .next ((switchIn inp a u).under s) := by
  obtain ⟨hon, hin⟩ := h
  rw [exec_switchCellArrive, execSwitchCellArrive, hubOnly_on hon]
  simp only [switchArrive, hin]

/-! ### Entering the switch core (R219, R220) -/

/-- A request cell, which the ingress stage translates where a tenant sent it. -/
abbrev IsRequest (c : Cell) : Prop := (1 ≤ c.ty ∧ c.ty ≤ 3) ∨ isCoh c.ty = true

/-- A request cell is none of the types that have a way of their own. -/
theorem IsRequest.not_special (h : IsRequest a) : a.ty ∉ [0x20, 0x21, 0x22, 0x30, 0x33] := by
  simp only [IsRequest, isCoh, Bool.and_eq_true, decide_eq_true_eq] at h
  simp only [List.mem_cons, List.not_mem_nil, or_false]
  omega

/-- A cell of none of the special types takes the way of the route table. -/
theorem not_special_way (hty : a.ty ∉ [0x21, 0x30, 0x33]) : ¬ a.ty = 0x21 ∧ ¬ (a.ty = 0x30 ∨ a.ty = 0x33) := by
  simpa only [List.mem_cons, List.not_mem_nil, or_false, not_or] using hty

theorem switchIn_ext (hty : a.ty ∉ [0x21, 0x30, 0x33]) (hr : routeOf u a = .ext p) :
    switchIn inp a u = enqueue (newCellId (slotOf u a).2).2 inp p (slotOf u a).1 a (newCellId (slotOf u a).2).1 := by
  obtain ⟨hmcast, hhost⟩ := not_special_way hty
  rw [switchIn, if_neg hmcast, if_neg hhost, hr]
theorem switchIn_here (hty : a.ty ∉ [0x21, 0x30, 0x33]) (hr : routeOf u a = .here) : switchIn inp a u = cellIn inp a u := by
  obtain ⟨hmcast, hhost⟩ := not_special_way hty
  rw [switchIn, if_neg hmcast, if_neg hhost, hr]
theorem switchIn_lost (hty : a.ty ∉ [0x21, 0x30, 0x33]) (hr : routeOf u a = .lost) : switchIn inp a u = unroutable u inp a := by
  obtain ⟨hmcast, hhost⟩ := not_special_way hty
  rw [switchIn, if_neg hmcast, if_neg hhost, hr]

/-- A tick cell or an ABORT goes to the HOST port, whatever its destination (log 79, DESIGN CHOICE). -/
theorem switchIn_hostPort (hty : a.ty = 0x30 ∨ a.ty = 0x33) : switchIn inp a u = queueHere inp a none u := by
  rw [switchIn, if_neg (by omega), if_pos hty]

/-- A tenant's request for this hub is translated at the ingress stage. -/
theorem switchIn_request (hq : IsRequest a) (htag : a.tag ≠ 0xFFFF) (hr : routeOf u a = .here) : switchIn inp a u = requestIn inp a u := by
  have hns := hq.not_special
  rw [switchIn_here (by simp_all) hr, cellIn, if_pos ⟨hq, htag⟩]

/-- A VN2 cell for this hub, but a multicast store. -/
theorem switchIn_vn2 (hty : a.ty = 0x20 ∨ a.ty = 0x22) (hr : routeOf u a = .here) : switchIn inp a u = vn2In inp a u := by
  have hnq : ¬ IsRequest a := fun hq => hq.not_special (by rcases hty with h | h <;> simp [h])
  rw [switchIn_here (by rcases hty with h | h <;> simp [h]) hr, cellIn, if_neg (fun h => hnq h.1), if_pos hty]

/-- Any other cell for this hub joins the queue of its unit. -/
theorem switchIn_unit (hty : a.ty ∉ [0x20, 0x21, 0x22]) (hn : a.tag = 0xFFFF ∨ ¬ IsRequest a) (hr : routeOf u a = .here) :
    switchIn inp a u = queueHere inp a none u := by
  simp only [List.mem_cons, List.not_mem_nil, or_false, not_or] at hty
  obtain ⟨hred, hmcast, hckpt⟩ := hty
  by_cases hh : a.ty = 0x30 ∨ a.ty = 0x33
  · exact switchIn_hostPort hh
  · rw [switchIn_here (by simp_all) hr, cellIn, if_neg (fun h => hn.elim h.2 (· h.1)), if_neg (not_or.mpr ⟨hred, hckpt⟩)]

/-! ### Multicast stores (R229) -/

/-- A cell from an external port holds an entry already; one from an internal port finds one, with no cell of its unit waiting. -/
def Enters (v : State) (inp : Nat) (a : Cell) : Prop := inp < 26 ∨ (v.fab.unsent.any (fun x => x.unit == inp) = false ∧ hasEntry v inp a = true)

/-- The cell enters exactly where it need not wait for an entry. -/
theorem enters_iff : Enters v inp a ↔ ¬ (26 ≤ inp ∧ (v.fab.unsent.any (fun x => x.unit == inp) = true ∨ (!hasEntry v inp a) = true)) := by
  rw [Enters, not_and_or, Nat.not_le, not_or, Bool.not_eq_true, Bool.not_eq_true', Bool.not_eq_false]

theorem exec_mcastStore_taken (h : cellTaken s inp c a u) (hty : a.ty = 0x21) :
    exec (.mcastStore inp c) s = .next ((send (newCellId u).2 { id := (newCellId u).1, unit := inp, c := a }).under s) := by
  obtain ⟨hon, hin⟩ := h
  rw [exec_mcastStore, execMcastStore, hubOnly_on hon]
  simp only [hin]
  rw [sendFrom, if_pos hty]
  rfl

/-- A multicast store that enters is replicated by its group. -/
theorem send_mcast (hty : a.ty = 0x21) (he : Enters v inp a) : send v { id := id, unit := inp, c := a } = replicate v { id := id, unit := inp, c := a } := by
  rw [send, if_neg (enters_iff.mp he)]
  exact if_pos hty
/-- One that finds no entry waits. -/
theorem send_waits (he : ¬ Enters v inp a) :
    send v { id := id, unit := inp, c := a } = { v with fab := { v.fab with unsent := v.fab.unsent ++ [{ id := id, unit := inp, c := a }] } } := by
  rw [send, if_pos (not_not.mp (enters_iff.not.mp he))]

/-- An invalid group, or one of another tag, drops the cell. -/
theorem replicate_dropped (h : bitOf (groupGet v a.txn) 47 = false ∨ bits (groupGet v a.txn) 63 48 ≠ a.tag) :
    replicate v { id := id, unit := inp, c := a } = giveBack ((v.bump F.SWX_MCAST_DROP_COUNT).onceTick 0x0411 a.txn [a.txn]) inp a.vn :=
  if_pos (h.imp_left (Bool.not_eq_true' _).mpr)

/-- Where a group sends a cell: its UP ports but the cell's own, and with LOCAL set the cell's gateway. -/
def groupPorts (v : State) (inp : Nat) (a : Cell) (group : Nat) : List Nat :=
  (List.range 26).filter (fun n => bitOf group n && portUp v n && n != inp) ++ (if bitOf group 46 = true then [gatewayOf v a] else [])
/-- A copy of a cell for each of these places. -/
def copies (v : State) (inp slot id : Nat) (a : Cell) (l : List Nat) : State :=
  l.foldl (fun s n => enqueueCopy false s (qcell s inp n slot a id)) v

/-- A valid group of the cell's tag replicates the cell; where no copy was queued its entry is free again. -/
theorem replicate_group (hv : bitOf (groupGet v a.txn) 47 = true) (ht : bits (groupGet v a.txn) 63 48 = a.tag)
    (hw : copies (slotOf v a).2 inp (slotOf v a).1 id a (groupPorts (slotOf v a).2 inp a (groupGet v a.txn)) = w) :
    replicate v { id := id, unit := inp, c := a } = if w.fab.voq.any (fun y => y.id == id) = true then w else giveBack w inp a.vn := by
  have hneg : ¬ ((!bitOf (groupGet v a.txn) 47) = true ∨ bits (groupGet v a.txn) 63 48 ≠ a.tag) := by simp [hv, ht]
  subst hw
  exact if_neg hneg

/-! ### The skimmer's issue (R235), the bound of a response (R203), ABORT (R208) -/

theorem exec_skimIssue_picked (hon : s.on = true) (h : skimPick s (31 + g % 2) = (some e, u)) :
    exec (.skimIssue g) s = .next ((wake (pump ((skimsSet u (u.fab.skims.erase e)).atTime e.time (carryOut e.inp e.c e.place e.riders)))).under s) := by
  rw [exec_skimIssue, execSkimIssue, hubOnly_on hon, skimIssue, h]

theorem exec_reqTimeout_outstanding (hon : s.on = true) (h : s.fab.txns.find? (fun t => t.txn == txn) = some t) :
    exec (.reqTimeout txn) s = .next ((wake (pump (txnEnd
      (({ s with time := max s.time t.deadline, fab := { s.fab with txns := s.fab.txns.erase t, late := s.fab.late ++ [t.txn] } } : State).bump
        F.FAB_TIMEOUT_COUNT_TIMEOUTS |>.onceTick 0x0406 t.dst [t.dst]) t St.link 0 []))).under s) := by
  rw [exec_reqTimeout, execReqTimeout, hubOnly_on hon]
  simp only [h]
  rfl

theorem exec_abort_taken (h : cellTaken s inp c a u) : exec (.abort inp c) s = .next ((giveBack (abortTake inp a u) inp a.vn).under s) := by
  obtain ⟨hon, hin⟩ := h
  rw [exec_abort, execAbort, hubOnly_on hon, arrive_taken hin]

/-- Settles O41: each cell past its port, then the branch of the switch core that its type and its route pick. -/
theorem switchArrivalsMatchingAndTimeouts : Obligations.SwitchArrivalsMatchingAndTimeouts := by
  refine ⟨?toPort, ?here, ?away, ?toUnit, ?vn2, fun _ _ _ _ => rfl, ?lost, ?cellTime, ?issue, ?timeout, ?dropped, ?replicated, ?waits, fun s u inp c a h => exec_abort_taken h⟩
  case toPort =>
    intro s u inp p c a h hty hr
    rw [exec_switchCellArrive_taken h, switchIn_ext hty hr]
  case here =>
    intro s u inp c a p r h hq htag hr hv
    rw [exec_switchCellArrive_taken h, switchIn_request hq htag hr, requestIn, hv]
  case away =>
    intro s u inp c a p r h hq htag hr hv
    rw [exec_switchCellArrive_taken h, switchIn_request hq htag hr, requestIn, hv]
  case toUnit =>
    intro s u inp c a h hty hn
    rw [exec_switchCellArrive_taken h]
    obtain htick | habort | ⟨hr, hn⟩ := hn
    · rw [switchIn_hostPort (.inl htick)]
    · rw [switchIn_hostPort (.inr habort)]
    · rw [switchIn_unit hty hn hr]
  case vn2 =>
    intro s u inp c a h hty hr
    rw [exec_switchCellArrive_taken h, switchIn_vn2 hty hr]
  case lost =>
    intro s u inp c a h hty hr
    rw [exec_switchCellArrive_taken h, switchIn_lost hty hr]
  case cellTime =>
    intro s hon
    rw [exec_switchMatch, execSwitchMatch, hubOnly_on hon]
  case issue =>
    intro s u g e hon h
    rw [exec_skimIssue_picked hon h, skimsSet]
  case timeout => exact fun s txn t hon h => exec_reqTimeout_outstanding hon h
  case dropped =>
    intro s u inp c a h hty v he hg
    have hgroup : groupGet v a.txn = groupGet u a.txn := rfl
    rw [← hgroup] at hg
    rw [exec_mcastStore_taken h hty, send_mcast hty he, replicate_dropped hg]
  case replicated =>
    intro s u inp c a h hty v he hg ht x w
    have hgroup : groupGet v a.txn = groupGet u a.txn := rfl
    rw [← hgroup] at hg ht
    rw [exec_mcastStore_taken h hty, send_mcast hty he, replicate_group hg ht rfl]
    rfl
  case waits =>
    intro s u inp c a h hty v he
    rw [exec_mcastStore_taken h hty, send_waits he]

end Sys2Proof.Proofs
end

section
/-! PROOFS. spec/06_fabric_ports_and_cells.md: the bring-up, recovery and loss of a port (R185 to R188, Table 06-1). -/

namespace Sys2Proof.Proofs

open Sys2Proof Sys2Proof.Machine Sys2Proof.Laws

variable {s : State} {n k l : Nat} {g : Neg} {st : PState}

/-! ### The rows -/

theorem exec_portDetectDone : exec (.portDetectDone n) s = execPortDetectDone n s := rfl
theorem exec_portTrainDone : exec (.portTrainDone n) s = execPortTrainDone n s := rfl
theorem exec_portLockDone : exec (.portLockDone n k) s = execPortLockDone n k s := rfl
theorem exec_portNegotiateDone : exec (.portNegotiateDone n) s = execPortNegotiateDone n s := rfl
theorem exec_portStageTimeout : exec (.portStageTimeout n l) s = execPortStageTimeout n l s := rfl
theorem exec_portDownWait : exec (.portDownWait n) s = execPortDownWait n s := rfl
theorem exec_recoverTimeout : exec (.recoverTimeout n) s = execRecoverTimeout n s := rfl
theorem exec_laneLockLost : exec (.laneLockLost n l) s = execLaneLockLost n l s := rfl

/-! ### The stage a port is in (R188) -/

theorem stageOf_of_recover (h : (portGet s n).state = .recover) : stageOf (portGet s n) = (portGet s n).stage := if_pos h
theorem stageOf_of_not_recover (h : (portGet s n).state ≠ .recover) : stageOf (portGet s n) = (portGet s n).state := if_neg h

/-- A stage of a port that does not recover is its state; in a recovery it is kept beside the state. -/
theorem toStage_eq (st : PState) :
    toStage s n st = portSet s n (if (portGet s n).state = .recover then { portGet s n with stage := st } else { portGet s n with state := st, since := s.time }) :=
  (apply_ite (portSet s n) _ _ _).symm
theorem toStage_of_not_recover (h : (portGet s n).state ≠ .recover) : toStage s n st = portSet s n { portGet s n with state := st, since := s.time } := if_neg h

/-! ### DETECT, TRAIN and LOCK (R185, R186) -/

theorem exec_portDetectDone_detect (hon : s.on = true) (hn : n < 26) (h : (portGet s n).state = .detect) :
    exec (.portDetectDone n) s = .next ((portSet s n { portGet s n with state := .train, since := s.time }).under s) := by
  rw [exec_portDetectDone, execPortDetectDone, hubOnly_on hon, if_pos ⟨hn, h⟩, toStage_of_not_recover (by rw [h]; decide)]

theorem exec_portTrainDone_train (hon : s.on = true) (hn : n < 26) (h : stageOf (portGet s n) = .train) :
    exec (.portTrainDone n) s = .next ((sendLanes (toStage s n .lock) n).under s) := by
  rw [exec_portTrainDone, execPortTrainDone, hubOnly_on hon, if_pos ⟨hn, h⟩]

/-- Before every lane has been identified LOCK does not end. -/
theorem exec_portLockDone_missing (hon : s.on = true) (h : lanesMissing (portGet s n) ≠ 0) : exec (.portLockDone n k) s = .next s := by
  rw [exec_portLockDone, execPortLockDone, hubOnly_on hon, if_pos (.inr (.inr h))]
  rfl

section
variable (hon : s.on = true) (hn : n < 26) (h : stageOf (portGet s n) = .lock) (hl : lanesMissing (portGet s n) = 0)
include hon hn h hl

/-- With every lane identified the skew decides. -/
theorem exec_portLockDone_locked :
    exec (.portLockDone n k) s = .next ((if 8 < k ∨ 8 < counterSkew (portGet s n) then stageFail s n 0x0404 [255] else
      let u := if (portGet s n).state = .recover then s else grantNow s n
      let t := toStage (portSet u n { portGet u n with lanes := 255, neg := none, negSame := 0, negAcked := false }) n .negotiate
      t.emit (.block n (negBlock t n))).under s) := by
  have hgo : ¬ (n ≥ 26 ∨ stageOf (portGet s n) ≠ .lock ∨ lanesMissing (portGet s n) ≠ 0) := by simp [h, hl, hn]
  rw [exec_portLockDone, execPortLockDone, hubOnly_on hon, if_neg hgo]

theorem exec_portLockDone_skewed (hk : 8 < k ∨ 8 < counterSkew (portGet s n)) : exec (.portLockDone n k) s = .next ((stageFail s n 0x0404 [255]).under s) := by
  rw [exec_portLockDone_locked hon hn h hl, if_pos hk]

/-- A bring-up fixes the credits granted; a recovery keeps them (R200). -/
theorem exec_portLockDone_aligned (hk : k ≤ 8) (hs : counterSkew (portGet s n) ≤ 8) {u : State} (hu : (if (portGet s n).state = .recover then s else grantNow s n) = u) :
    let t := toStage (portSet u n { portGet u n with lanes := 255, neg := none, negSame := 0, negAcked := false }) n .negotiate
    exec (.portLockDone n k) s = .next (({ t with out := .block n (negBlock t n) :: t.out } : State).under s) := by
  subst hu
  rw [exec_portLockDone_locked hon hn h hl, if_neg (not_or.mpr ⟨Nat.not_lt.mpr hk, Nat.not_lt.mpr hs⟩)]
  rfl
end

/-! ### NEGOTIATE (R187, R188) -/

section
variable (hon : s.on = true) (hn : n < 26) (hg : (portGet s n).neg = some g) (hs : 2 ≤ (portGet s n).negSame) (ha : (portGet s n).negAcked = true)
include hon hn hg hs ha

/-- Two identical NEG blocks and one with ACKED end the negotiation: whether the peer fits decides. -/
theorem exec_portNegotiateDone_agreed (h : stageOf (portGet s n) = .negotiate) :
    exec (.portNegotiateDone n) s = .next ((if peerFits s n g = true then
        if (portGet s n).state = .negotiate then portUpFrom s n g
        else resend (portSet s n { ackPort (portGet s n) g.rxNext with state := .up, since := s.time, peer := some g, neg := none, negSame := 0, negAcked := false, nakWait := false }) n
      else stageFail s n 0x0405 []).under s) := by
  have hgo : ¬ ((portGet s n).negSame < 2 ∨ (!(portGet s n).negAcked) = true ∨ stageOf (portGet s n) ≠ .negotiate) :=
    not_or.mpr ⟨Nat.not_lt.mpr hs, not_or.mpr ⟨by simp [ha], not_not.mpr h⟩⟩
  rw [exec_portNegotiateDone, execPortNegotiateDone, hubOnly_on hon, if_pos hn, negotiateDone]
  simp only [hg]
  rw [if_neg hgo]
  cases peerFits s n g <;> rfl

theorem exec_portNegotiateDone_bringUp (h : (portGet s n).state = .negotiate) :
    exec (.portNegotiateDone n) s = .next ((if peerFits s n g = true then portUpFrom s n g else portFail s n 0x0405 []).under s) := by
  have hr : (portGet s n).state ≠ .recover := by rw [h]; decide
  rw [exec_portNegotiateDone_agreed hon hn hg hs ha ((stageOf_of_not_recover hr).trans h), if_pos h, stageFail, if_neg hr]

theorem exec_portNegotiateDone_recovered (h : (portGet s n).state = .recover) (hst : (portGet s n).stage = .negotiate) :
    exec (.portNegotiateDone n) s = .next ((if peerFits s n g = true then
      resend (portSet s n { ackPort (portGet s n) g.rxNext with state := .up, since := s.time, peer := some g, neg := none, negSame := 0, negAcked := false, nakWait := false }) n
      else stageFail s n 0x0405 []).under s) := by
  have hup : ¬ (portGet s n).state = .negotiate := by rw [h]; decide
  rw [exec_portNegotiateDone_agreed hon hn hg hs ha ((stageOf_of_recover h).trans hst), if_neg hup]
end

/-! ### Bounds, DOWN, and the loss of lock (R185, R188) -/

/-- The bound of a stage of bring-up (Table 06-1). -/
def stageBound : PState → Nat
  | .detect => ms 100
  | .train => ms 20
  | _ => ms 1

theorem exec_portStageTimeout_early (hon : s.on = true) (hn : n < 26) (h : (portGet s n).state ∈ [PState.detect, .train, .lock]) :
    exec (.portStageTimeout n l) s = .next ((portFail { s with time := max s.time ((portGet s n).since + stageBound (portGet s n).state) } n 0x0404 [l]).under s) := by
  rw [exec_portStageTimeout, execPortStageTimeout, hubOnly_on hon, if_neg (Nat.not_le.mpr hn)]
  simp only [List.mem_cons, List.not_mem_nil, or_false] at h
  obtain h | h | h := h <;> simp only [h, stageBound, State.upTo]

theorem exec_portStageTimeout_negotiate (hon : s.on = true) (hn : n < 26) (h : (portGet s n).state = .negotiate) :
    exec (.portStageTimeout n l) s = .next ((portFail { s with time := max s.time ((portGet s n).since + ms 1) } n 0x0405 []).under s) := by
  rw [exec_portStageTimeout, execPortStageTimeout, hubOnly_on hon, if_neg (Nat.not_le.mpr hn)]
  simp only [h, State.upTo]

theorem exec_portDownWait_enabled (hon : s.on = true) (hn : n < 26) (h : (portGet s n).state = .down) (he : s.flag (F.FAB_PORT_CTL_EN n) = true) (hm : mayEnable s n = true) :
    exec (.portDownWait n) s = .next ((portEnter { s with time := max s.time ((portGet s n).since + ms 100) } n .detect).under s) := by
  rw [exec_portDownWait, execPortDownWait, hubOnly_on hon, if_pos ⟨hn, h, he, hm⟩, State.upTo]

theorem exec_recoverTimeout_recover (hon : s.on = true) (hn : n < 26) (h : (portGet s n).state = .recover) :
    exec (.recoverTimeout n) s = .next ((portLost { s with time := max s.time ((portGet s n).since + ms (s.fld F.FAB_LINK_CTL_HOLD)) } n .down).under s) := by
  rw [exec_recoverTimeout, execRecoverTimeout, hubOnly_on hon, if_pos ⟨hn, h⟩, State.upTo]

/-- A port that finds a cause of recovery itself tells its peer by a RETRAIN block (log 108, DEDUCED). -/
theorem recoverOwn_up (h : (portGet s n).state = .up) : recoverOwn s n = recover (s.emit (.block n (ctlBlock (natLe 1 0x55)))) n := if_pos h

theorem recover_up (h : (portGet s n).state = .up) :
    recover s n = (portSet s n { portGet s n with state := .recover, stage := .train, since := s.time, neg := none, negSame := 0, negAcked := false, lanes := 0, lanesSeen := [], naks := [], replay := (portGet s n).replay.map (fun e => (e.1, 0)) }).notice 0x0403 [n] := if_pos h

theorem exec_laneLockLost_up (hon : s.on = true) (hn : n < 26) (hl : l < 8) (h : (portGet s n).state = .up) :
    exec (.laneLockLost n l) s = .next ((recover (s.emit (.block n (ctlBlock (natLe 1 0x55)))) n).under s) := by
  rw [exec_laneLockLost, execLaneLockLost, hubOnly_on hon, if_pos ⟨hn, hl⟩, recoverOwn_up h]

/-- Settles O51: each event at a port of its stage. One LANE block stands for a lane's codewords (log 108, DESIGN CHOICE). -/
theorem portsAreBroughtUpRecoverAndGoDown : Obligations.PortsAreBroughtUpRecoverAndGoDown := by
  refine ⟨?detect, ?train, ?lock, ?relock, ?skewed, ?missing, ?negotiate, ?timeout, ?timeoutNegotiate, ?down, ?hold, ?lost⟩
  case detect => exact fun s n hon hn h => exec_portDetectDone_detect hon hn h
  case train => exact fun s n hon hn h => ⟨exec_portTrainDone_train hon hn h, toStage_eq .lock⟩
  case lock =>
    intro s n k hon hn h hl hk hs
    have hr : (portGet s n).state ≠ .recover := by rw [h]; decide
    exact exec_portLockDone_aligned hon hn ((stageOf_of_not_recover hr).trans h) hl hk hs (if_neg hr)
  case relock =>
    intro s n k hon hn h hst hl hk hs
    exact exec_portLockDone_aligned hon hn ((stageOf_of_recover h).trans hst) hl hk hs (if_pos h)
  case skewed => exact fun s n k hon hn h hl hk => exec_portLockDone_skewed hon hn h hl hk
  case missing => exact fun s n k hon h => exec_portLockDone_missing hon h
  case negotiate =>
    exact fun s n g hon hn hg hs ha => ⟨exec_portNegotiateDone_bringUp hon hn hg hs ha, exec_portNegotiateDone_recovered hon hn hg hs ha⟩
  case timeout =>
    intro s n l hon hn h
    rw [exec_portStageTimeout_early hon hn h]
    cases (portGet s n).state <;> rfl
  case timeoutNegotiate => exact fun s n l hon hn h => exec_portStageTimeout_negotiate hon hn h
  case down => exact fun s n hon hn h he hm => exec_portDownWait_enabled hon hn h he hm
  case hold => exact fun s n hon hn h => exec_recoverTimeout_recover hon hn h
  case lost => exact fun s n l hon hn hl h => ⟨exec_laneLockLost_up hon hn hl h, recover_up h⟩

end Sys2Proof.Proofs
end

section
/-! PROOFS. spec/06_fabric_ports_and_cells.md: the control blocks of a port's link layer (R187, R188, R190, R196 to R198, R200, Table
06-2), and the cells that leave a port (R189, R192, R196). -/

namespace Sys2Proof.Proofs

open Sys2Proof Sys2Proof.Machine Sys2Proof.Laws

variable {s u : State} {n q inp ty : Nat} {b : List Byte} {c : Cell} {x : QCell} {g : Neg} {f : State → State} {when : Port → Bool} {i : Instr}

/-! ### The rows -/

theorem exec_idleBlock : exec (.idleBlock n b) s = execIdleBlock n b s := rfl
theorem exec_nak : exec (.nak n b) s = execNak n b s := rfl
theorem exec_retrain : exec (.retrain n b) s = execRetrain n b s := rfl
theorem exec_laneBlock : exec (.laneBlock n b) s = execLaneBlock n b s := rfl
theorem exec_negBlock : exec (.negBlock n b) s = execNegBlock n b s := rfl
theorem exec_cellCrcFail : exec (.cellCrcFail n) s = execCellCrcFail n s := rfl
theorem exec_nakRepeat : exec (.nakRepeat n) s = execNakRepeat n s := rfl
theorem exec_fabBadCell : exec (.fabBadCell inp c) s = execFabBadCell inp c s := rfl
theorem exec_cellEgress : exec (.cellEgress q) s = execCellEgress q s := rfl

/-! ### A port's state -/

theorem isUp_of_portUp (h : portUp s n = true) : isUp (portGet s n) = true := by
  rw [portUp, Bool.and_eq_true] at h
  exact h.2

theorem receiving_of_isUp (h : isUp (portGet s n) = true) : receiving (portGet s n) = true := by
  have hst : (portGet s n).state = .up := eq_of_beq h
  rw [receiving, hst]
  rfl

/-- The receiver runs in LOCK and in NEGOTIATE, in those of a recovery too. -/
theorem receiving_of_stage {st : PState} (h : stageOf (portGet s n) = st) (hst : st = .lock ∨ st = .negotiate) : receiving (portGet s n) = true := by
  subst h
  unfold stageOf at hst
  split at hst
  case isTrue hr => rw [receiving, hr]; rfl
  case isFalse => obtain hl | hl := hst <;> rw [receiving, hl] <;> rfl

/-! ### Control blocks (R190) -/

/-- The block's CRC is right and it is of a type (Table 06-2). -/
abbrev GoodBlock (b : List Byte) (ty : Nat) : Prop := getLE b 28 4 = crc32c (slice b 0 28) ∧ getLE b 0 1 = ty

/-- A good block acts in the states it is sent in. -/
theorem withBlock_good (hn : n < 26) (hr : receiving (portGet s n) = true) (hb : GoodBlock b ty) (hw : when (portGet s n) = true) : withBlock n ty when b f s = f s := by
  obtain ⟨hcrc, hty⟩ := hb
  have hok : ctlOk b = true := beq_iff_eq.mpr hcrc
  simp only [withBlock, Nat.not_le.mpr hn, hr, hok, hty, hw, Bool.not_true, Bool.false_eq_true, or_self, and_self, if_false, if_true]

/-- A block that fails its CRC is only counted. -/
theorem withBlock_bad (hn : n < 26) (hr : receiving (portGet s n) = true) (hb : getLE b 28 4 ≠ crc32c (slice b 0 28)) :
    withBlock n ty when b f s = s.bump (F.FAB_PORT_ERR_CRC_ERR n) := by
  have hok : ctlOk b = false := beq_eq_false_iff_ne.mpr hb
  simp only [withBlock, Nat.not_le.mpr hn, hr, hok, Bool.not_true, Bool.not_false, Bool.false_eq_true, or_self, if_false, if_true]

/-- A row of a good block, at a port in a state the block is sent in. -/
theorem exec_block_good (hon : s.on = true) (he : exec i s = hubOnly (withBlock n ty when b f) s) (hn : n < 26) (hr : receiving (portGet s n) = true)
    (hb : GoodBlock b ty) (hw : when (portGet s n) = true) : exec i s = .next ((f s).under s) := by
  rw [he, hubOnly_on hon, withBlock_good hn hr hb hw]

/-- A row of a good block that an UP port takes. -/
theorem exec_block_up (hon : s.on = true) (he : exec i s = hubOnly (withBlock n ty isUp b f) s) (hn : n < 26) (hup : portUp s n = true) (hb : GoodBlock b ty) :
    exec i s = .next ((f s).under s) :=
  exec_block_good hon he hn (receiving_of_isUp (isUp_of_portUp hup)) hb (isUp_of_portUp hup)

/-- A row of a good block that belongs to a stage of bring-up, or of a recovery. -/
theorem exec_block_stage {st : PState} (hon : s.on = true) (he : exec i s = hubOnly (withBlock n ty (fun p => stageOf p == st) b f) s) (hn : n < 26)
    (h : stageOf (portGet s n) = st) (hst : st = .lock ∨ st = .negotiate) (hb : GoodBlock b ty) : exec i s = .next ((f s).under s) :=
  exec_block_good hon he hn (receiving_of_stage h hst) hb (beq_iff_eq.mpr h)

/-- A row of a block whose CRC fails. -/
theorem exec_block_bad (hon : s.on = true) (he : exec i s = hubOnly (withBlock n ty when b f) s) (hn : n < 26) (hr : receiving (portGet s n) = true)
    (hb : getLE b 28 4 ≠ crc32c (slice b 0 28)) : exec i s = .next ((s.bump (F.FAB_PORT_ERR_CRC_ERR n)).under s) := by
  rw [he, hubOnly_on hon, withBlock_bad hn hr hb]

theorem exec_laneBlock_lock (hon : s.on = true) (hn : n < 26) (h : stageOf (portGet s n) = .lock) (hb : GoodBlock b 0x33) (hl : getLE b 1 1 < 8) :
    exec (.laneBlock n b) s = .next ((portSet s n { portGet s n with lanesSeen := (getLE b 1 1, getLE b 4 4) :: (portGet s n).lanesSeen.filter (fun e => e.1 != getLE b 1 1), lanes := (portGet s n).lanes ||| 2 ^ getLE b 1 1 }).under s) := by
  rw [exec_block_stage hon exec_laneBlock hn h (.inl rfl) hb, if_pos hl]

/-- Every row of a block goes by the check of its CRC. -/
theorem exec_badBlock (hon : s.on = true) (hn : n < 26) (hr : receiving (portGet s n) = true) (hb : getLE b 28 4 ≠ crc32c (slice b 0 28)) :
    ∀ i ∈ ([.idleBlock n b, .nak n b, .retrain n b, .laneBlock n b, .negBlock n b] : List Instr), exec i s = .next ((s.bump (F.FAB_PORT_ERR_CRC_ERR n)).under s) := by
  simp only [List.forall_mem_cons, List.not_mem_nil, false_imp_iff, implies_true, and_true]
  exact ⟨exec_block_bad hon exec_idleBlock hn hr hb, exec_block_bad hon exec_nak hn hr hb, exec_block_bad hon exec_retrain hn hr hb,
    exec_block_bad hon exec_laneBlock hn hr hb, exec_block_bad hon exec_negBlock hn hr hb⟩

/-! ### Corrupt cells, and cells that break their form (R194, R197) -/

theorem exec_cellCrcFail_up (hon : s.on = true) (hn : n < 26) (hup : portUp s n = true) : exec (.cellCrcFail n) s = .next ((cellFail s n).under s) := by
  rw [exec_cellCrcFail, execCellCrcFail, hubOnly_on hon, if_pos ⟨hn, hup⟩]

theorem exec_nakRepeat_waiting (hon : s.on = true) (hn : n < 26) (hup : portUp s n = true) (hw : (portGet s n).nakWait = true) :
    exec (.nakRepeat n) s = .next ((sendNak s n).under s) := by
  rw [exec_nakRepeat, execNakRepeat, hubOnly_on hon, if_pos ⟨hn, hup, hw⟩]

theorem exec_fabBadCell_dropped (hon : s.on = true) (h : ingress s inp c = (none, u)) : exec (.fabBadCell inp c) s = .next (u.under s) := by
  rw [exec_fabBadCell, execFabBadCell, hubOnly_on hon, h]

/-! ### Cells that leave a port (R189, R192, R196) -/

/-- The cell that an UP port sends next, none while its replay buffer is full. -/
def nextOut (s : State) (q : Nat) : Option QCell := if (portGet s q).replay.length < 2048 then egressNext s q else none

theorem nextOut_none (h : (portGet s q).replay.length ≥ 2048 ∨ egressNext s q = none) : nextOut s q = none := by
  unfold nextOut
  split
  case isTrue hroom => exact h.resolve_left (Nat.not_le.mpr hroom)
  case isFalse => rfl

/-- With nothing to send an IDLE block leaves. -/
theorem egressCell_idle (hq : q < 26) (hup : portUp s q = true) (h : nextOut s q = none) : egressCell s q = s.emit (.block q (idleBlock (portGet s q))) := by
  have hgo : ¬ (q ≥ 26 ∨ (!portUp s q) = true) := by simp [hup, hq]
  unfold nextOut at h
  rw [egressCell, if_neg hgo]
  simp only [h]

/-- A tick cell takes up its stamp or its residence; any other cell leaves as it is. -/
def leaves (s : State) (x : QCell) (p : Port) : Cell :=
  { x.c with payload := if x.c.ty = 0x30 then tickOut s x else x.c.payload, ack := p.rxNext, cvn := p.cvn, ccnt := nth4 p.freed p.cvn }
theorem leaves_eq (p : Port) :
    leaves s x p = { (if x.c.ty = 0x30 then { x.c with payload := tickOut s x } else x.c) with ack := p.rxNext, cvn := p.cvn, ccnt := nth4 p.freed p.cvn } := by
  unfold leaves
  split <;> rfl
/-- A cell has left its queue: its last copy frees its entry, a trailer begins its wait, and one that its gate has closed on is counted. -/
def leftQueue (s : State) (q : Nat) (x : QCell) : State :=
  let d := trailerLeft (dequeue s x) x.c
  if gateLate d x = true then (d.bump F.SHP_GATE_LATE_COUNT).onceTick 0x0420 q [q] else d
/-- A delay request's send time is kept (R27). -/
def requestStamped (s : State) (x : QCell) : State :=
  if x.c.ty = 0x30 ∧ getLE x.c.payload 0 1 = 2 then { s with tk := { s.tk with delayReq := some (stamp s s.tk.frac) } } else s
/-- The port that has sent a cell, which it keeps to send again. -/
def sentPort (p : Port) (c : Cell) : Port :=
  { p with txNext := (p.txNext + 1) % 4096, cvn := (p.cvn + 1) % 4, replay := p.replay ++ [(c, 0)], sent := add4 p.sent c.vn 1 }

theorem egressCell_sends (hq : q < 26) (hup : portUp s q = true) (h : nextOut s q = some x) :
    egressCell s q =
      let g := leftQueue s q x
      let t := requestStamped g x
      let c := leaves t x (portGet g q)
      (portSet t q (sentPort (portGet g q) c)).emit (.cell q c) := by
  have hgo : ¬ (q ≥ 26 ∨ (!portUp s q) = true) := by simp [hup, hq]
  unfold nextOut at h
  rw [egressCell, if_neg hgo]
  simp only [h]
  rw [leaves_eq]
  rfl

/-- Settles O52: each block past its checks, each cell past its port. The port that gives up replaying sends RETRAIN itself (log 108, DEDUCED). -/
theorem linkLayerBlocksAndCells : Obligations.LinkLayerBlocksAndCells := by
  refine ⟨?idle, ?nak, ?retrain, ?lane, ?neg, ?bad, ?crcFail, ?repeated, ?badCell, ?nothing, ?cell⟩
  case idle => exact fun s n b hon hn hup hb => exec_block_up hon exec_idleBlock hn hup hb
  case nak => exact fun s n b hon hn hup hb => exec_block_up hon exec_nak hn hup hb
  case retrain => exact fun s n b hon hn hup hb => exec_block_up hon exec_retrain hn hup hb
  case lane => exact fun s n b hon hn h hb hl => exec_laneBlock_lock hon hn h hb hl
  case neg =>
    intro s n b g hon hn h hb hg
    rw [exec_block_stage hon exec_negBlock hn h (.inr rfl) hb, hg]
    rfl
  case bad => exact fun s n b hon hn hr hb => exec_badBlock hon hn hr hb
  case crcFail => exact fun s n hon hn hup => exec_cellCrcFail_up hon hn hup
  case repeated => exact fun s n hon hn hup hw => exec_nakRepeat_waiting hon hn hup hw
  case badCell => exact fun s u inp c hon h => exec_fabBadCell_dropped hon h
  case nothing =>
    intro s q hon hq hup h
    rw [exec_cellEgress, execCellEgress, hubOnly_on hon, egressCell_idle hq hup (nextOut_none h)]
    rfl
  case cell =>
    intro s q x hon hq hup hroom hx
    rw [exec_cellEgress, execCellEgress, hubOnly_on hon, egressCell_sends hq hup ((if_pos hroom).trans hx)]
    rfl

end Sys2Proof.Proofs
end

section
/-! PROOFS. spec/10_coherence_domain.md: snoop answers of a logical device (R290, R292, Table 10-3), the directory's timers (R294, R297,
R298), the end of the walks (R306) and the lost-write record (R305, Table 15-5); spec/15_host_link_and_notices.md: CXL.mem (R413). -/

namespace Sys2Proof.Proofs

open Sys2Proof Sys2Proof.Machine Sys2Proof.Laws

variable {s : State} {ld dpa l a i n start count tag : Nat} {k : BiRsp} {p : Snp} {ms : MetaState} {d : List (Option Byte)}

/-! ### The rows -/

theorem exec_birsp : exec (.birsp ld dpa k) s = execBirsp ld dpa k s := rfl
theorem exec_biconflict : exec (.biconflict ld dpa) s = execBiconflict ld dpa s := rfl
theorem exec_holdWindowEnd : exec (.holdWindowEnd l) s = execHoldWindowEnd l s := rfl
theorem exec_cohSnoopSlow : exec (.cohSnoopSlow l a) s = execCohSnoopSlow l a s := rfl
theorem exec_predDecay : exec .predDecay s = execPredDecay s := rfl
theorem exec_lostWalkDone : exec .lostWalkDone s = execLostWalkDone s := rfl
theorem exec_lostWrites : exec (.lostWrites (.ld i) start count) s = execLostWrites (.ld i) start count s := rfl
theorem exec_memRd : exec (.memRd ld dpa ms tag) s = execMemRd ld dpa ms tag s := rfl
theorem exec_memWr : exec (.memWr ld dpa ms tag d) s = execMemWr ld dpa ms tag d s := rfl
theorem exec_memInv : exec (.memInv ld dpa tag) s = execMemInv ld dpa tag s := rfl

/-! ### BIRsp and BIConflict (R290, R292) -/

/-- An agent of the logical device owes an answer to a snoop of the line. -/
def owesSnoop (s : State) (ld l : Nat) : Bool := s.coh.snoops.any (fun p => p.line == l && (slotsOfLd s ld).contains p.agent)

/-- The entry from which a BIRsp's answer goes on: a BIRspE of the owner marks that it keeps its exclusive copy (Table 10-3). -/
theorem birsp_answers (hl : ldLine s ld dpa = some l) (hp : s.coh.snoops.find? (fun p => p.line == l && (slotsOfLd s ld).contains p.agent) = some p)
    (ha : isLost s p.agent = false) :
    birsp ld dpa k s = pump (snoopAnswer (if k = .e ∧ (dirGet s p.line).owner = p.agent ∧ (dirGet s p.line).state = .pend
      then dirSet s p.line { dirGet s p.line with keepX := true } else s) p.line p.agent (decide (k = .s)) none) := by
  simp only [birsp, hl, Option.bind_some, hp, ha, Bool.false_eq_true, if_false]
  cases k <;> simp

/-- The one conflict held stays held while a snoop of its line is owed, and is acknowledged otherwise. -/
theorem ackConflicts_one (hc : s.coh.conflicts = [(ld, dpa, l)]) :
    ackConflicts s = if owesSnoop s ld l = true then s else (cohSet s { s.coh with conflicts := [] }).emit (.event "BIConflictAck" [ld, dpa]) := by
  unfold ackConflicts
  split
  case isTrue ho =>
    rw [owesSnoop] at ho
    simp only [hc, ho, List.filter_cons, List.filter_nil, Bool.not_true, Bool.false_eq_true, if_true, if_false, List.foldl_nil]
    rw [← hc]
    rfl
  case isFalse ho =>
    rw [owesSnoop, Bool.not_eq_true] at ho
    simp only [hc, ho, List.filter_cons, List.filter_nil, Bool.not_false, Bool.false_eq_true, if_true, if_false, List.foldl_cons, List.foldl_nil]

/-- A BIConflict that meets no other is held while its line's snoop is owed, and is acknowledged otherwise. -/
theorem exec_biconflict_alone (hon : s.on = true) (hl : ldLine s ld dpa = some l) (hc : s.coh.conflicts = []) :
    exec (.biconflict ld dpa) s = .next (if owesSnoop s ld l = true then cohSet s { s.coh with conflicts := [(ld, dpa, l)] } else s.emit (.event "BIConflictAck" [ld, dpa])) := by
  rw [exec_biconflict, execBiconflict, hubOnly_on hon]
  simp only [hl, hc, List.nil_append]
  rw [ackConflicts_one (ld := ld) (dpa := dpa) (l := l) rfl]
  have howes : owesSnoop (cohSet s { s.coh with conflicts := [(ld, dpa, l)] }) ld l = owesSnoop s ld l := rfl
  rw [howes]
  split
  · rfl
  · rw [cohSet, cohSet, ← hc]
    rfl

/-! ### The predictor's decay (R298) -/

theorem predDecay_early (h : s.tk.num < s.coh.predAt + s.fld F.COH_PRED_DECAY) : predDecay s = s := if_pos h
theorem predDecay_due (h : s.coh.predAt + s.fld F.COH_PRED_DECAY ≤ s.tk.num) :
    predDecay s = cohSet s { s.coh with predAt := s.tk.num, pred := s.coh.pred.foldl (fun m e => smSet (fun _ => 0) m e.1 (e.2 - 1)) s.coh.pred } :=
  if_neg (Nat.not_lt.mpr h)

/-! ### LOST_WRITES (R305, Table 15-5) -/

/-- How far tenant `n`'s record has been read from its first entry once `count` entries from `start` have been. -/
def readUpTo (c : Coh) (n start count : Nat) : Nat :=
  let seen := smGet (fun _ => 0) c.readTo n
  if start ≤ seen then max seen (start + count) else seen

/-- What that reading leaves: the record is cleared once every entry of it has been read. -/
def recordRead (c : Coh) (n start count : Nat) : Coh :=
  if (smGet (fun _ => []) c.recs n).length ≤ readUpTo c n start count then
    { c with recs := smSet (fun _ => []) c.recs n [], readTo := smSet (fun _ => 0) c.readTo n 0, ovfEp := c.ovfEp.filter (· != n) }
  else { c with readTo := smSet (fun _ => 0) c.readTo n (readUpTo c n start count) }

@[simp] theorem recordRead_dir (c : Coh) : (recordRead c n start count).dir = c.dir := by unfold recordRead; split <;> rfl
@[simp] theorem recordRead_lost (c : Coh) : (recordRead c n start count).lost = c.lost := by unfold recordRead; split <;> rfl

/-- A logical device's mailbox has no status of its own to set, as the sideband's has (R543): its answer is only sent. -/
theorem reply_ld_ok (d : List Byte) : s.reply (.ld i) St.ok d = s.emit (.reply (.ld i) St.ok 0 d) := rfl

theorem exec_lostWrites_answers (h : vendorReady (.ld i) .ten s) :
    exec (.lostWrites (.ld i) start count) s = .next ((cohSet (s.emit (.reply (.ld i) St.ok 0 ((((smGet (fun _ => []) s.coh.recs (ldTenant s i)).drop start).take count).flatMap lostBytes)))
      (recordRead s.coh (ldTenant s i) start count)).under s) := by
  rw [exec_lostWrites, execLostWrites, mbxOnly_vendor h, mbxIn_ld]
  simp only [mbxTenant, reply_ld_ok, emit_coh]
  rw [recordRead, apply_ite (cohSet _)]
  rfl

/-- Settles O42: each row past the power gate or the LD's mailbox, then the branch its hypotheses pick. That a walk acts on its
lines at the declaration, and LOST_WALK_DONE only reports it, is the model's choice (log 19, DESIGN CHOICE). -/
theorem coherenceRowsAndCxlMemory : Obligations.CoherenceRowsAndCxlMemory := by
  refine ⟨?birsp, ?held, ?acknowledged, ?hold, ?slow, ?decayEarly, ?decay, ?walks, ?lostWrites, ?memRd, ?memWr, ?memInv⟩
  case birsp =>
    intro s ld dpa l k p hon hl hp ha e a
    rw [exec_birsp, execBirsp, hubOnly_on hon, birsp_answers hl hp ha]
  case held =>
    intro s ld dpa l hon hl ho hc
    rw [exec_biconflict_alone hon hl hc, if_pos (show owesSnoop s ld l = true from ho)]
    rfl
  case acknowledged =>
    intro s ld dpa l hon hl ho hc
    rw [exec_biconflict_alone hon hl hc, if_neg (Bool.eq_false_iff.mp (show owesSnoop s ld l = false from ho))]
    rfl
  case hold =>
    intro s l hon hv
    rw [exec_holdWindowEnd, execHoldWindowEnd, hubOnly_on hon]
    simp only [hv, if_true, State.upTo]
  case slow =>
    intro s l a p hon hp
    rw [exec_cohSnoopSlow, execCohSnoopSlow, hubOnly_on hon]
    simp only [hp, State.upTo, cohSet]
  case decayEarly =>
    intro s hon h
    rw [exec_predDecay, execPredDecay, hubOnly_on hon, predDecay_early h]
    rfl
  case decay =>
    intro s hon h
    rw [exec_predDecay, execPredDecay, hubOnly_on hon, predDecay_due h]
    rfl
  case walks => exact fun s hon => by rw [exec_lostWalkDone, execLostWalkDone, hubOnly_on hon]
  case lostWrites => exact fun s i start count h => ⟨_, exec_lostWrites_answers h, rfl, rfl, rfl, recordRead_dir s.coh, recordRead_lost s.coh⟩
  case memRd => exact fun s ld dpa tag ms hon => exec_memRd.trans (hubOnly_on hon)
  case memWr => exact fun s ld dpa tag ms d hon => exec_memWr.trans (hubOnly_on hon)
  case memInv => exact fun s ld dpa tag hon => exec_memInv.trans (hubOnly_on hon)

end Sys2Proof.Proofs
end

section
/-! PROOFS. The registers whose write acts (Table 20-16). spec/11_segments_keys_windows.md: SEGT_OP and WIN_OP (R314, R320), FLT_POP and
FLT_OVF_CLR (R328, R329); spec/10_coherence_domain.md: the bounds of the coherent windows (R282, R283); spec/15_host_link_and_notices.md: the
TAIL registers of the rings (R433, R435); spec/19_package_power_clocks.md and spec/20_register_map.md: CLK_RESET and SEC_LOCK (R535, R552). -/

namespace Sys2Proof.Proofs

open Sys2Proof Sys2Proof.Machine Sys2Proof.Laws

variable {s t : State} {a i j n new v : Nat} {h : Half} {r : RegRow} {w : RegW} {own : Option Nat} {name : String}

/-! ### The register at a row's address -/

/-- The name and the indices of the register at an address. -/
def regAt (a : Nat) : Option (String × Nat × Nat) := (regFind a).map (fun x => (x.1.name, x.2))

theorem regAt_eq_some : regAt a = some (name, i, j) ↔ ∃ r, regFind a = some (r, i, j) ∧ r.name = name := by
  rw [regAt, Option.map_eq_some_iff]
  constructor
  · rintro ⟨⟨r, x⟩, hf, e⟩
    obtain ⟨hn, rfl⟩ := Prod.mk.inj e
    exact ⟨r, hf, hn⟩
  · rintro ⟨r, hf, hn⟩
    exact ⟨(r, i, j), hf, by rw [hn]⟩

theorem regAt_secLock : regAt F.SEC_LOCK_LOCK.addr = some ("SEC_LOCK", 0, 0) := rfl
theorem regAt_clkReset : regAt F.CLK_RESET_WARM.addr = some ("CLK_RESET", 0, 0) := rfl
theorem regAt_segtOp : regAt F.SEGT_OP_OP.addr = some ("SEGT_OP", 0, 0) := rfl
theorem regAt_winOp : regAt F.WIN_OP_OP.addr = some ("WIN_OP", 0, 0) := rfl
theorem regAt_fltPop : regAt F.FLT_POP_SEQ.addr = some ("FLT_POP", 0, 0) := rfl
theorem regAt_fltOvfClr : regAt F.FLT_OVF_CLR_TENANT.addr = some ("FLT_OVF_CLR", 0, 0) := rfl
theorem regAt_sysringTail : regAt F.HOST_SYSRING_TAIL_TAIL.addr = some ("HOST_SYSRING_TAIL", 0, 0) := rfl
theorem regAt_ringIdx (hn : n < 16) : regAt (F.HOST_RING_IDX_TAIL n).addr = some ("HOST_RING_IDX_i", n, 0) := by
  interval_cases n <;> rfl

/-! ### What each acting register's write does -/

theorem hubWrite_segtOp (hn : r.name = "SEGT_OP") (hh : h ≠ .hi) : hubWrite a r i j h v s = segtOp s (v % 4) := by simp [hubWrite, hn, hh]
theorem hubWrite_winOp (hn : r.name = "WIN_OP") (hh : h ≠ .hi) : hubWrite a r i j h v s = winOp s (v % 4) := by simp [hubWrite, hn, hh]
theorem hubWrite_fltPop (hn : r.name = "FLT_POP") (hh : h ≠ .hi) : hubWrite a r i j h v s = fltPop (s.put F.FLT_POP_SEQ v) (v % 2 ^ 32) := by
  simp [hubWrite, hn, hh]
theorem hubWrite_fltOvfClr (hn : r.name = "FLT_OVF_CLR") (hh : h ≠ .hi) : hubWrite a r i j h v s = ovfSet (s.put F.FLT_OVF_CLR_TENANT v) (v % 512) {} := by
  simp [hubWrite, hn, hh]
theorem hubWrite_ringIdx (hn : r.name = "HOST_RING_IDX_i") (hh : h ≠ .lo) : hubWrite a r i j h v s = ringTail s i (v / 2 ^ 32) := by
  simp [hubWrite, hn, hh]
theorem hubWrite_sysringTail (hn : r.name = "HOST_SYSRING_TAIL") (hh : h ≠ .hi) : hubWrite a r i j h v s = sysTail s (v % 2 ^ 32) := by
  simp [hubWrite, hn, hh]

/-- The register of a coherent window that a bound's row writes. -/
def boundName (q : CohWinReg) : String := if q = .fin then "COH_WIN_END_n" else "COH_WIN_BASE_n"

/-- While the lock is clear, a bound of a coherent window that passes its ranges (R282) is stored. -/
theorem hubWrite_winBound {q : CohWinReg} (hn : r.name = boundName q) (hl : s.sup.lock = false) (hnew : new = rowWrite s.sup.lock (halfMask h) v (s.reg a).toNat r.fields)
    (hok : rangeOk s (boundName q) i j new = true) : hubWrite a r i j h v s = winStore s i (if q = .fin then 1 else 0) a new := by
  rw [hl] at hnew
  subst hnew
  by_cases hq : q = .fin
  · rw [boundName, if_pos hq] at hn hok
    simp [hubWrite, hn, hok, hl, refuseWrite, hq]
  · rw [boundName, if_neg hq] at hn hok
    simp [hubWrite, hn, hok, hl, refuseWrite, hq]

/-! ### The acts (R314, R320, R328, R433) -/

theorem fltPop_oldest {e : FltE} {rest : List FltE} (hf : s.xlt.faults = e :: rest) :
    fltPop s e.seq = ((List.range 10).zip (fltWords e)).foldl (fun s p => s.put (F.FLT_POP_DATA_WORD p.1) p.2) { s with xlt := { s.xlt with faults := rest } } := by
  simp only [fltPop, hf, if_true]

/-- A TAIL write that would bring HEAD - TAIL beyond the ring's size is discarded and marked (R433). -/
theorem ringTail_bad {tail : Nat} (hb : 2 ^ s.fld (F.HOST_RING_CTL_SIZE_LOG2 i) < (s.fld (F.HOST_RING_IDX_HEAD i) + 2 ^ 32 - tail) % 2 ^ 32) :
    ringTail s i tail = s.put (F.HOST_RING_STAT_BAD_TAIL i) 1 :=
  if_neg (Nat.not_le.mpr hb)

/-- A TAIL write within the ring is taken, and signals where the ring was empty and holds records now. -/
theorem ringTail_taken {tail : Nat} (hk : (s.fld (F.HOST_RING_IDX_HEAD i) + 2 ^ 32 - tail) % 2 ^ 32 ≤ 2 ^ s.fld (F.HOST_RING_CTL_SIZE_LOG2 i)) :
    ringTail s i tail = if ringCount (s.put (F.HOST_RING_IDX_TAIL i) tail) i = 0 then sigSet (s.put (F.HOST_RING_IDX_TAIL i) tail) i {}
      else if ringCount s i = 0 then ringSignal (s.put (F.HOST_RING_IDX_TAIL i) tail) i else s.put (F.HOST_RING_IDX_TAIL i) tail :=
  if_pos hk

theorem sysTail_discarded {tail : Nat} (hb : 65536 < (s.fld F.HOST_SYSRING_HEAD_HEAD + 2 ^ 32 - tail) % 2 ^ 32) : sysTail s tail = s :=
  if_neg (Nat.not_le.mpr hb)

/-- A TAIL write within the system ring is taken, and SB_ALERT_N follows whether records are unread (R435, R545). -/
theorem sysTail_taken {tail : Nat} (hk : (s.fld F.HOST_SYSRING_HEAD_HEAD + 2 ^ 32 - tail) % 2 ^ 32 ≤ 65536) :
    sysTail s tail = if s.fld F.HOST_SYSRING_TAIL_TAIL = tail then s.put F.HOST_SYSRING_TAIL_TAIL tail
      else if s.fld F.HOST_SYSRING_HEAD_HEAD = tail then (s.put F.HOST_SYSRING_TAIL_TAIL tail).emit (.pin "SB_ALERT_N" true)
      else if s.fld F.HOST_SYSRING_HEAD_HEAD = s.fld F.HOST_SYSRING_TAIL_TAIL then (s.put F.HOST_SYSRING_TAIL_TAIL tail).emit (.pin "SB_ALERT_N" false)
      else s.put F.HOST_SYSRING_TAIL_TAIL tail :=
  if_pos hk

theorem setLock_clear (hl : s.sup.lock = false) : setLock s = (supSet s { s.sup with lock := true }).notice 0x0B0A := by
  rw [setLock, hl]
  rfl

theorem warmStart_on {cause : Nat} (hon : s.on = true) (ht : s.sup.tripped = false) :
    warmStart s cause = (beginStart s true false cause).emit (.pin "HUB_READY" false) := by
  simp only [warmStart, hon, ht, Bool.not_true, Bool.false_eq_true, or_self, if_false]

/-! ### The value of an access -/

/-- An access that reaches the low half carries the low bits of its value. -/
theorem halfVal_mod {d : Nat} (hh : h ≠ .hi) (hd : d ∣ 2 ^ 32) : halfVal h v % d = v % d := by
  cases h with
  | whole => exact Nat.mod_mod_of_dvd v (hd.trans (by decide))
  | lo => exact Nat.mod_mod_of_dvd v hd
  | hi => exact absurd rfl hh

/-- A row of SEGT_OP or WIN_OP puts its own operation into OP, whatever the command's value holds there (R314). -/
theorem halfVal_op {op : Nat} (hh : h ≠ .hi) (ho : op < 4) : halfVal h (v / 4 * 4 + op) % 4 = op := by
  rw [halfVal_mod hh (by decide)]
  omega

/-! ### A row of one register -/

/-- The row of a supervisor's register, over an open path other than a BAR2. -/
theorem supOn_supRow (hon : s.on = true) (ho : pathOpen s w.path = true) (hb : ∀ n, w.path ≠ .bar2 n) (ha : regAt a = some (name, i, j))
    (hw : supWrite s name w.half (halfVal w.half w.val) = some t) : supOn (fun u => namedWrite u a w own) s = .next (t.queued s) := by
  obtain ⟨r, hf, rfl⟩ := regAt_eq_some.mp ha
  rw [supOn_on hon, namedWrite_open ho hb, regWrite_sup hf hw]

/-- The row of a register of the hub proper, over an open path other than a BAR2. -/
theorem supOn_hubRow (hon : s.on = true) (ho : pathOpen s w.path = true) (hb : ∀ n, w.path ≠ .bar2 n) (ha : regAt a = some (name, i, j)) (hs : name ∉ supNames)
    (hw : ∀ r : RegRow, r.name = name → hubWrite a r i j w.half (halfVal w.half w.val) s = t) : supOn (fun u => namedWrite u a w own) s = .next (t.under s) := by
  obtain ⟨r, hf, rfl⟩ := regAt_eq_some.mp ha
  exact named_hub (own := own) hon ho hb hf hs (hw r rfl) rfl

section OpenRow

variable (hon : s.on = true) (ho : pathOpen s w.path = true) (hb : ∀ n, w.path ≠ .bar2 n) (hh : w.half ≠ .hi)
include hon ho hb hh

theorem exec_secLockWrite (hv : w.val % 2 = 1) : exec (.secLockWrite w) s = .next ((setLock s).queued s) :=
  supOn_supRow (own := none) hon ho hb regAt_secLock (by simp [supWrite, hh, halfVal_mod hh, hv])

theorem exec_warmResetReg (hv : w.val % 2 = 1) : exec (.warmResetReg w) s = .next ((warmStart s 8).queued s) :=
  supOn_supRow (own := none) hon ho hb regAt_clkReset (by simp [supWrite, hh, halfVal_mod hh, hv])

/-- A write of SEGT_OP acts by the operation its row puts into OP. -/
theorem supOn_segtOp {op : Nat} (h4 : op < 4) :
    supOn (fun u => namedWrite u F.SEGT_OP_OP.addr { w with val := w.val / 4 * 4 + op } none) s = .next ((segtOp s op).under s) :=
  supOn_hubRow (w := { w with val := w.val / 4 * 4 + op }) hon ho hb regAt_segtOp (by decide)
    fun _ hn => (hubWrite_segtOp hn hh).trans (congrArg _ (halfVal_op hh h4))

theorem supOn_winOp {op : Nat} (h4 : op < 4) :
    supOn (fun u => namedWrite u F.WIN_OP_OP.addr { w with val := w.val / 4 * 4 + op } none) s = .next ((winOp s op).under s) :=
  supOn_hubRow (w := { w with val := w.val / 4 * 4 + op }) hon ho hb regAt_winOp (by decide)
    fun _ hn => (hubWrite_winOp hn hh).trans (congrArg _ (halfVal_op hh h4))

theorem exec_fltPop : exec (.fltPop w) s = .next ((fltPop (s.put F.FLT_POP_SEQ (halfVal w.half w.val)) (halfVal w.half w.val % 2 ^ 32)).under s) :=
  supOn_hubRow (own := none) hon ho hb regAt_fltPop (by decide) fun _ hn => hubWrite_fltPop hn hh

theorem exec_fltOvfClr : exec (.fltOvfClr w) s = .next ((ovfSet (s.put F.FLT_OVF_CLR_TENANT (halfVal w.half w.val)) (halfVal w.half w.val % 512) {}).under s) :=
  supOn_hubRow (own := none) hon ho hb regAt_fltOvfClr (by decide) fun _ hn => hubWrite_fltOvfClr hn hh

theorem exec_sysringTailWrite : exec (.sysringTailWrite w) s = .next ((sysTail s (halfVal w.half w.val % 2 ^ 32)).under s) :=
  supOn_hubRow (own := none) hon ho hb regAt_sysringTail (by decide) fun _ hn => hubWrite_sysringTail hn hh

end OpenRow

/-- The BAR2 of an LD writes the TAIL of the LD's own ring (R549). -/
theorem exec_ringTailWrite {ld : Nat} (hon : s.on = true) (hp : w.path = .bar2 ld) (hld : ld < 16) (hh : w.half ≠ .lo) :
    exec (.ringTailWrite ld w) s = .next ((ringTail s ld (halfVal w.half w.val / 2 ^ 32)).under s) := by
  obtain ⟨r, hf, hn⟩ := regAt_eq_some.mp (regAt_ringIdx hld)
  have hs : r.name ∉ supNames := by rw [hn]; decide
  exact named_ring hon hp hf hs (hubWrite_ringIdx hn hh) (if_pos hld)

/-- The address of the register a bound's row writes. -/
def boundAddr (n : Nat) (q : CohWinReg) : Nat := 0x501000 + 0x20 * n + (if q = .fin then 8 else 0)

theorem exec_cohWinWrite_bound {q : CohWinReg} (hn : n < 64) (hq : q = .base ∨ q = .fin) :
    exec (.cohWinWrite n q w) s = supOn (fun u => namedWrite u (boundAddr n q) w none) s := by
  obtain rfl | rfl := hq
  · exact supOn_guard hn rfl
  · have hend : (F.COH_WIN_END_END n).addr = boundAddr n .fin := Nat.add_right_comm 0x501000 8 (0x20 * n)
    rw [← hend]
    exact supOn_guard hn rfl

/-- No bound of a coherent window is the supervisor's. -/
theorem boundName_not_sup (q : CohWinReg) : boundName q ∉ supNames := by cases q <;> decide

/-- Settles O54: each row writes the register at its address, and that register's name picks the act. That OP acts when it is written
(log 93), and what a window's bound is checked against and waits for (log 70), are the model's readings, both DEDUCED. -/
theorem actingRegisterWritesAct : Obligations.ActingRegisterWritesAct := by
  refine ⟨?lockAndReset, ?tables, ?window, ?ring, ?sysring⟩
  case lockAndReset =>
    intro s p h v hon ho hb hh hv
    refine ⟨fun hl => ?_, fun ht => ?_⟩
    · rw [exec_secLockWrite hon ho hb hh hv, setLock_clear hl]
      rfl
    · rw [exec_warmResetReg hon ho hb hh hv, warmStart_on hon ht]
  case tables =>
    intro s w hon ho hb hh
    refine ⟨?segtRead, ?segtWrite, ?winRead, ?winWrite, ?pop, exec_fltOvfClr hon ho hb hh⟩
    case segtRead => exact supOn_segtOp hon ho hb hh (op := 1) (by decide)
    case segtWrite => exact supOn_segtOp hon ho hb hh (op := 2) (by decide)
    case winRead => exact supOn_winOp hon ho hb hh (op := 1) (by decide)
    case winWrite => exact supOn_winOp hon ho hb hh (op := 2) (by decide)
    case pop =>
      intro e rest hf hseq
      rw [exec_fltPop hon ho hb hh, ← hseq, fltPop_oldest hf]
      rfl
  case window =>
    intro s w n k new q hon ho hb hn hq a name r hf hs hl hnew hok
    have hsup : r.name ∉ supNames := hs ▸ boundName_not_sup q
    rw [exec_cohWinWrite_bound hn hq]
    exact named_hub hon ho hb hf hsup (hubWrite_winBound hs hl hnew hok) rfl
  case ring =>
    intro s w ld hon hp hld hh tail head
    refine ⟨fun hbad => ?_, fun htake => ?_⟩
    · rw [exec_ringTailWrite hon hp hld hh, ringTail_bad hbad]
    · rw [exec_ringTailWrite hon hp hld hh, ringTail_taken htake]
  case sysring =>
    intro s w hon ho hb hh tail head old
    refine ⟨fun hbad => ?_, fun htake => ?_⟩
    · rw [exec_sysringTailWrite hon ho hb hh, sysTail_discarded hbad]
    · rw [exec_sysringTailWrite hon ho hb hh, sysTail_taken htake]

end Sys2Proof.Proofs
end

section
/-! PROOFS. spec/12_embedding_rows.md: the handles of versioned tables (R353, R354); spec/13_strainer_search.md: opening and closing a
collection (R363 to R365) and the commit of a mutation (R377, R378). -/

namespace Sys2Proof.Proofs

open Sys2Proof Sys2Proof.Machine Sys2Proof.Laws

variable {s : State} {i h base va : Nat} {ups : List Upset} {iss : Issuer} {f : State → State} {x : Step}

/-! ### The rows -/

theorem exec_vtOpen : exec (.vtOpen (.ld i) base) s = execVtOpen (.ld i) base s := rfl
theorem exec_vtSwitch : exec (.vtSwitch (.ld i) h base) s = execVtSwitch (.ld i) h base s := rfl
theorem exec_vtClose : exec (.vtClose (.ld i) h) s = execVtClose (.ld i) h s := rfl
theorem exec_strnOpen : exec (.strnOpen (.ld i) va ups) s = execStrnOpen (.ld i) va ups s := rfl
theorem exec_strnClose : exec (.strnClose (.ld i) h) s = execStrnClose (.ld i) h s := rfl
theorem exec_mutationCommit : exec (.mutationCommit h) s = execMutationCommit h s := rfl

/-- A command of a logical device's mailbox that is ready does its own work. -/
theorem mbxOnly_vendor_ld (hr : vendorReady (.ld i) iss s) : mbxOnly (.ld i) (vendor (.ld i) iss f) s = .next ((f s).under s) := by
  rw [mbxOnly_vendor hr, mbxIn_ld]

theorem next_under {t u : State} (h : t = u) : (.next (t.under s) : Out State) = .next (u.under s) := h ▸ rfl

/-! ### Versioned tables (R353, R354) -/

/-- A base that R353 allows a table is at a tile and within the address range. -/
theorem base_accepted (ha : base % 65536 = 0) (hb : base < 2 ^ 52) : ¬ (base % 65536 ≠ 0 ∨ 2 ^ 52 ≤ base) := by omega

theorem exec_vtOpen_free (hr : vendorReady (.ld i) .priv s) (ha : base % 65536 = 0) (hb : base < 2 ^ 52)
    (hf : (List.range 256).find? (fun h => !(vtGet s h).isOpen) = some h) :
    exec (.vtOpen (.ld i) base) s = .next (((vtSet s h { isOpen := true, tenant := ldTenant s i, cur := base }).reply (.ld i) St.ok (natLe 2 h)).under s) := by
  rw [exec_vtOpen, execVtOpen, mbxOnly_vendor_ld hr, if_neg (base_accepted ha hb), hf]
  rfl

theorem exec_vtSwitch_settled (hr : vendorReady (.ld i) .priv s) (hm : vtMine s (.ld i) h = true) (ha : base % 65536 = 0) (hb : base < 2 ^ 52)
    (hn : (vtGet s h).next = none) (ho : (vtGet s h).old = none) :
    exec (.vtSwitch (.ld i) h base) s = .next (((vtSet s h { vtGet s h with next := some base }).reply (.ld i) St.ok).under s) := by
  have hgo : ¬ ((!vtMine s (.ld i) h) = true ∨ base % 65536 ≠ 0 ∨ 2 ^ 52 ≤ base) := by
    rw [hm]
    exact not_or_intro Bool.false_ne_true (base_accepted ha hb)
  have hidle : ¬ ((vtGet s h).next.isSome = true ∨ (vtGet s h).old.isSome = true) := by simp [hn, ho]
  rw [exec_vtSwitch, execVtSwitch, mbxOnly_vendor_ld hr, if_neg hgo, if_neg hidle]

theorem exec_vtClose_unbound (hr : vendorReady (.ld i) .priv s) (hm : vtMine s (.ld i) h = true) (hs : vtSteps s h = 0) :
    exec (.vtClose (.ld i) h) s = .next (((vtSet s h {}).reply (.ld i) St.ok).under s) := by
  have hgo : ¬ (!vtMine s (.ld i) h) = true := by simp [hm]
  rw [exec_vtClose, execVtClose, mbxOnly_vendor_ld hr, if_neg hgo, if_neg (Nat.not_lt.mpr hs.le)]

/-! ### Collections (R363 to R365) -/

/-- The tiles of a collection's areas, as runs of stored tiles. -/
def areaRuns (u : State) (ten : Nat) (c : CollRec) : List (Nat × Nat) := c.areas.flatMap (fun a => tileRuns (rangeIds u ten a.1 a.2))
/-- A collection that is taken meets the runs. -/
def meetsTaken (u : State) (runs : List (Nat × Nat)) : Bool :=
  u.hnd.colls.any (fun e => e.2.taken && e.2.areas.any (fun a => runs.any (fun b => overlaps a.1 a.2 b.1 b.2)))
/-- An enabled coherent window meets the runs. -/
def meetsWindow (u : State) (runs : List (Nat × Nat)) : Bool :=
  (List.range 64).any (fun n => u.flag (F.COH_WIN_BASE_EN n) && runs.any (fun b => overlaps b.1 b.2 (u.fld (F.COH_WIN_BASE_BASE n)) (u.fld (F.COH_WIN_END_END n) - u.fld (F.COH_WIN_BASE_BASE n))))
/-- The status of the first tile of the areas that the tenant may not read. -/
def areaRefusal (u : State) (ten : Nat) (c : CollRec) : Option Nat :=
  (c.areas.flatMap (fun a => (List.range a.2).map (fun i => (xlate u ten (a.1 + 65536 * i) Need.r none).1))).find? (· != St.ok)

/-- A record and a table that read, that pass R363 and R364 and whose areas meet nothing take the lowest free collection (R365). -/
theorem exec_strnOpen_free (hr : vendorReady (.ld i) .ten s) {c : CollRec} {d tab : List Byte} {r q : Rd}
    (hd : snapBytes (cmdStep (ldTenant s i)) none { st := St.ok, cache := [], s := withUps s ups } va 64 = (d, r)) (hread : r.st = St.ok) (hc : collRec d = c) (hok : c.ok = true)
    (ht : areaBytes (cmdStep (ldTenant s i)) r c.ctab (8 * c.ncent) = (tab, q)) (htab : q.st = St.ok) (hl : listsOk c (listsOf c tab) = true)
    (hm : meetsTaken q.s (areaRuns q.s (ldTenant s i) c) = false) (hw : meetsWindow q.s (areaRuns q.s (ldTenant s i) c) = false)
    (hx : areaRefusal q.s (ldTenant s i) c = none) (hf : (List.range 64).find? (fun h => !(collGet q.s h).taken) = some h) :
    exec (.strnOpen (.ld i) va ups) s = .next (((collSet q.s h
      { taken := true, pend := true, tenant := ldTenant s i, va := va, cr := c, areas := areaRuns q.s (ldTenant s i) c }).reply (.ld i) St.ok (natLe 2 h)).under s) := by
  subst hc
  have hten : (mbxTenant s (.ld i)).getD 0 = ldTenant s i := rfl
  have hrec : ¬ (!(collRec d).ok) = true := by rw [hok]; exact Bool.false_ne_true
  rw [areaRuns, meetsTaken] at hm
  rw [areaRuns, meetsWindow] at hw
  rw [areaRefusal] at hx
  rw [exec_strnOpen, execStrnOpen, mbxOnly_vendor_ld hr, hten]
  refine next_under ?_
  -- Without iota the pairs the reads return stay whole, for `hd` and `ht` to rewrite.
  dsimp -iota only
  rw [hd]
  refine (if_neg (not_not_intro hread)).trans ((if_neg hrec).trans ?_)
  rw [ht]
  refine (if_neg (not_not_intro htab)).trans ((if_neg ?judged).trans ?_)
  case judged => rw [hl, hm, hw]; decide
  rw [hx, hf]
  rfl

theorem exec_strnClose_unbound (hr : vendorReady (.ld i) .ten s) (hh : h < 64) (ht : (collGet s h).taken = true) (hten : (collGet s h).tenant = ldTenant s i)
    (hp : (collGet s h).pend = false) (hb : collBound s h = 0) :
    exec (.strnClose (.ld i) h) s = .next (((collSet s h { collGet s h with pend := true }).reply (.ld i) St.ok).under s) := by
  have hgo : ¬ (64 ≤ h ∨ (!(collGet s h).taken) = true ∨ some (collGet s h).tenant ≠ mbxTenant s (.ld i)) := by simp [ht, hten, mbxTenant, hh]
  have hidle : ¬ ((collGet s h).pend = true ∨ 0 < collBound s h) := by simp [hp, hb]
  rw [exec_strnClose, execStrnClose, mbxOnly_vendor_ld hr, if_neg hgo, if_neg hidle]

/-! ### The commit of a mutation (R274, R295, R377, R378) -/

/-- The lines a mutation must have back before it commits: of the ID list, and of the tiles it changes. -/
def mutHeld (s : State) (h : Nat) (x : Step) : List Nat :=
  resLines s x (mutOf x.body) ++ mutLines s x (mutRun x (mutOf x.body) (collGet s h).cr { st := St.ok, img := [], dirty := [], lists := [], s := s }).2

theorem exec_mutationCommit_none (hon : s.on = true) (hx : nextMut s h = none) : exec (.mutationCommit h) s = .next s := by
  rw [exec_mutationCommit, execMutationCommit, hubOnly_on hon, hx]
  rfl

theorem exec_mutationCommit_held (hon : s.on = true) (hx : nextMut s h = some x) (hl : mutHeld s h x ≠ []) :
    exec (.mutationCommit h) s = .next ((backInvalidate s (mutHeld s h x)).under s) := by
  rw [exec_mutationCommit, execMutationCommit, hubOnly_on hon, hx]
  exact next_under (if_neg (mt List.isEmpty_iff.mp hl))

theorem exec_mutationCommit_free (hon : s.on = true) (hx : nextMut s h = some x) (hl : mutHeld s h x = []) :
    exec (.mutationCommit h) s = .next ((orLater (commitMut h x) id s).under s) := by
  rw [exec_mutationCommit, execMutationCommit, hubOnly_on hon, hx]
  exact next_under (if_pos (List.isEmpty_iff.mpr hl))

/-- Settles O55: each command past the LD's mailbox or the power gate, then the branch its hypotheses pick. That the handle is
answered as a u16 (log 28) and that the mutations of a handle commit in the order they were dispatched (log 51) are the model's
choice (both DESIGN CHOICE). -/
theorem handlesOpenSwitchCloseAndCommit : Obligations.HandlesOpenSwitchCloseAndCommit := by
  refine ⟨?vtOpen, ?vtSwitch, ?vtClose, ?strnOpen, ?strnClose, ?noMutation, ?linesHeld, ?commits, ?commit⟩
  case vtOpen => exact fun s i base h hr ha hb hf => exec_vtOpen_free hr ha hb hf
  case vtSwitch => exact fun s i h base hr hm ha hb hn ho => exec_vtSwitch_settled hr hm ha hb hn ho
  case vtClose => exact fun s i h hr hm hs => exec_vtClose_unbound hr hm hs
  case strnOpen =>
    intro s i va h ups hr x a c b u runs hread hrec htab hlists hmeets hcoh hbad hfree
    exact exec_strnOpen_free hr Prod.mk.eta.symm hread rfl hrec Prod.mk.eta.symm htab hlists hmeets hcoh hbad hfree
  case strnClose => exact fun s i h hr hh ht hten hp hb => exec_strnClose_unbound hr hh ht hten hp hb
  case noMutation => exact fun s h hon hx => exec_mutationCommit_none hon hx
  case linesHeld => exact fun s h x hon hx hl => exec_mutationCommit_held hon hx hl
  case commits => exact fun s h x hon hx hl => exec_mutationCommit_free hon hx hl
  case commit => exact fun s h x => rfl

end Sys2Proof.Proofs
end

section
/-! PROOFS. spec/14_extents_leases_composition.md: the 64-byte image of a composition entry (Table 14-4), and the commands that change
the composition map (R396, R397, R403). -/

namespace Sys2Proof.Proofs

open Sys2Proof Sys2Proof.Machine Sys2Proof.Laws

variable {s : State} {mb : Mbx} {x : Piece} {d : List Byte} {i o tg va ck : Nat}

/-! ### The image of an entry (Table 14-4) -/

/-- The image of an entry, each field in front of the fields that follow it. -/
theorem pieceBytes_fields (x : Piece) : pieceBytes x =
    natLe 1 x.state ++ (natLe 1 (b2n x.home) ++ (natLe 2 x.tenant ++ (natLe 4 x.tiles ++ (natLe 8 x.va ++ (natLe 2 x.owner ++ (natLe 2 x.ownerTag
    ++ (natLe 2 x.chgEpoch ++ (natLe 2 x.recHub ++ (natLe 8 x.ownerVa ++ (natLe 4 x.recIdx ++ (natLe 4 x.hoSeq ++ (natLe 8 x.newVa
    ++ (natLe 2 x.newOwner ++ (natLe 2 x.newTag ++ (natLe 4 x.ckpt ++ natLe 8 x.hoStart))))))))))))))) := by
  simp only [pieceBytes, List.append_assoc]

theorem pieceBytes_length (x : Piece) : (pieceBytes x).length = 64 := by simp [pieceBytes]

/-- The HOME bit is read from the byte it stands in alone. -/
theorem bitOf_b2n_byte (b : Bool) : bitOf (b2n b % 256) 0 = b := by cases b <;> decide

/-- The widths of an entry's fields in Table 14-4. -/
structure PieceFits (x : Piece) : Prop where
  state : x.state < 256
  tenant : x.tenant < 65536
  tiles : x.tiles < 2 ^ 32
  va : x.va < 2 ^ 64
  owner : x.owner < 65536
  ownerTag : x.ownerTag < 65536
  chgEpoch : x.chgEpoch < 65536
  recHub : x.recHub < 65536
  ownerVa : x.ownerVa < 2 ^ 64
  recIdx : x.recIdx < 2 ^ 32
  hoSeq : x.hoSeq < 2 ^ 32
  newVa : x.newVa < 2 ^ 64
  newOwner : x.newOwner < 65536
  newTag : x.newTag < 65536
  ckpt : x.ckpt < 2 ^ 32
  hoStart : x.hoStart < 2 ^ 64

theorem pieceImage_pieceBytes (h : PieceFits x) : pieceImage (pieceBytes x) = x := by
  obtain ⟨hstate, htenant, htiles, hva, howner, hownerTag, hchgEpoch, hrecHub, hownerVa, hrecIdx, hhoSeq, hnewVa, hnewOwner, hnewTag, hckpt, hhoStart⟩ := h
  simp only [Nat.reducePow] at htiles hva hownerVa hrecIdx hhoSeq hnewVa hckpt hhoStart
  rw [pieceImage, pieceBytes_fields]
  simp only [getLE_skip, getLE_first, getLE_last, Nat.reduceLeDiff, Nat.reduceSub, Nat.reducePow, pow_one, le_refl, Nat.sub_self, bitOf_b2n_byte, Nat.mod_eq_of_lt, *]

/-- Settles O13: each field stands at its own bytes of the image, and fits them. -/
theorem compositionEntriesReadBackFromTheirImage : Obligations.CompositionEntriesReadBackFromTheirImage :=
  fun x hstate htenant htiles hva howner hownerTag hchgEpoch hrecHub hownerVa hrecIdx hhoSeq hnewVa hnewOwner hnewTag hckpt hhoStart =>
    ⟨pieceBytes_length x, pieceImage_pieceBytes
      ⟨hstate, htenant, htiles, hva, howner, hownerTag, hchgEpoch, hrecHub, hownerVa, hrecIdx, hhoSeq, hnewVa, hnewOwner, hnewTag, hckpt, hhoStart⟩⟩

/-! ### The rows of the map's commands -/

theorem exec_compSet : exec (.compSet mb i d) s = execCompSet mb i d s := rfl
theorem exec_compClear : exec (.compClear mb i) s = execCompClear mb i s := rfl
theorem exec_handover : exec (.handover mb i o tg va ck) s = execHandover mb i o tg va ck s := rfl

/-! ### Changes for the next boundary (R396, R397) -/

@[simp] theorem mbxIn_ext : (mbxIn mb s).ext = s.ext := core_ext mbxIn_core
@[simp] theorem pieceGet_mbxIn : pieceGet (mbxIn mb s) i = pieceGet s i := by simp only [pieceGet, mbxIn_ext]

theorem exec_compSet_kept (h : vendorReady mb .sys s) (hok : compOk (mbxIn mb s) i (pieceImage d) d = true) (hst : (pieceGet s i).state ≠ 2) :
    exec (.compSet mb i d) s = .next (((compNext (mbxIn mb s) i (pieceImage d)).reply mb St.ok).under s) := by
  rw [exec_compSet, execCompSet, mbxOnly_vendor h]
  simp only [hok, pieceGet_mbxIn, hst, Bool.not_true, Bool.false_eq_true, if_false]

theorem exec_compClear_kept (h : vendorReady mb .sys s) (hi : i < 65536) (hst : (pieceGet s i).state ≠ 2) :
    exec (.compClear mb i) s = .next (((compNext (mbxIn mb s) i {}).reply mb St.ok).under s) := by
  rw [exec_compClear, execCompClear, mbxOnly_vendor h]
  simp only [pieceGet_mbxIn, hst, Nat.not_le.mpr hi, if_false]

/-! ### HANDOVER (R403) -/

/-- The entry of a hand-over that begins at an instant: the operands, and the next HO_SEQ. -/
def handedOver (x : Piece) (o tg va ck t : Nat) : Piece :=
  { x with state := 2, hoSeq := (x.hoSeq + 1) % 2 ^ 32, newVa := va, newOwner := o, newTag := tg, ckpt := ck, hoStart := t }

/-- The state in which the record home sends HO_BEGIN: the entry is in its hand-over, of which nothing is known yet. -/
def hoStarted (a : State) (i : Nat) (x : Piece) (o tg va ck : Nat) : State := hoSet (pieceSet a i (handedOver x o tg va ck a.time)) { idx := i }

theorem exec_handover_begins (h : vendorReady mb .sys s) (hi : i < 65536) (hst : (pieceGet s i).state ≠ 0) (hhome : (pieceGet s i).home = true) (ho : o < 4096) (htg : tg < 0xFFFF)
    (hva : va + 65536 * ((pieceGet s i).tiles - 1) < 2 ^ 52)
    (hone : s.ext.pieces.any (fun e => e.2.tenant == (pieceGet s i).tenant && e.2.home && e.2.state == 2) = false) (hnext : s.ext.next.any (fun e => e.1 == i) = false) :
    exec (.handover mb i o tg va ck) s = .next ((([(pieceGet s i).owner, o].eraseDups.foldl
      (fun t h => hoSend t i h 0x01 0 (epochOf t (pieceGet s i).tenant) o 0) (hoStarted (mbxIn mb s) i (pieceGet s i) o tg va ck)).reply mb St.ok).under s) := by
  have hform : ¬ (65536 ≤ i ∨ (pieceGet s i).state = 0 ∨ (!(pieceGet s i).home) = true ∨ 4096 ≤ o ∨ 0xFFFF ≤ tg ∨ 2 ^ 52 ≤ va + 65536 * ((pieceGet s i).tiles - 1)) := by
    simp only [hst, hhome, Nat.not_le.mpr hi, Nat.not_le.mpr ho, Nat.not_le.mpr htg, Nat.not_le.mpr hva, Bool.not_true, Bool.false_eq_true, or_self, not_false_iff]
  have hfree : ¬ (s.ext.pieces.any (fun e => e.2.tenant == (pieceGet s i).tenant && e.2.home && e.2.state == 2) = true ∨ s.ext.next.any (fun e => e.1 == i) = true) := by
    simp only [hone, hnext, Bool.false_eq_true, or_self, not_false_iff]
  rw [exec_handover, execHandover, mbxOnly_vendor h]
  refine next_under ?_
  simp only [mbxIn_ext, pieceGet_mbxIn]
  exact (if_neg hform).trans (if_neg hfree)

/-- Settles O45: each command past its mailbox, then the branch its hypotheses pick. -/
theorem compositionEntriesChangeAtABoundary : Obligations.CompositionEntriesChangeAtABoundary := by
  refine ⟨?set, ?clear, ?handover⟩
  case set => exact fun s mb i d h hok hst => exec_compSet_kept h hok hst
  case clear => exact fun s mb i h hi hst => exec_compClear_kept h hi hst
  case handover => exact fun s mb i o tg va ck h hi hst hhome ho htg hva hone hnext => exec_handover_begins h hi hst hhome ho htg hva hone hnext

end Sys2Proof.Proofs
end

section
/-! PROOFS. spec/14_extents_leases_composition.md: the messages of a hand-over (R403, R405 to R409, Table 14-6), its timers and the
requests it holds (R404, R406, R407, R409). -/

namespace Sys2Proof.Proofs

open Sys2Proof Sys2Proof.Machine Sys2Proof.Laws

variable {s u : State} {c a : Cell} {x : Piece} {f : Ho → Nat → Ho} {i inp k e id : Nat}

/-! ### The inbox (R409) -/

/-- A row that takes one message of the hand-over inbox: its command, the message's code, and the message's effect. -/
abbrev MsgRow : Type := (Nat → Cell → Instr) × Nat × (Cell → State → State)

/-- The row takes its message at EXT_INBOX. -/
def MsgRow.AtInbox (r : MsgRow) : Prop := ∀ inp c s, exec (r.1 inp c) s = hubOnly (inboxRow extInbox r.2.1 r.2.2 inp c) s

/-- The rows of Table 14-6. (Noncomputable as `cellRows` is.) -/
noncomputable def hoRows : List MsgRow :=
  [(.hoBegin, 0x01, hoBegin), (.hoReady, 0x02, hoReady), (.hoRelease, 0x03, hoRelease), (.hoCommit, 0x04, hoCommit), (.hoRevert, 0x05, hoReverted), (.ownQuery, 0x06, ownQuery),
    (.ownAnswer, 0x07, ownAnswer)]

theorem hoRows_atInbox : ∀ r ∈ hoRows, MsgRow.AtInbox r := by
  simp only [hoRows, List.forall_mem_cons, List.not_mem_nil, false_imp_iff, implies_true, and_true]
  refine ⟨?begin, ?ready, ?release, ?commit, ?revert, ?query, ?answer⟩
  all_goals exact fun _ _ _ => rfl

/-- A message of the row's code has its effect and is acknowledged with OK. -/
theorem exec_message_here {r : MsgRow} (hr : r.AtInbox) (h : cellHere s inp c a u) (hm : isMsg extInbox r.2.1 a = true) :
    exec (r.1 inp c) s = .next ((giveBack (respond (r.2.2 a u) a 0x12 St.ok 0 []) inp a.vn).under s) := by
  rw [exec_arriveHere_here (hr inp c s) h, if_pos hm, takeMsg]

/-! ### A hand-over that is over here (R409) -/

theorem hoBegin_applied (h : applied s c = true) : hoBegin c s = s := if_pos h
theorem hoResult_applied (h : applied s c = true) : hoResult f c s = s := if_pos h
theorem hoCommit_applied (h : applied s c = true) : hoCommit c s = s := if_pos h
theorem hoReverted_applied (h : applied s c = true) : hoReverted c s = s := if_pos h

/-! ### What a message does to its entry (R403, R405 to R408) -/

/-- The entry that HO_BEGIN leaves: the message's fields, and the present time away from the record home. -/
def begunPiece (s : State) (c : Cell) (x : Piece) : Piece :=
  { x with state := 2, hoSeq := getLE c.payload 8 4, newOwner := getLE c.payload 14 2, newVa := getLE c.payload 24 8, newTag := getLE c.payload 32 2, ckpt := getLE c.payload 36 4,
           hoStart := if x.home then x.hoStart else s.time }

/-- The entry and the hand-over's record that HO_BEGIN leaves. -/
def hoBegun (s : State) (c : Cell) (i : Nat) (x : Piece) : State := hoSet (pieceSet s i (begunPiece s c x)) { hoGet s i with begun := true }

/-- An owner of an entry not begun begins it; the new owner answers with its check (R403, R405). -/
theorem hoBegin_entry (ha : applied s c = false) (hp : pieceOfMsg s c = some (i, x)) (hb : (hoGet s i).begun = false) (ho : x.owner = s.hubId ∨ getLE c.payload 14 2 = s.hubId) :
    hoBegin c s = if (begunPiece s c x).newOwner = (hoBegun s c i x).hubId
      then hoSend (hoBegun s c i x) i (recOf (hoBegun s c i x) i (begunPiece s c x)).1 0x02 (readyStatus (hoBegun s c i x) (begunPiece s c x)) 0 (begunPiece s c x).newOwner 0
      else hoBegun s c i x := by
  have hgo : ¬ ((hoGet s i).begun = true ∨ (x.owner ≠ s.hubId ∧ getLE c.payload 14 2 ≠ s.hubId)) := by
    rw [hb]
    exact not_or_intro Bool.false_ne_true (fun hn => ho.elim hn.1 hn.2)
  rw [hoBegin, ha, hp]
  exact if_neg hgo

/-- A result reaches the record home of a hand-over in progress without a commit (R403). -/
theorem hoResult_entry (ha : applied s c = false) (hp : pieceOfMsg s c = some (i, x)) (hh : x.home = true) (hst : x.state = 2) (hq : x.hoSeq = getLE c.payload 8 4)
    (hc : (hoGet s i).commit = none) : hoResult f c s = hoDecide (hoSet s (f (hoGet s i) (getLE c.payload 1 1))) i := by
  have hgo : ¬ ((!x.home) = true ∨ x.state ≠ 2 ∨ x.hoSeq ≠ getLE c.payload 8 4 ∨ (hoGet s i).commit.isSome = true) := by simp [hh, hst, hq, hc]
  rw [hoResult, ha, hp]
  exact if_neg hgo

/-- The entry with the fields of a commit. -/
def commitFields (s : State) (c : Cell) (i : Nat) (x : Piece) : State :=
  pieceSet s i { x with hoSeq := getLE c.payload 8 4, newOwner := getLE c.payload 14 2, newVa := getLE c.payload 24 8, newTag := getLE c.payload 32 2 }

/-- A commit whose boundary has passed is applied at once and counted as late; any other is kept for its boundary (R408). -/
theorem hoCommit_entry (ha : applied s c = false) (hp : pieceOfMsg s c = some (i, x)) (he : e = getLE c.payload 12 2) (hk : k = getLE c.payload 16 6) :
    hoCommit c s = if k ≤ (commitFields s c i x).tk.num
      then pump (((epochAdvance (commitPiece (commitFields s c i x) i e) x.tenant e (recOf (commitFields s c i x) i x).1 k).bump F.EXT_HO_LATE).notice 0x0813 [] x.tenant)
      else hoSet (commitFields s c i x) { hoGet (commitFields s c i x) i with commit := some (k, e) } := by
  subst he hk
  rw [hoCommit, ha, hp]
  rfl

theorem hoReverted_entry (ha : applied s c = false) (hp : pieceOfMsg s c = some (i, x)) (hst : x.state = 2) (hq : x.hoSeq = getLE c.payload 8 4) :
    hoReverted c s = revertPiece s i := by
  rw [hoReverted, ha, hp]
  exact if_pos (And.intro hq hst)

/-! ### Ownership queries (R407) -/

/-- What the record home answers about its entry: the outcome, or E_BUSY while there is none. -/
def ownReply (s : State) (c : Cell) (i : Nat) (x : Piece) : State :=
  if x.state = 2 then (match (hoGet s i).commit with
    | some (k, e) => hoSend s i c.src 0x07 St.ok e x.newOwner k
    | none => hoSend s i c.src 0x07 St.busy 0 x.owner 0)
  else hoSend s i c.src 0x07 St.ok (epochOf s x.tenant) x.owner 0

theorem ownQuery_home (hp : pieceOfMsg s c = some (i, x)) (hh : x.home = true) : ownQuery c s = ownReply s c i x := by
  simp only [ownQuery, hp, hh, Bool.not_true, Bool.false_eq_true, if_false, ownReply]
  by_cases hst : x.state = 2
  · rw [hst, if_pos rfl]
    cases (hoGet s i).commit <;> rfl
  · rw [if_neg hst]
    split
    case h_3 => rfl
    all_goals exact absurd ‹x.state = 2› hst

theorem ownAnswer_ok (hp : pieceOfMsg s c = some (i, x)) (hst : getLE c.payload 1 1 = St.ok) :
    ownAnswer c s = if getLE c.payload 14 2 = x.owner then hoReverted c s else hoCommit c s := by
  rw [ownAnswer, if_neg (not_not.mpr hst), hp]

/-- Settles O46: one lemma over the rows, and each message's effect by the branch that its entry picks. -/
theorem handOverMessagesAreTakenAndAcknowledged : Obligations.HandOverMessagesAreTakenAndAcknowledged := by
  refine ⟨?taken, ?ended, ?begins, ?results, ?commits, ?reverts, ?query, ?answer⟩
  case taken => exact fun r hr s u inp c a h hm => exec_message_here (hoRows_atInbox r hr) h hm
  case ended => exact fun s c h => ⟨hoBegin_applied h, hoResult_applied h, hoResult_applied h, hoCommit_applied h, hoReverted_applied h⟩
  case begins => exact fun s c i x ha hp hb ho => hoBegin_entry ha hp hb ho
  case results => exact fun s c i x ha hp hh hst hq hc => ⟨hoResult_entry ha hp hh hst hq hc, hoResult_entry ha hp hh hst hq hc⟩
  case commits =>
    intro s c i x ha hp k e t
    exact ⟨fun hk => (hoCommit_entry ha hp rfl rfl).trans (if_neg (Nat.not_le.mpr hk)), fun hk => (hoCommit_entry ha hp rfl rfl).trans (if_pos hk)⟩
  case reverts => exact fun s c i x ha hp hst hq => hoReverted_entry ha hp hst hq
  case query =>
    intro s c i x hp hh
    rw [ownQuery_home hp hh, ownReply]
    refine ⟨fun hc hst => ?_, fun k e hc hst => ?_, fun hst => if_neg hst⟩
    · rw [if_pos hst, hc]
    · rw [if_pos hst, hc]
  case answer => exact fun s c i x hp hst => ownAnswer_ok hp hst

/-! ### The rows of the timers -/

theorem exec_hoReleaseCheck : exec (.hoReleaseCheck i) s = execHoReleaseCheck i s := rfl
theorem exec_hoTimeout : exec (.hoTimeout i) s = execHoTimeout i s := rfl
theorem exec_ownQueryTimer : exec (.ownQueryTimer i) s = execOwnQueryTimer i s := rfl
theorem exec_compNoOwner : exec (.compNoOwner id) s = execCompNoOwner id s := rfl
theorem exec_hoMessageRetry : exec (.hoMessageRetry id) s = execHoMessageRetry id s := rfl

/-- Settles O47: each row past the power gate, then the branch its hypotheses pick. That the reason of a revert at the time bound is a
free value is the model's choice (log 59, DESIGN CHOICE). -/
theorem handOverTimersAndHeldRequests : Obligations.HandOverTimersAndHeldRequests := by
  refine ⟨?releaseCheck, ?timeout, ?query, ?noOwner, ?retry⟩
  case releaseCheck =>
    intro s i hon hst ho hb hr hd
    have hgo : (pieceGet s i).state = 2 ∧ (pieceGet s i).owner = s.hubId ∧ (hoGet s i).begun = true ∧ (!(hoGet s i).released) = true ∧ pieceDrained s (pieceGet s i) = true :=
      ⟨hst, ho, hb, congrArg not hr, hd⟩
    rw [exec_hoReleaseCheck, execHoReleaseCheck, hubOnly_on hon]
    exact next_under (if_pos hgo)
  case timeout =>
    intro s i hon hh hst hc
    rw [exec_hoTimeout, execHoTimeout, hubOnly_on hon]
    exact next_under (if_pos ⟨hh, hst, Option.isNone_iff_eq_none.mpr hc⟩)
  case query =>
    intro s i r hon hr hst hc w
    rw [exec_ownQueryTimer, execOwnQueryTimer, hubOnly_on hon]
    simp only [hr]
    exact next_under (if_pos ⟨hst, hc⟩)
  case noOwner =>
    intro s id i r hon hr hw
    rw [exec_compNoOwner, execCompNoOwner, hubOnly_on hon]
    simp only [hr, hw, State.upTo]
  case retry =>
    intro s id m hon hm
    rw [exec_hoMessageRetry, execHoMessageRetry, hubOnly_on hon]
    simp only [hm, State.upTo]

end Sys2Proof.Proofs
end

section
/-! PROOFS. spec/14_extents_leases_composition.md: extents from EXT_ADD to EXT_RELEASED (R384, R385, R387 to R392, R394, R395, Table
14-2). -/

namespace Sys2Proof.Proofs

open Sys2Proof Sys2Proof.Machine Sys2Proof.Laws

variable {s u : State} {mb : Mbx} {w : Option Mbx} {f : State → State} {x : ExtFields} {r : DcRange} {l : List DcRange} {e : Nat × Ext} {ids : List Nat}
  {i n ld lease seq : Nat}

/-! ### The rows -/

theorem exec_extAdd : exec (.extAdd mb x) s = execExtAdd mb x s := rfl
theorem exec_extRevoke : exec (.extRevoke mb lease) s = execExtRevoke mb lease s := rfl
theorem exec_extRelease : exec (.extRelease mb lease) s = execExtRelease mb lease s := rfl
theorem exec_releaseDc : exec (.releaseDc ld r) s = execReleaseDc ld r s := rfl
theorem exec_addDcResponse : exec (.addDcResponse ld l) s = execAddDcResponse ld l s := rfl
theorem exec_extOfferLapsed : exec (.extOfferLapsed i) s = execExtOfferLapsed i s := rfl
theorem exec_leaseRenew : exec (.leaseRenew mb lease seq) s = execLeaseRenew mb lease seq s := rfl
theorem exec_extGrace : exec (.extGrace i) s = execExtGrace i s := rfl
theorem exec_leaseExpire : exec (.leaseExpire i) s = execLeaseExpire i s := rfl
theorem exec_extDrainDone : exec (.extDrainDone i) s = execExtDrainDone i s := rfl
theorem exec_extDrainCut : exec (.extDrainCut i) s = execExtDrainCut i s := rfl
theorem exec_extReleased : exec (.extReleased i) s = execExtReleased i s := rfl

/-- A CXL command of a logical device's mailbox that is ready does its own work. -/
theorem hubOnly_cxl_ld (h : cxlReady (.ld n) s) : hubOnly (cxlCmd (.ld n) f) s = .next ((f s).under s) := by
  have hon : s.on = true := h.1.1
  have hgate : mbxGate (.ld n) (cxlCmd (.ld n) f) s = cxlCmd (.ld n) f s := by simp [mbxGate, hon]
  rw [hubOnly_on hon, ← hgate, gate_cxl h, mbxIn_ld]

/-! ### Creation (R385) -/

/-- The extent that EXT_ADD makes at an instant, of the fields of its command. -/
def newExt (x : ExtFields) (gen period time : Nat) : Ext :=
  { state := if bitOf x.flags 1 then 1 else 2, zero := bitOf x.flags 0, dcd := bitOf x.flags 1, tenant := x.tenant, gen := gen, start := x.start, len := x.len, holder := x.holder,
    rights := x.rights, period := if x.period = 0 then period else x.period, renewed := if bitOf x.flags 1 then 0 else time, offered := time }

theorem exec_extAdd_free (h : vendorReady mb .sys s) (hok : extAddOk (mbxIn mb s) x = true)
    (hf : (List.range 16384).find? (fun i => (extGet (mbxIn mb s) i).state == 0) = some i) {v : Ext}
    (hv : v = newExt x (extGet (mbxIn mb s) i).gen ((mbxIn mb s).fld F.EXT_CTL_PERIOD) (mbxIn mb s).time) :
    exec (.extAdd mb x) s = .next (((if bitOf x.flags 1 then dcEvent (extSet (mbxIn mb s) i v) i 0 else extSet (mbxIn mb s) i v).reply mb St.ok (natLe 4 (leaseId i v))).under s) := by
  subst hv
  rw [exec_extAdd, execExtAdd, mbxOnly_vendor h]
  simp only [hok, hf, Bool.not_true, Bool.false_eq_true, if_false]
  rfl

/-! ### The fence by command (R392) -/

/-- No tile of an extent that its release zeroises is part of an open collection (R366). -/
abbrev NoCollTile (s : State) (i : Nat) : Prop := (extGet s i).zero = true → (extTiles s (extGet s i)).any (collTile s) = false

/-- The extent's tiles are locked for zeroisation. -/
abbrev LocksGranted (s : State) (i : Nat) (ids : List Nat) (u : State) : Prop := lockRuns s .zeroise (tileRuns (extTiles s (extGet s i))) = (St.ok, ids, u)

/-- The release of an extent whose locks are granted fences it with them, and answers OK (log 54, DEDUCED). -/
theorem releaseCmd_granted (hc : NoCollTile s i) (hl : LocksGranted s i ids u) : releaseCmd s i w = (St.ok, fence u i u.time false ids w) := by
  have hgo : ¬ ((extGet s i).zero = true ∧ (extTiles s (extGet s i)).any (collTile s) = true) := fun ⟨hz, ht⟩ => Bool.eq_false_iff.mp (hc hz) ht
  simp only [releaseCmd, if_neg hgo, hl, ne_eq, not_true_eq_false, if_false]

theorem exec_extRevoke_granted (h : vendorReady mb .sys s) (hf : leaseFor (mbxIn mb s) lease none = some i) (hc : NoCollTile (mbxIn mb s) i) (hl : LocksGranted (mbxIn mb s) i ids u) :
    exec (.extRevoke mb lease) s = .next (((if (extGet (mbxIn mb s) i).dcd = true then dcEvent (fence u i u.time false ids none) i 2 else fence u i u.time false ids none).reply mb St.ok).under s) := by
  rw [exec_extRevoke, execExtRevoke, mbxOnly_vendor h]
  simp only [hf, releaseCmd_granted hc hl, true_and]

theorem exec_extRelease_granted (h : vendorReady (.ld n) .ten s) (hf : leaseFor s lease (some (ldReq s (.ld n))) = some i) (hc : NoCollTile s i) (hl : LocksGranted s i ids u) :
    exec (.extRelease (.ld n) lease) s = .next (((fence u i u.time false ids none).reply (.ld n) St.ok).under s) := by
  rw [exec_extRelease, execExtRelease, mbxOnly_vendor_ld h]
  simp only [hf, releaseCmd_granted hc hl]

/-! ### Dynamic capacity (R387) -/

/-- RELEASE_DC holds its mailbox until the extent is FREE. -/
theorem exec_releaseDc_granted (h : cxlReady (.ld ld) s) (hf : (dcdExts s ld 2 ++ dcdExts s ld 3).find? (fun e => r.dpa == extDpa s ld e.2 && r.len == e.2.len) = some e)
    (hc : NoCollTile s e.1) (hl : LocksGranted s e.1 ids u) :
    exec (.releaseDc ld r) s = .next (((fence u e.1 u.time false ids (some (.ld ld))).hold (.ld ld)).under s) := by
  rw [exec_releaseDc, execReleaseDc, hubOnly_cxl_ld h]
  simp only [hf, releaseCmd_granted hc hl, if_true]

/-- A range names an offer of the device. -/
def namesOffer (s : State) (ld : Nat) (r : DcRange) (x : Ext) : Bool := r.dpa == extDpa s ld x && r.len == x.len

/-- Every range of the response names an offer: the offers named become LIVE, the others end. -/
theorem exec_addDcResponse_named (h : cxlReady (.ld ld) s) (hn : ∀ r ∈ l, ∃ e ∈ dcdExts s ld 1, r.dpa = extDpa s ld e.2 ∧ r.len = e.2.len) :
    exec (.addDcResponse ld l) s = .next ((((dcdExts s ld 1).foldl (fun t e =>
      if l.any (fun r => namesOffer s ld r e.2) then extSet t e.1 { e.2 with state := 2, renewed := t.time } else offerLapse t e.1) s).cxl (.ld ld) .success).under s) := by
  have hall : l.all (fun r => (dcdExts s ld 1).any (fun e => namesOffer s ld r e.2)) = true := by
    simpa only [List.all_eq_true, List.any_eq_true, namesOffer, Bool.and_eq_true, beq_iff_eq] using hn
  have hgo : ¬ (!l.all (fun r => (dcdExts s ld 1).any (fun e => namesOffer s ld r e.2))) = true := by simp only [hall, Bool.not_true, Bool.false_eq_true, not_false_iff]
  rw [exec_addDcResponse, execAddDcResponse, hubOnly_cxl_ld h]
  exact next_under (if_neg hgo)

/-! ### The release of an extent (R395) -/

/-- A lock that the extent's release asked for is not granted yet. -/
def lockWanting (s : State) (i : Nat) : Bool := (extGet s i).locks.any (fun id => s.st.locks.any (fun l => l.id == id && !l.held))

/-- A release can go on: its locks are held, and no tile to zeroise must wait. -/
theorem release_goes_on (hst : (extGet s i).state = 5) (hl : lockWanting s i = false) (hz : (extGet s i).zero = true → zeroWaits s i (extGet s i) = false) :
    ¬ ((extGet s i).state ≠ 5 ∨ lockWanting s i = true ∨ ((extGet s i).zero = true ∧ zeroWaits s i (extGet s i) = true)) := by
  rintro (h | h | ⟨h, hw⟩)
  · exact h hst
  · exact Bool.eq_false_iff.mp hl h
  · exact Bool.eq_false_iff.mp (hz h) hw

/-- The extent is FREE: its bytes zeroised where it asks so, its locks dropped, its GEN advanced, and the holder told. -/
def extFreed (s : State) (i : Nat) : State :=
  let x := extGet s i
  (extSet (x.locks.foldl lockDrop (if x.zero then zeroExt s i else s)) i { gen := (x.gen + 1) % 2 ^ 18 }).notice 0x0804 [leaseId i x] x.tenant

/-- A mailbox that waits for the end of a release is answered and free again. -/
def releaseAnswered (a : State) : Option Mbx → State
  | some mb => { (a.cxl mb .success) with host := { a.host with busy := a.host.busy.filter (· != mbxKey mb) } }
  | none => a

theorem exec_extReleased_freed (hon : s.on = true) (hst : (extGet s i).state = 5) (hl : lockWanting s i = false)
    (hz : (extGet s i).zero = true → zeroWaits s i (extGet s i) = false ∧ zeroLines s i (extGet s i) = []) :
    exec (.extReleased i) s = .next ((rejoinAll (releaseAnswered (extFreed s i) (extGet s i).mb)).under s) := by
  have hheld : ¬ ((extGet s i).zero = true ∧ (!(zeroLines s i (extGet s i)).isEmpty) = true) := by
    rintro ⟨h, hn⟩
    simp [(hz h).2] at hn
  rw [exec_extReleased, execExtReleased, hubOnly_on hon]
  exact next_under ((if_neg (release_goes_on hst hl (fun h => (hz h).1))).trans (if_neg hheld))

theorem exec_extReleased_held (hon : s.on = true) (hst : (extGet s i).state = 5) (hl : lockWanting s i = false) (hzero : (extGet s i).zero = true)
    (hw : zeroWaits s i (extGet s i) = false) (hn : zeroLines s i (extGet s i) ≠ []) :
    exec (.extReleased i) s = .next ((backInvalidate s (zeroLines s i (extGet s i))).under s) := by
  have hheld : (extGet s i).zero = true ∧ (!(zeroLines s i (extGet s i)).isEmpty) = true := ⟨hzero, by simp [hn]⟩
  rw [exec_extReleased, execExtReleased, hubOnly_on hon]
  exact next_under ((if_neg (release_goes_on hst hl (fun _ => hw))).trans (if_pos hheld))

/-- Settles O44: each row past its mailbox or the power gate, then the branch its hypotheses pick. That EXT_REVOKE and EXT_RELEASE
answer at the fence is the model's choice (log 54, DEDUCED), and so is the lowest FREE extent (log 53, DEDUCED). -/
theorem extentsAreGrantedRenewedFencedAndFreed : Obligations.ExtentsAreGrantedRenewedFencedAndFreed := by
  refine ⟨?add, ?revoke, ?release, ?releaseDc, ?response, ?lapsed, ?renew, ?grace, ?expire, ?drained, ?cut, ?freed, ?held⟩
  case add => exact fun s mb x i h hok hf => exec_extAdd_free h hok hf rfl
  case revoke => exact fun s u mb lease i ids h hf hc hl => exec_extRevoke_granted h hf hc hl
  case release => exact fun s u n lease i ids h hf hc hl => exec_extRelease_granted h hf hc hl
  case releaseDc => exact fun s u ld r e ids h hf hc hl => exec_releaseDc_granted h hf hc hl
  case response => exact fun s ld l h hn => exec_addDcResponse_named h hn
  case lapsed =>
    intro s i hon hst
    rw [exec_extOfferLapsed, execExtOfferLapsed, hubOnly_on hon]
    exact next_under (if_pos hst)
  case renew =>
    intro s n lease seq h
    rw [exec_leaseRenew, execLeaseRenew, mbxOnly_vendor_ld h]
    rfl
  case grace =>
    intro s i hon hst
    rw [exec_extGrace, execExtGrace, hubOnly_on hon]
    exact next_under ((if_pos hst).trans (if_pos hst))
  case expire =>
    intro s i hon hst hdue
    rw [exec_leaseExpire, execLeaseExpire, hubOnly_on hon]
    exact next_under (if_pos ⟨hst, hdue⟩)
  case drained =>
    intro s i hon hst hd
    rw [exec_extDrainDone, execExtDrainDone, hubOnly_on hon]
    exact next_under (if_pos ⟨hst, hd⟩)
  case cut =>
    intro s i hon hst a hd
    rw [exec_extDrainCut, execExtDrainCut, hubOnly_on hon]
    exact next_under ((if_neg (not_not.mpr hst)).trans (if_neg (Bool.eq_false_iff.mp hd)))
  case freed => exact fun s i hon hst hl hz => exec_extReleased_freed hon hst hl hz
  case held => exact fun s i hon hst hl hzero hw hn => exec_extReleased_held hon hst hl hzero hw hn

end Sys2Proof.Proofs
end

section
/-! PROOFS. spec/00_scope.md: a step and its front command; spec/19_package_power_clocks.md and spec/20_register_map.md: the state after
reset (R533, R554), what a hub without main power holds and does (R534, R535, R544, R561; log 7, DEDUCED, for the commands that are then
without effect), and the reach of the hub's own commands (R490, R506, R512, R516). -/

namespace Sys2Proof.Proofs

open Sys2Proof Sys2Proof.Machine Sys2Proof.Laws

variable {s t : State} {f : State → State} {mb : Mbx} {c : Instr}

/-- Settles O1: the front command is the first branch of a step. -/
theorem stepRunsTheFrontCommand : Obligations.StepRunsTheFrontCommand := fun _ _ _ => rfl

/-- Settles O3: every field of the state has its reset value as its default. -/
theorem resetIsAHubWithoutMainPower : Obligations.ResetIsAHubWithoutMainPower :=
  ⟨rfl, by simp [unpowered, State.reset], rfl, rfl, rfl, fun _ => rfl, fun _ => ⟨rfl, rfl⟩, fun _ => ⟨rfl, rfl⟩⟩

/-- Settles O5: by either way such a command reaches the hub, the supervisor is put back. -/
theorem hubCommandsLeaveTheSupervisor : Obligations.HubCommandsLeaveTheSupervisor := by
  intro c s hr
  obtain ⟨f, e⟩ | ⟨mb, f, e⟩ := exec_hub (s := s) hr
  · obtain ⟨t, ht, -, hs⟩ := hubOnly_next (f := f) (s := s)
    exact ⟨t, e ▸ ht, hs⟩
  · obtain ⟨t, ht, -, hs⟩ := mbxOnly_next (mb := mb) (f := f) (s := s)
    exact ⟨t, e ▸ ht, hs⟩

/-! ### Without main power (R534, R544) -/

/-- Without main power a mailbox command leaves at most the sideband's refusal. -/
theorem mbxGate_off_cases (mb : Mbx) (f : State → State) (h : s.on = false) : mbxGate mb f s = s ∨ mbxGate mb f s = s.emit (.sideband (natLe 1 St.power)) := by
  rw [mbxGate_off h]
  split
  · exact .inr rfl
  · exact .inl rfl

/-- Settles O6: past the power gate such a command does nothing, and past its mailbox at most answers the sideband. -/
theorem withoutMainPowerTheHubIsStill : Obligations.WithoutMainPowerTheHubIsStill := by
  intro c s hon hu
  cases hr : reachesSup c with
  | false =>
    obtain ⟨f, e⟩ | ⟨mb, f, e⟩ := exec_hub (s := s) hr
    · exact ⟨s, e.trans (hubOnly_off hon), .inl rfl⟩
    · refine ⟨_, e.trans mbxOnly_eq, (mbxGate_off_cases mb f hon).imp ?_ ?_⟩ <;> intro h <;> rw [h] <;> rfl
  | true =>
    obtain ⟨f, e⟩ | ⟨mb, f, e⟩ := exec_sup (s := s) hr hu
    · exact ⟨s, e.trans (supOn_off hon), .inl rfl⟩
    · refine ⟨_, e.trans mbxSup_eq, (mbxGate_off_cases mb f hon).imp ?_ ?_⟩ <;> intro h <;> rw [h] <;> rfl

/-! ### What a hub without main power holds (R534, R561) -/

/-- The state has main power on, or holds nothing outside the AON domain. -/
def EmptyIfOff (s : State) : Prop := s.on = false → unpowered s

theorem emptyIfOff_of_on (h : s.on = true) : EmptyIfOff s := fun hoff => absurd (h.symm.trans hoff) (by decide)
theorem emptyIfOff_of_unpowered (h : unpowered s) : EmptyIfOff s := fun _ => h

/-- A write outside what `unpowered` speaks of, which leaves main power as it is. -/
theorem EmptyIfOff.aon (h : EmptyIfOff s) (hon : t.on = s.on)
    (e : { t with sup := s.sup, pending := s.pending, time := s.time, free := s.free, host := s.host, out := s.out, nextReq := s.nextReq } = s) : EmptyIfOff t :=
  fun hoff => unpowered_of_fields (h (hon ▸ hoff)) e

theorem EmptyIfOff.emit (h : EmptyIfOff s) (e : Emit) : EmptyIfOff (s.emit e) := h.aon rfl rfl
theorem EmptyIfOff.queued (h : EmptyIfOff t) : EmptyIfOff (t.queued s) := h

theorem EmptyIfOff.ite {p : Prop} [Decidable p] {a b : State} (ha : p → EmptyIfOff a) (hb : ¬ p → EmptyIfOff b) : EmptyIfOff (if p then a else b) := by
  split
  · exact ha ‹_›
  · exact hb ‹_›

theorem ite_on {p : Prop} [Decidable p] {a b : State} (ha : p → a.on = true) (hb : ¬ p → b.on = true) : (if p then a else b).on = true := by
  split
  · exact ha ‹_›
  · exact hb ‹_›

theorem on_of_not_off (h : ¬ (!s.on) = true) : s.on = true := by simpa using h
theorem on_of_run (h : s.sup.stage = .run) : s.on = true := by rw [State.on, h]; rfl

/-! ### The ways a command reaches the hub keep it so -/

theorem hubOnly_emptyIfOff (h : EmptyIfOff s) : ∃ t, hubOnly f s = .next t ∧ EmptyIfOff t := by
  cases hon : s.on with
  | false => exact ⟨s, hubOnly_off hon, h⟩
  | true => exact ⟨_, hubOnly_on hon, emptyIfOff_of_on hon⟩

theorem mbxOnly_emptyIfOff (h : EmptyIfOff s) : ∃ t, mbxOnly mb f s = .next t ∧ EmptyIfOff t := by
  refine ⟨_, mbxOnly_eq, ?_⟩
  cases hon : s.on with
  | false => obtain e | e := mbxGate_off_cases mb f hon <;> rw [e] <;> exact h.aon rfl rfl
  | true => exact emptyIfOff_of_on hon

theorem supOn_emptyIfOff (h : EmptyIfOff s) (hf : s.on = true → EmptyIfOff (f s)) : ∃ t, supOn f s = .next t ∧ EmptyIfOff t := by
  cases hon : s.on with
  | false => exact ⟨s, supOn_off hon, h⟩
  | true => exact ⟨_, supOn_on hon, (hf hon).queued⟩

theorem supAny_emptyIfOff (hf : EmptyIfOff (f s)) : ∃ t, supAny f s = .next t ∧ EmptyIfOff t := ⟨_, rfl, hf.queued⟩

theorem mbxSup_emptyIfOff (h : EmptyIfOff s) (hf : ∀ u : State, u.on = true → (f u).on = true) : ∃ t, mbxSup mb f s = .next t ∧ EmptyIfOff t := by
  refine ⟨_, mbxSup_eq, EmptyIfOff.queued ?_⟩
  cases hon : s.on with
  | false => obtain e | e := mbxGate_off_cases mb f hon <;> rw [e] <;> exact h.aon rfl rfl
  | true =>
    refine emptyIfOff_of_on ?_
    unfold mbxGate
    split
    · split
      · exact hon
      · split
        · exact hon
        · exact hf _ hon
    · exact hf s hon

theorem sbWay_emptyIfOff (h : EmptyIfOff s) (hf : EmptyIfOff (f s)) : ∃ t, sbWay f s = .next t ∧ EmptyIfOff t :=
  supAny_emptyIfOff (.ite (fun _ => hf) fun _ => h)

theorem tapWay_emptyIfOff (hf : EmptyIfOff (f (supSet s { s.sup with tck := some s.time }))) : ∃ t, tapWay f s = .next t ∧ EmptyIfOff t := supAny_emptyIfOff hf

theorem spdmWay_emptyIfOff {conn : SpdmConn} {level : Nat} (h : EmptyIfOff s) (hf : s.on = true → (f s).on = true) : ∃ t, spdmWay conn level f s = .next t ∧ EmptyIfOff t :=
  supOn_emptyIfOff h fun hon => .ite (fun _ => h) fun _ => .ite (fun _ => h.emit _) fun _ => emptyIfOff_of_on (hf hon)

/-! ### Operations that keep main power -/

theorem tokenRun_on (h : s.on = true) (d : List Byte) : (tokenRun s d).2.on = true := by
  unfold tokenRun
  dsimp only
  split
  · rw [notice_on]; exact h
  · exact h

theorem measurement_sup (i : Nat) : (measurement s i).2.sup = s.sup := by
  unfold measurement
  dsimp only
  (repeat' split) <;> rfl

theorem measBlocks_sup (l : List Nat) : (measBlocks s l).2.sup = s.sup := by
  induction l generalizing s with
  | nil => rfl
  | cons i l ih => exact ih.trans (measurement_sup i)

theorem copySeq_on (v : Bool) (r : List Byte) : (copySeq s v r).2.on = s.on := by unfold copySeq; split <;> rfl

theorem cxlCmd_on (h : s.on = true) (hf : (f s).on = true) : (cxlCmd mb f s).on = true := by
  unfold cxlCmd; (repeat' split) <;> simp [h, hf]

theorem replyReason_on (s : State) (mb : Mbx) (st r : Nat) : (replyReason s mb st r).on = s.on := by
  unfold replyReason State.sbDone; (repeat' split) <;> rfl

/-- A whole write of CLK_RESET_CAUSE, which the sideband reaches without main power (R544), clears cause bits alone. -/
theorem regWrite_cause (v : Nat) : regWrite s 0x30010 .whole v = { s with sup := { s.sup with cause := s.sup.cause - (s.sup.cause &&& v % 2 ^ 64 % 256) } } := rfl

/-! ### The commands that main power does not gate -/

/-- A command of the power stage, the sideband or the test access port loses all that R534 says is lost where it turns main power off, and
otherwise writes nothing into a hub that is off. -/
theorem exec_ungated_emptyIfOff (h : EmptyIfOff s) (hu : ungated c = true) : ∃ t, exec c s = .next t ∧ EmptyIfOff t := by
  cases c
  all_goals dsimp only [exec]
  case perstAssert => exact supAny_emptyIfOff (.ite (fun hon => emptyIfOff_of_on hon) fun _ => h.aon rfl rfl)
  case perstRelease | auxPowerLoss | hubResetRelease => exact supAny_emptyIfOff (h.aon rfl rfl)
  case auxPowerOn => exact supAny_emptyIfOff (.ite (fun _ => h) fun _ => h.aon rfl rfl)
  case auxPowerReturn | i3cDynamicAddress => exact supAny_emptyIfOff (.ite (fun _ => h.aon rfl rfl) fun _ => h)
  case powerStart =>
    exact supAny_emptyIfOff (.ite (fun _ => h) fun _ => .ite (fun _ => .ite (fun _ => emptyIfOff_of_on rfl) fun _ => h) fun _ => emptyIfOff_of_on (beginStart_on ..))
  case mainEnFall => exact supAny_emptyIfOff (.ite (fun _ => emptyIfOff_of_unpowered (mainOff_unpowered 0).2) fun _ => h)
  case mainPowerFault f =>
    have hl : EmptyIfOff (if s.on = true then mainOff s (match f with | .under => 32 | .over => 64) else s) :=
      .ite (fun _ => emptyIfOff_of_unpowered (mainOff_unpowered _).2) fun _ => h
    refine supAny_emptyIfOff ?_
    cases f with
    | under => exact .ite (fun _ => hl.aon rfl rfl) fun _ => hl
    | _ => exact hl
  case warmResetPin => exact supAny_emptyIfOff (.ite (fun _ => h) fun hn => emptyIfOff_of_on (Laws.warmStart_on 4 (on_of_not_off fun ho => hn (.inl ho))))
  case watchdogExpire => exact supAny_emptyIfOff (.ite (fun hst => emptyIfOff_of_on (Laws.warmStart_on 16 (on_of_run hst))) fun _ => h)
  case read64 =>
    refine sbWay_emptyIfOff h (.ite (fun _ => h.emit _) fun _ => ?_)
    split <;> exact h.emit _
  case write64 off val =>
    refine sbWay_emptyIfOff h (.ite (fun _ => h.emit _) fun ho => .ite (fun _ => h.emit _) fun _ => ?_)
    cases hon : s.on with
    | true => exact emptyIfOff_of_on (regWrite_on _ _ _ hon)
    | false =>
      obtain rfl : off = 0x30010 := by simpa [hon] using ho
      rw [regWrite_cause]
      exact h.aon rfl rfl
  case mbxIn => exact sbWay_emptyIfOff h (.ite (fun _ => h.emit _) fun _ => .ite (fun _ => h.emit _) fun _ => .ite (fun _ => h.emit _) fun _ => h.aon rfl rfl)
  case mbxStatus | telemetry => exact sbWay_emptyIfOff h (.ite (fun _ => h.emit _) fun _ => h.emit _)
  case mbxOut => exact sbWay_emptyIfOff h (.ite (fun _ => h.emit _) fun _ => .ite (fun _ => h.emit _) fun _ => h.aon rfl rfl)
  case idcode | samplePreload | tokenStatus | bypass => exact tapWay_emptyIfOff (h.aon rfl rfl)
  case extest => exact tapWay_emptyIfOff (.ite (fun _ => h.aon rfl rfl) fun _ => h.aon rfl rfl)
  case tokenLoad d =>
    refine tapWay_emptyIfOff ?_
    split
    next st u e =>
      split at e
      next hon => exact emptyIfOff_of_on (((Prod.mk.inj e).2 ▸ tokenRun_on hon d :))
      next => exact (Prod.mk.inj e).2 ▸ h.aon rfl rfl
  case dbgAccess =>
    refine tapWay_emptyIfOff (.ite (fun _ => h.aon rfl rfl) fun ho => emptyIfOff_of_on ?_)
    have hon : s.on = true := on_of_not_off fun hn => ho (.inl hn)
    refine ite_on (fun _ => hon) fun _ => ite_on (fun _ => ite_on (fun _ => hon) fun _ => regWrite_on _ _ _ hon) fun _ => ?_
    split <;> exact hon
  all_goals exact nomatch hu

/-! ### The commands that main power gates and that reach the supervisor -/

/-- Such a command keeps main power on, but for a sensor reading at which a sensor trips (R483). -/
theorem exec_gated_emptyIfOff (h : EmptyIfOff s) (hr : reachesSup c = true) (hu : ungated c = false) : ∃ t, exec c s = .next t ∧ EmptyIfOff t := by
  cases c
  all_goals dsimp only [exec]
  case regWrite => exact supOn_emptyIfOff h fun hon => emptyIfOff_of_on (busWrite_on _ hon)
  case tickTreeWrite | tickPeriodWrite | tickGuardWrite | fabCredInitWrite | swxBufWrite | dampCapWrite | secLockWrite | fltPop | fltOvfClr | sysringTailWrite | warmResetReg
      | segtRead | segtWrite | winRead | winWrite =>
    exact supOn_emptyIfOff h fun hon => emptyIfOff_of_on (namedWrite_on _ _ _ hon)
  case portCtlWrite | swxProfWrite | shaperWrite | meterWrite | gateWrite | cohWinWrite | ringTailWrite | ringCfgWrite =>
    exact supOn_emptyIfOff h fun hon => .ite (fun _ => emptyIfOff_of_on (namedWrite_on _ _ _ hon)) fun _ => h
  case fnOff =>
    refine supOn_emptyIfOff h fun hon => .ite (fun _ => h) fun _ => emptyIfOff_of_on ?_
    split
    · exact ite_on (fun _ => hon) fun _ => hon
    · exact hon
  case sensorRead =>
    refine supOn_emptyIfOff h fun hon => ?_
    dsimp only
    split
    · exact emptyIfOff_of_unpowered (thermalTrip_unpowered _).2
    · exact emptyIfOff_of_on hon
  case pllLockLost =>
    refine supOn_emptyIfOff h fun hon => .ite (fun _ => h) fun _ => emptyIfOff_of_on ?_
    dsimp only [State.on, supSet, State.draw]
    exact hon
  case pllResetTimer => exact supOn_emptyIfOff h fun hon => .ite (fun _ => emptyIfOff_of_on (Laws.warmStart_on 0 hon)) fun _ => h
  case rngHealthFail => exact supOn_emptyIfOff h fun hon => .ite (fun _ => emptyIfOff_of_on ((notice_on ..).trans hon)) fun _ => emptyIfOff_of_on hon
  case rngHealthPass => exact supOn_emptyIfOff h fun hon => emptyIfOff_of_on hon
  case powerDone => exact supOn_emptyIfOff h fun _ => .ite (fun _ => emptyIfOff_of_on rfl) fun _ => h
  case romDone => exact supOn_emptyIfOff h fun hon => .ite (fun _ => .ite (fun _ => emptyIfOff_of_on rfl) fun _ => emptyIfOff_of_on hon) fun _ => h
  case verifyDone =>
    refine supOn_emptyIfOff h fun _ => .ite (fun _ => ?_) fun _ => h
    split
    · exact emptyIfOff_of_on (toRecovery_on _)
    · exact .ite (fun _ => emptyIfOff_of_on rfl) fun _ => emptyIfOff_of_on (toRecovery_on _)
  case configDone => exact supOn_emptyIfOff h fun _ => .ite (fun _ => emptyIfOff_of_on configStage_on) fun _ => h
  case storeDone => exact supOn_emptyIfOff h fun _ => .ite (fun _ => .ite (fun _ => emptyIfOff_of_on rfl) fun _ => emptyIfOff_of_on beginApply_on) fun _ => h
  case applyEnd => exact supOn_emptyIfOff h fun _ => .ite (fun _ => emptyIfOff_of_on enterRun_on) fun _ => h
  case startStageTimeout | railRampTimeout => exact supOn_emptyIfOff h fun hon => .ite (fun _ => emptyIfOff_of_on (stageStop_on hon)) fun _ => h
  case startRetry => exact supOn_emptyIfOff h fun _ => .ite (fun _ => emptyIfOff_of_on (beginStart_on ..)) fun _ => h
  case yokeHello =>
    refine supOn_emptyIfOff h fun hon => .ite (fun _ => h) fun _ => emptyIfOff_of_on ?_
    dsimp only
    split
    · exact ite_on (fun _ => helloTake_on _ _ hon) fun _ => hon
    · exact hon
  case yokeFormed => exact supOn_emptyIfOff h fun _ => .ite (fun _ => .ite (fun _ => emptyIfOff_of_on yokeForm_on) fun _ => emptyIfOff_of_on (yokeRefuse_on _)) fun _ => h
  case yokeRefused => exact supOn_emptyIfOff h fun _ => .ite (fun _ => emptyIfOff_of_on (yokeRefuse_on _)) fun _ => h
  case cellarWriteDone =>
    refine supOn_emptyIfOff h fun hon => ?_
    split
    · exact emptyIfOff_of_on (cellarDone_on _ _ hon)
    · exact h
  case cellarStore => exact mbxSup_emptyIfOff h fun _ hon => vendor_on hon (cellarFree_on hon (beginStore_on _ _ _ hon))
  case cfgInfo => exact mbxSup_emptyIfOff h fun _ hon => recCmd_on hon ((reply_on ..).trans ((copySeq_on ..).trans ((copySeq_on ..).trans hon)))
  case cfgIdent =>
    exact mbxSup_emptyIfOff h fun _ hon => vendor_on hon (ite_on (fun _ => (reply_on ..).trans hon) fun _ => ite_on (fun _ => (reply_on ..).trans hon) fun _ => cellarFree_on hon hon)
  case lockSet => exact mbxSup_emptyIfOff h fun _ hon => vendor_on hon ((reply_on ..).trans (setLock_on hon))
  case svnRaise =>
    exact mbxSup_emptyIfOff h fun _ hon => vendor_on hon (ite_on (fun _ => (reply_on ..).trans hon) fun _ => ite_on (fun _ => (reply_on ..).trans hon) fun _ =>
      ite_on (fun _ => (reply_on ..).trans hon) fun _ => (reply_on ..).trans ((notice_on ..).trans hon))
  case imageWrite => exact mbxSup_emptyIfOff h fun _ hon => recCmd_on hon (ite_on (fun _ => (reply_on ..).trans hon) fun _ => (reply_on ..).trans hon)
  case imageCommit =>
    exact mbxSup_emptyIfOff h fun _ hon => recCmd_on hon (cellarFree_on hon (ite_on (fun _ => (replyReason_on ..).trans hon) fun _ => ite_on (fun _ => reply_on ..) fun _ => hon))
  case debugUnlock => exact mbxSup_emptyIfOff h fun _ hon => ite_on (fun _ => cxlCmd_on hon ((cxl_on ..).trans hon)) fun _ => vendor_on hon ((reply_on ..).trans (tokenRun_on hon _))
  case getVersion | getCapabilities | negotiateAlgorithms | getDigests | keyExchange | getPqChain => exact spdmWay_emptyIfOff h fun hon => hon
  case finish | endSession | ideKm | getCertificate | challenge => exact spdmWay_emptyIfOff h fun hon => ite_on (fun _ => hon) fun _ => hon
  case getMeasurements =>
    refine spdmWay_emptyIfOff h fun hon => ite_on (fun _ => hon) fun _ => ?_
    exact ite_on (fun _ => (on_of_sup (measBlocks_sup _)).trans hon) fun _ => (on_of_sup (measBlocks_sup _)).trans hon
  case getCosign =>
    refine spdmWay_emptyIfOff h fun hon => ?_
    split <;> exact hon
  all_goals exact nomatch hr, hu

/-- Every command keeps a hub without main power empty. -/
theorem exec_emptyIfOff (c : Instr) (h : EmptyIfOff s) : ∃ t, exec c s = .next t ∧ EmptyIfOff t := by
  cases hr : reachesSup c with
  | false =>
    obtain ⟨f, e⟩ | ⟨mb, f, e⟩ := exec_hub (s := s) hr
    · exact e ▸ hubOnly_emptyIfOff h
    · exact e ▸ mbxOnly_emptyIfOff h
  | true =>
    cases hu : ungated c with
    | false => exact exec_gated_emptyIfOff h hr hu
    | true => exact exec_ungated_emptyIfOff h hu

/-- Settles O7: by the way the front command reaches the hub; on an empty queue only the timebase advances. -/
theorem anUnpoweredHubHoldsNothing : Obligations.AnUnpoweredHubHoldsNothing := by
  intro s t h hst
  have hnext : ∃ u, step s = .next u ∧ EmptyIfOff u := by
    cases hp : s.pending with
    | nil => exact ⟨{ s with time := s.time + 1 }, anEmptyQueueCountsOneCycle s hp, EmptyIfOff.aon h rfl rfl⟩
    | cons c rest => simpa only [step, hp] using exec_emptyIfOff c (s := { s with pending := rest }) (EmptyIfOff.aon h rfl rfl)
  obtain ⟨u, hu, hk⟩ := hnext
  obtain rfl : u = t := Host.Outcome.next.inj (hu.symm.trans hst)
  exact hk

end Sys2Proof.Proofs
end

section
/-! PROOFS. spec/20_register_map.md: a field of a register that is set, and a counter that is counted up (R551; R10 of spec/00). -/

namespace Sys2Proof.Proofs

open Sys2Proof Sys2Proof.Machine Sys2Proof.Laws

variable {s : State} {f g : Fld} {x hi lo v i n : Nat}

/-- A number with a field set: what lies above the field, the field's new value, what lies below it. -/
theorem setBits_eq (h : lo ≤ hi) : setBits x hi lo v = 2 ^ lo * (2 ^ (hi + 1 - lo) * (x / 2 ^ (hi + 1)) + v % 2 ^ (hi + 1 - lo)) + x % 2 ^ lo := by
  have hx : x = 2 ^ lo * (2 ^ (hi + 1 - lo) * (x / 2 ^ (hi + 1)) + bits x hi lo) + x % 2 ^ lo := by
    have hd : x / 2 ^ (hi + 1) = x / 2 ^ lo / 2 ^ (hi + 1 - lo) := by
      rw [Nat.div_div_eq_div_mul, ← Nat.pow_add, Nat.add_sub_cancel' (by omega : lo ≤ hi + 1)]
    rw [bits_eq, hd, Nat.div_add_mod, Nat.div_add_mod]
  unfold setBits
  rw [Nat.mul_add] at hx ⊢
  rw [Nat.mul_comm (bits x hi lo), Nat.mul_comm (v % _)]
  omega

theorem testBit_setBits (h : lo ≤ hi) : (setBits x hi lo v).testBit i = if lo ≤ i ∧ i ≤ hi then v.testBit (i - lo) else x.testBit i := by
  rw [setBits_eq h, Nat.testBit_two_pow_mul_add _ (Nat.mod_lt _ (Nat.two_pow_pos lo)),
    Nat.testBit_two_pow_mul_add _ (Nat.mod_lt _ (Nat.two_pow_pos _)), Nat.testBit_mod_two_pow, Nat.testBit_mod_two_pow, Nat.testBit_div_two_pow]
  by_cases h1 : i < lo
  · simp [h1]
  · by_cases h2 : i ≤ hi
    · have h3 : i - lo < hi + 1 - lo := by omega
      simp [h1, h2, h3, Nat.not_lt.mp h1]
    · have h3 : ¬ i - lo < hi + 1 - lo := by omega
      have h4 : i - lo - (hi + 1 - lo) + (hi + 1) = i := by omega
      simp [h1, h2, h3, h4]

theorem testBit_bits : (bits x hi lo).testBit i = (decide (i < hi + 1 - lo) && x.testBit (i + lo)) := by
  rw [bits_eq, Nat.testBit_mod_two_pow, Nat.testBit_div_two_pow]

theorem bits_setBits_same (h : lo ≤ hi) : bits (setBits x hi lo v) hi lo = v % 2 ^ (hi + 1 - lo) := by
  refine Nat.eq_of_testBit_eq fun i => ?_
  rw [testBit_bits, testBit_setBits h, Nat.testBit_mod_two_pow]
  by_cases hi' : i < hi + 1 - lo
  · have h2 : lo ≤ i + lo ∧ i + lo ≤ hi := by omega
    simp [hi', h2]
  · simp [hi']

theorem bits_setBits_apart {hi' lo' : Nat} (h : lo ≤ hi) (hd : hi' < lo ∨ hi < lo') : bits (setBits x hi lo v) hi' lo' = bits x hi' lo' := by
  refine Nat.eq_of_testBit_eq fun i => ?_
  rw [testBit_bits, testBit_bits, testBit_setBits h]
  by_cases hi2 : i < hi' + 1 - lo'
  · have h2 : ¬ (lo ≤ i + lo' ∧ i + lo' ≤ hi) := by omega
    simp [h2]
  · simp [hi2]

theorem setBits_lt (h : lo ≤ hi) (hh : hi < 64) (hx : x < 2 ^ 64) : setBits x hi lo v < 2 ^ 64 := by
  refine Nat.lt_pow_two_of_testBit _ fun i hi' => ?_
  have h2 : ¬ (lo ≤ i ∧ i ≤ hi) := by omega
  rw [testBit_setBits h, if_neg h2]
  exact Nat.testBit_lt_two_pow (Nat.lt_of_lt_of_le hx (Nat.pow_le_pow_right (by decide) hi'))

/-- The register of a field that was set. -/
theorem reg_put (hw : smWf regReset s.regs) (h : f.lo ≤ f.hi) (hh : f.hi < 64) :
    ((s.put f v).reg f.addr).toNat = setBits (s.reg f.addr).toNat f.hi f.lo v := by
  unfold State.put
  rw [reg_setReg hw, if_pos rfl, BitVec.toNat_ofNat]
  exact Nat.mod_eq_of_lt (setBits_lt h hh (BitVec.isLt _))

theorem fld_put_same (hw : smWf regReset s.regs) (h : f.lo ≤ f.hi) (hh : f.hi < 64) : (s.put f v).fld f = v % 2 ^ (f.hi + 1 - f.lo) := by
  rw [State.fld, reg_put hw h hh, bits_setBits_same h]

theorem fld_put_apart (hw : smWf regReset s.regs) (h : f.lo ≤ f.hi) (hh : f.hi < 64) (ha : g.addr = f.addr) (hd : g.hi < f.lo ∨ f.hi < g.lo) :
    (s.put f v).fld g = s.fld g := by
  rw [State.fld, ha, reg_put hw h hh, bits_setBits_apart h hd, State.fld, ha]

theorem fld_bump_same (hw : smWf regReset s.regs) (h : f.lo ≤ f.hi) (hh : f.hi < 64) :
    (s.bump f n).fld f = min (s.fld f + n) (2 ^ (f.hi + 1 - f.lo) - 1) := by
  refine (fld_put_same hw h hh).trans (Nat.mod_eq_of_lt ?_)
  have := Nat.two_pow_pos (f.hi + 1 - f.lo)
  unfold satAdd
  omega

/-- Settles O16: a count is a field set to a value within its width, which the largest value already is. -/
theorem countersSaturate : Obligations.CountersSaturate := by
  intro s f n hw h hh
  have hsum := fld_bump_same (n := n) hw h hh
  refine ⟨hsum, fun hmax => ?_, fun g ha _ _ hd => fld_put_apart hw h hh ha hd, fun b hb => (reg_setReg hw _ _ b).trans (if_neg hb), rfl⟩
  omega

end Sys2Proof.Proofs
end

section
/-! PROOFS. spec/15_host_link_and_notices.md: a mailbox that runs a command turns every other away (R423, R424, R427); spec/18_start_cellar_trust.md: in
RECOVERY three commands run (R494). -/

namespace Sys2Proof.Proofs

open Sys2Proof Sys2Proof.Machine Sys2Proof.Laws

variable {s : State} {f : State → State} {mb : Mbx} {c : Instr} {iss : Issuer}

/-! ### Commands turned away at their mailbox -/

/-- The commands that RECOVERY accepts from the mailbox of LD 0 (R494). -/
def recoveryRuns (c : Instr) (mb : Mbx) : Prop := mb = .ld 0 ∧ (c = .cfgInfo mb ∨ (∃ o d, c = .imageWrite mb o d) ∨ c = .imageCommit mb)

/-- A command's work begins with the refusals of R423 and R494: a mailbox that runs another command, and RECOVERY unless it accepts the command. -/
def TurnsAway (mb : Mbx) (accepts : Prop) (f : State → State) : Prop :=
  ∀ s : State, (s.host.busy.contains (mbxKey mb) = true → f s = s.cxl mb .busy)
    ∧ (s.host.busy.contains (mbxKey mb) = false → s.sup.stage = .recovery → ¬ accepts → f s = s.reply mb St.busy)

theorem vendor_turnsAway (p : Prop) (f : State → State) : TurnsAway mb p (vendor mb iss f) :=
  fun _ => ⟨fun hb => by simp only [vendor, hb, if_true], fun hb hr _ => by simp only [vendor, hb, hr, if_true, Bool.false_eq_true, if_false]⟩

theorem cxlCmd_turnsAway (hg : mb ≠ .gone) (p : Prop) (f : State → State) : TurnsAway mb p (cxlCmd mb f) :=
  fun _ => ⟨fun hb => by simp only [cxlCmd, hg, hb, if_true, if_false], fun hb hr _ => by simp only [cxlCmd, hg, hb, hr, if_true, Bool.false_eq_true, if_false]⟩

theorem unsupported_turnsAway (hg : mb ≠ .gone) (p : Prop) (op : Nat) : TurnsAway mb p (unsupported mb op) :=
  fun _ => ⟨fun hb => by simp only [unsupported, hg, hb, if_true, if_false], fun hb hr _ => by simp only [unsupported, hg, hb, hr, if_true, Bool.false_eq_true, if_false]⟩

theorem recCmd_turnsAway (hg : mb ≠ .gone) (hs : mb ≠ .sideband) {p : Prop} (hp : mb = .ld 0 → p) (f : State → State) : TurnsAway mb p (recCmd mb f) := by
  refine fun s => ⟨fun hb => ?_, fun hb hr hn => ?_⟩
  · by_cases hr : s.sup.stage = .recovery
    · simp only [recCmd, hr, hg, hb, if_true, if_false]
    · simp only [recCmd, hr, if_false, vendor, hb, if_true]
  · have hld : ¬ (mb = .ld 0 ∨ mb = .sideband) := fun h => h.elim (fun h => hn (hp h)) hs
    simp only [recCmd, hr, hg, hb, hld, if_true, Bool.false_eq_true, if_false]

theorem TurnsAway.ite {p q : Prop} [Decidable q] {f g : State → State} (hf : TurnsAway mb p f) (hg : TurnsAway mb p g) :
    TurnsAway mb p (fun s => if q then f s else g s) := by
  by_cases h : q <;> simpa only [h, if_true, if_false]

/-- Every command of a mailbox other than the sideband's begins with these refusals. -/
theorem exec_mailbox (hm : mailboxOf c = some mb) (hs : mb ≠ .sideband) (hg : mb ≠ .gone) :
    ∃ f, TurnsAway mb (recoveryRuns c mb) f ∧ (exec c s = mbxOnly mb f s ∨ exec c s = mbxSup mb f s ∨ exec c s = hubOnly f s) := by
  cases c
  all_goals dsimp only [exec]
  case jobAdmit | jobStart | jobRestart | jobRelease | migHint | ckptCopy | mcastSet | tagSet | lostWrites | vtOpen | vtSwitch | vtClose | strnOpen | strnClose | extAdd | extRevoke
      | extRelease | leaseRenew | compSet | compClear | handover | engSubmit | winList | tenantEnable | tenantDisable | ldEnable | ldDisable | noticeSub | herdForm | herdAbort | herdCull
      | herdReimage | herdRebalance | herdShadow | herdStatus | herdScoreClear =>
    cases hm
    exact ⟨_, vendor_turnsAway _ _, .inl rfl⟩
  case getEventRecords | clearEventRecords | getEventInterruptPolicy | setEventInterruptPolicy | getTimestamp | setTimestamp | getSupportedLogs | getLog | identifyMemoryDevice
      | getDcConfiguration | getDcExtentList =>
    cases hm
    exact ⟨_, cxlCmd_turnsAway hg _ _, .inl rfl⟩
  case addDcResponse | releaseDc =>
    cases hm
    exact ⟨_, cxlCmd_turnsAway hg _ _, .inr (.inr rfl)⟩
  case mldManagement =>
    cases hm
    exact ⟨_, (cxlCmd_turnsAway hg _ _).ite (unsupported_turnsAway hg _ _), .inl rfl⟩
  case mailboxUnsupported =>
    cases hm
    exact ⟨_, unsupported_turnsAway hg _ _, .inl rfl⟩
  case fnState =>
    cases hm
    exact ⟨_, fun _ => ⟨fun hb => by simp only [hg, hb, if_true, if_false], fun hb hr _ => by simp only [hg, hb, hr, if_true, Bool.false_eq_true, if_false]⟩, .inl rfl⟩
  case cellarStore | cfgIdent | lockSet | svnRaise =>
    cases hm
    exact ⟨_, vendor_turnsAway _ _, .inr (.inl rfl)⟩
  case debugUnlock =>
    cases hm
    exact ⟨_, (cxlCmd_turnsAway hg _ _).ite (vendor_turnsAway _ _), .inr (.inl rfl)⟩
  case cfgInfo =>
    cases hm
    exact ⟨_, recCmd_turnsAway hg hs (fun h => ⟨h, .inl rfl⟩) _, .inr (.inl rfl)⟩
  case imageWrite =>
    cases hm
    exact ⟨_, recCmd_turnsAway hg hs (fun h => ⟨h, .inr (.inl ⟨_, _, rfl⟩)⟩) _, .inr (.inl rfl)⟩
  case imageCommit =>
    cases hm
    exact ⟨_, recCmd_turnsAway hg hs (fun h => ⟨h, .inr (.inr rfl)⟩) _, .inr (.inl rfl)⟩
  all_goals exact nomatch hm

theorem mbxGate_on (hon : s.on = true) (hs : mb ≠ .sideband) : mbxGate mb f s = f s := by simp only [mbxGate, hs, hon, if_true, if_false]

/-- A command whose work is one answer of its mailbox, and nothing of the supervisor's, leaves that answer. -/
theorem exec_turnedAway {t : State} (hm : mailboxOf c = some mb) (hs : mb ≠ .sideband) (hg : mb ≠ .gone) (hon : s.on = true) (ht : t.core = s.core)
    (h : ∀ f, TurnsAway mb (recoveryRuns c mb) f → f s = t) : exec c s = .next (t.under s) := by
  obtain ⟨f, hf, e⟩ := exec_mailbox (s := s) hm hs hg
  have hu : t.queued s = t.under s := by rw [State.queued, State.under, ← core_sup ht]
  obtain e | e | e := e
  · rw [e, mbxOnly_eq, mbxGate_on hon hs, h f hf]
  · rw [e, mbxSup_eq, mbxGate_on hon hs, h f hf, hu]
  · rw [e, hubOnly_on hon, h f hf]

/-- Settles O17: the first refusal of every mailbox command. -/
theorem aBusyMailboxAnswersBusyAlone : Obligations.ABusyMailboxAnswersBusyAlone :=
  fun _ s _ hm hon hs hg hb => exec_turnedAway hm hs hg hon (cxl_core ..) fun _ hf => (hf s).1 hb

/-- Settles O18: the second refusal of every mailbox command, but of those that RECOVERY accepts from LD 0. -/
theorem inRecoveryOnlyTheImageCommandsRun : Obligations.InRecoveryOnlyTheImageCommandsRun := by
  intro c s mb hm hr hs hg hb hc
  have hon : s.on = true := by rw [State.on, hr]; rfl
  refine exec_turnedAway hm hs hg hon (reply_core ..) fun _ hf => (hf s).2 hb hr ?_
  rintro ⟨hld, h⟩
  obtain ⟨h1, h2, h3⟩ := hc hld
  obtain h | ⟨o, d, h⟩ | h := h
  · exact h1 h
  · exact h2 o d h
  · exact h3 h

end Sys2Proof.Proofs
end

section
/-! PROOFS. spec/19_package_power_clocks.md: the auxiliary supply, the straps and the addresses (R533, R535, R541), the loss of main power
(R532, R534, R537), and the starts and resets that begin in POWER (R535, R537, R540; R561 of spec/20). -/

namespace Sys2Proof.Proofs

open Sys2Proof Sys2Proof.Machine Sys2Proof.Laws

variable {s t : State} {c : Nat}

/-! ### The rows of the power stage -/

theorem exec_auxPowerOn (mode : Bool) (addr : Nat) : exec (.auxPowerOn mode addr) s = execAuxPowerOn mode addr s := rfl
theorem exec_auxPowerLoss : exec .auxPowerLoss s = execAuxPowerLoss s := rfl
theorem exec_auxPowerReturn : exec .auxPowerReturn s = execAuxPowerReturn s := rfl
theorem exec_hubResetRelease : exec .hubResetRelease s = execHubResetRelease s := rfl
/-- Either way of assignment gives the same address (R541). -/
theorem exec_i3cDynamicAddress (addr : Nat) (how : I3cHow) :
    exec (.i3cDynamicAddress addr how) s = supAny (fun s => if s.sup.aux ∧ s.sup.sbI3c then supSet s { s.sup with sbDyn := some (addr % 128) } else s) s := by
  cases how <;> rfl
theorem exec_mainEnFall : exec .mainEnFall s = execMainEnFall s := rfl
theorem exec_powerStart : exec .powerStart s = execPowerStart s := rfl
theorem exec_warmResetPin : exec .warmResetPin s = execWarmResetPin s := rfl
theorem exec_watchdogExpire : exec .watchdogExpire s = execWatchdogExpire s := rfl
theorem exec_pllResetTimer : exec .pllResetTimer s = execPllResetTimer s := rfl

/-- Settles O19: each row, then the branch its hypotheses pick. -/
theorem auxiliarySupplyStrapsAndAddresses : Obligations.AuxiliarySupplyStrapsAndAddresses := by
  refine ⟨?on, ?loss, ?back, ?release, ?address⟩
  case on =>
    intro s mode addr hoff
    rw [exec_auxPowerOn, execAuxPowerOn, supAny_eq, if_neg (Bool.eq_false_iff.mp hoff)]
    rfl
  case loss => exact fun _ => rfl
  case back =>
    intro s hon
    rw [exec_auxPowerReturn, execAuxPowerReturn, supAny_eq, if_pos hon]
    rfl
  case release => exact fun _ => rfl
  case address =>
    intro s addr how ha hi
    rw [exec_i3cDynamicAddress, supAny_eq, if_pos ⟨ha, hi⟩]
    rfl

/-! ### Main power goes (R534, R537) -/

/-- A Cellar write cut short tears a copy or the image, no counter (R501, R504, R521). -/
theorem cellarTear_mono (n : Nat) (u : Sup) : (cellarTear n u).mono = u.cellar.mono := by
  unfold cellarTear
  (repeat' split) <;> rfl

/-- What the loss of main power leaves, with a cause. -/
def MainPowerLost (s t : State) (c : Nat) : Prop :=
  t.on = false ∧ unpowered t ∧ t.sup.cause = s.sup.cause ||| c ∧ t.sup.trip = s.sup.trip ∧ t.sup.tripSensor = s.sup.tripSensor
    ∧ t.sup.tripTick = s.sup.tripTick ∧ t.sup.cellar.mono = s.sup.cellar.mono ∧ t.sup.aux = s.sup.aux ∧ t.sup.sbI3c = s.sup.sbI3c ∧ t.sup.sbAddr = s.sup.sbAddr ∧ t.pending = s.pending
    ∧ t.sup.rails = 0 ∧ t.sup.pwrGood = false ∧ t.out = .pin "HUB_READY" false :: .pin "PWR_GOOD" false :: s.out

theorem mainOff_lost (s : State) (c : Nat) : MainPowerLost s ((mainOff s c).queued s) c :=
  ⟨(mainOff_unpowered c).1, (mainOff_unpowered c).2, rfl, rfl, rfl, rfl, cellarTear_mono _ _, rfl, rfl, rfl, rfl, rfl, rfl, rfl⟩

theorem exec_mainPowerFault_over (hon : s.on = true) : exec (.mainPowerFault .over) s = .next ((mainOff s 64).queued s) :=
  congrArg (fun u : State => Host.Outcome.next (u.queued s)) (if_pos hon)

theorem exec_mainPowerFault_under (hon : s.on = true) : exec (.mainPowerFault .under) s
    = .next ((if (mainOff s 32).sup.tripped = true then supSet (mainOff s 32) { (mainOff s 32).sup with removed := true } else mainOff s 32).queued s) :=
  congrArg (fun u : State => Host.Outcome.next ((if u.sup.tripped = true then supSet u { u.sup with removed := true } else u).queued s)) (if_pos hon)

/-- Undervoltage also counts as main power removed (R537), of which the claim says nothing. -/
theorem MainPowerLost.removed (h : MainPowerLost s t c) : MainPowerLost s (supSet t { t.sup with removed := true }) c := h

/-- Settles O20: both rows are the same loss. -/
theorem mainPowerLossEmptiesTheHub : Obligations.MainPowerLossEmptiesTheHub := by
  refine ⟨fun s hon => ⟨_, ?_, mainOff_lost s 0⟩, fun s f hon => ?_⟩
  · rw [exec_mainEnFall, execMainEnFall, supAny_eq, if_pos hon]
  · cases f with
    | under =>
      refine ⟨_, exec_mainPowerFault_under hon, ?_⟩
      split
      · exact (mainOff_lost s 32).removed
      · exact mainOff_lost s 32
    | _ => exact ⟨_, exec_mainPowerFault_over hon, mainOff_lost s 64⟩

/-! ### Starts and resets (R535, R537, R540) -/

/-- What a cold start leaves, with its cause. -/
def ColdStart (s t : State) (c : Nat) : Prop :=
  t.sup.stage = .power ∧ t.sup.cause = s.sup.cause ||| c ∧ t.regs = [] ∧ t.mem = [] ∧ t.resv = [] ∧ t.reqs = [] ∧ t.sup.rails = 0 ∧ t.sup.pwrGood = false ∧ t.sup.tripped = false ∧ t.pending = s.pending

/-- What a warm reset leaves, with its cause. -/
def WarmReset (s t : State) (c : Nat) : Prop :=
  t.sup.stage = .power ∧ t.sup.cause = s.sup.cause ||| c ∧ t.regs = warmRegs s.regs ∧ t.mem = [] ∧ t.reqs = [] ∧ t.sup.rails = s.sup.rails ∧ t.sup.pwrGood = s.sup.pwrGood ∧ t.pending = s.pending
    ∧ t.out = .pin "HUB_READY" false :: s.out

theorem beginStart_cold (retried : Bool) (ht : s.sup.tripped = false) : ColdStart s ((beginStart s false retried c).queued s) c :=
  ⟨rfl, rfl, rfl, rfl, rfl, rfl, rfl, rfl, ht, rfl⟩

theorem warmStart_warm (hon : s.on = true) (ht : s.sup.tripped = false) : WarmReset s ((warmStart s c).queued s) c := by
  rw [warmStart_on hon ht]
  exact ⟨rfl, rfl, rfl, rfl, rfl, rfl, Bool.true_and _, rfl, rfl⟩

/-- Settles O21: each row begins one of the two starts, or finds the hub held off by a trip. -/
theorem startsAndResetsBeginInPower : Obligations.StartsAndResetsBeginInPower := by
  refine ⟨?cold, ?afterTrip, ?heldOff, ?pin, ?watchdog, ?pll⟩
  case cold =>
    intro s hoff ha ht
    refine ⟨_, ?_, beginStart_cold false ht⟩
    rw [exec_powerStart, execPowerStart, supAny_eq, if_neg (by simp [hoff, ha]), if_neg (Bool.eq_false_iff.mp ht)]
  case afterTrip =>
    intro s hoff ha ht hr
    have h := beginStart_cold (s := supSet s { s.sup with tripped := false, removed := false }) (c := 0x82) false rfl
    refine ⟨((beginStart (supSet s { s.sup with tripped := false, removed := false }) false false 0x82).emit (.pin "THERMTRIP_N" true)).queued s, ?_, h, List.mem_cons_self ..⟩
    rw [exec_powerStart, execPowerStart, supAny_eq, if_neg (by simp [hoff, ha]), if_pos ht, if_pos hr]
  case heldOff =>
    intro s hoff ht hr
    rw [exec_powerStart, execPowerStart, supAny_eq, if_pos ht, if_neg (Bool.eq_false_iff.mp hr), ite_self]
    rfl
  case pin =>
    intro s hon ht
    have h := warmStart_warm (c := 4) hon ht
    refine ⟨(supSet (warmStart s 4) { (warmStart s 4).sup with warmHeld := true }).queued s, ?_, h, rfl⟩
    rw [exec_warmResetPin, execWarmResetPin, supAny_eq, if_neg (by simp [hon, ht])]
  case watchdog =>
    intro s hst ht
    refine ⟨_, ?_, warmStart_warm (on_of_run hst) ht⟩
    rw [exec_watchdogExpire, execWatchdogExpire, supAny_eq, if_pos hst]
  case pll =>
    intro s hon ht hp
    refine ⟨_, ?_, warmStart_warm hon ht⟩
    rw [exec_pllResetTimer, execPllResetTimer, supOn_on hon, if_pos hp]

end Sys2Proof.Proofs
end

section
/-! PROOFS. spec/19_package_power_clocks.md: the requests of the sideband (R531, R542 to R544; log 76, DEDUCED, for an address that is not a
multiple of 8; log 85, DESIGN CHOICE, for output past its end) and the instructions of the test access port (R546; R515 and R516 of spec/18). -/

namespace Sys2Proof.Proofs

open Sys2Proof Sys2Proof.Machine Sys2Proof.Laws

variable {s : State} {f : State → State} {off v : Nat}

/-! ### Reads of a register -/

theorem busRead_aligned (h : off % 8 = 0) : busRead s off 8 = some (regRead s off) := if_pos ⟨rfl, h⟩
theorem busRead_misaligned (h : off % 8 ≠ 0) : busRead s off 8 = none := by simp [busRead, h]

/-! ### The sideband (R531, R544) -/

/-- A request reaches the sideband while its auxiliary power is there. -/
theorem sbWay_aux (ha : s.sup.aux = true) : sbWay f s = .next ((f s).queued s) := by
  rw [sbWay, supAny_eq, if_pos ha]

theorem exec_read64 : exec (.read64 off) s = execRead64 off s := rfl
theorem exec_write64 : exec (.write64 off v) s = execWrite64 off v s := rfl
theorem exec_mbxIn {d : List Byte} : exec (.mbxIn off d) s = execMbxIn off d s := rfl
theorem exec_mbxStatus : exec .mbxStatus s = execMbxStatus s := rfl
theorem exec_mbxOut {len : Nat} : exec (.mbxOut off len) s = execMbxOut off len s := rfl
theorem exec_telemetry : exec .telemetry s = execTelemetry s := rfl

theorem not_off (hon : s.on = true) : ¬ (!s.on) = true := by simp [hon]

/-- The registers that READ64 reaches now (R544). -/
theorem aonReg_reached (h : s.on = true ∨ off = 0x30010 ∨ off = 0x40060) : ¬ ((!s.on) = true ∧ (!aonReg off) = true) := by
  rintro ⟨ho, ha⟩
  obtain h | rfl | rfl := h
  · exact not_off h ho
  · exact absurd ha (by decide)
  · exact absurd ha (by decide)

theorem aonReg_other (h1 : off ≠ 0x30010) (h2 : off ≠ 0x40060) : aonReg off = false := by simp [aonReg, h1, h2]

/-- Settles O29: each request past its auxiliary power, then the branch its hypotheses pick. -/
theorem sidebandRequestsAnswer : Obligations.SidebandRequestsAnswer := by
  refine ⟨?read, ?readOff, ?write, ?misaligned, ?writeOff, ?input, ?status, ?output, ?telemetry⟩
  case read =>
    intro s off ha h8 hr
    rw [exec_read64, execRead64, sbWay_aux ha, if_neg (aonReg_reached hr), busRead_aligned h8]
    rfl
  case readOff =>
    intro s off ha hoff h1 h2
    rw [exec_read64, execRead64, sbWay_aux ha, if_pos (by simp [hoff, aonReg_other h1 h2])]
    rfl
  case write =>
    intro s off v ha h8 hr
    have hreach : ¬ ((!s.on) = true ∧ off ≠ 0x30010) := fun h => hr.elim (fun hon => not_off hon h.1) h.2
    rw [exec_write64, execWrite64, sbWay_aux ha, if_neg hreach, if_neg (not_not.mpr h8)]
    rfl
  case misaligned =>
    intro s off v ha hon h8
    refine ⟨?_, ?_⟩
    · rw [exec_read64, execRead64, sbWay_aux ha, if_neg (aonReg_reached (.inl hon)), busRead_misaligned h8]
      rfl
    · rw [exec_write64, execWrite64, sbWay_aux ha, if_neg (fun h => not_off hon h.1), if_pos h8]
      rfl
  case writeOff =>
    intro s off v ha hoff h1
    rw [exec_write64, execWrite64, sbWay_aux ha, if_pos (by simp [hoff, h1])]
    rfl
  case input =>
    intro s off d ha hon hidle h1 h32 hend
    have hlen : ¬ (d.isEmpty = true ∨ 32 < d.length ∨ 4096 < off + d.length) := by
      rw [List.isEmpty_iff_length_eq_zero]
      omega
    rw [exec_mbxIn, execMbxIn, sbWay_aux ha, if_neg (not_off hon), if_neg hidle, if_neg hlen]
    rfl
  case status =>
    intro s ha hon
    rw [exec_mbxStatus, execMbxStatus, sbWay_aux ha, if_neg (not_off hon)]
    rfl
  case output =>
    intro s off len ha hon h1 h32 hend
    let past := len - ((s.host.sb.outp.drop off).take len).length
    refine ⟨slice (Config.freeBytes s.free past) 0 past, s.free + 1, ?_⟩
    rw [exec_mbxOut, execMbxOut, sbWay_aux ha, if_neg (not_off hon), if_neg (by omega)]
    rfl
  case telemetry =>
    intro s ha hon
    refine ⟨_, ?_, rfl⟩
    rw [exec_telemetry, execTelemetry, sbWay_aux ha, if_pos hon]
    rfl

/-! ### The test access port (R515, R516, R546) -/

/-- The state an instruction acts on: TCK was seen. -/
def tckSeen (s : State) : State := supSet s { s.sup with tck := some s.time }

theorem tapWay_eq : tapWay f s = .next ((f (tckSeen s)).queued s) := rfl

theorem exec_extest {d : List Bool} : exec (.extest d) s = execExtest d s := rfl
theorem exec_tokenLoad {d : List Byte} : exec (.tokenLoad d) s = execTokenLoad d s := rfl
theorem exec_dbgAccess {w : Bool} : exec (.dbgAccess off v w) s = execDbgAccess off v w s := rfl

/-- With main power on and a debug level unlocked DBG_ACCESS is no BYPASS. -/
theorem dbg_reached (hon : s.on = true) (hd : s.sup.debug ≠ 0) : ¬ ((!(tckSeen s).on) = true ∨ (tckSeen s).sup.debug = 0) :=
  not_or.mpr ⟨not_off hon, hd⟩

/-- Settles O30: each instruction with TCK seen, then the branch its hypotheses pick. -/
theorem testAccessPortInstructions : Obligations.TestAccessPortInstructions := by
  refine ⟨?idcode, ?sample, ?extest, ?load, ?status, ?read, ?write, ?misaligned, ?rights, ?locked, ?bypass⟩
  case idcode => exact fun _ => rfl
  case sample => exact fun s => ⟨_, s.free + 1, rfl⟩
  case extest =>
    intro s d hst
    refine ⟨Config.freeBytes s.free 2, s.free + 1, ?_⟩
    have hdrives : (tckSeen s).sup.stage = .off ∨ ((tckSeen s).sup.stage = .rom ∧ (tckSeen s).sup.reason = 9) := hst
    rw [exec_extest, execExtest, tapWay_eq, if_pos hdrives]
    rfl
  case load =>
    intro s d hon
    rw [exec_tokenLoad, execTokenLoad, tapWay_eq, if_pos (show (tckSeen s).on = true from hon)]
    rfl
  case status => exact fun _ => rfl
  case read =>
    intro s off v hon hd h8
    rw [exec_dbgAccess, execDbgAccess, tapWay_eq, if_neg (dbg_reached hon hd), if_neg (by simp), if_neg Bool.false_ne_true, busRead_aligned h8]
    rfl
  case write =>
    intro s off v hon hd h8
    rw [exec_dbgAccess, execDbgAccess, tapWay_eq, if_neg (dbg_reached hon (by omega)), if_neg (fun h => h.2 hd), if_pos rfl, if_neg (not_not.mpr h8)]
    rfl
  case misaligned =>
    intro s off v w hon hd h8
    have h0 : s.sup.debug ≠ 0 := by omega
    have hr : ¬ (w = true ∧ (tckSeen s).sup.debug ≠ 2) := fun h => hd.elim h.2 (fun h1 => Bool.false_ne_true (h1.2.symm.trans h.1))
    rw [exec_dbgAccess, execDbgAccess, tapWay_eq, if_neg (dbg_reached hon h0), if_neg hr, if_pos h8, busRead_misaligned h8]
    cases w <;> rfl
  case rights =>
    intro s off v hon hd
    have h2 : (tckSeen s).sup.debug ≠ 2 := fun h => absurd (hd.symm.trans h) (by decide)
    rw [exec_dbgAccess, execDbgAccess, tapWay_eq, if_neg (dbg_reached hon (by omega)), if_pos ⟨rfl, h2⟩]
    rfl
  case locked =>
    intro s off v w hd
    rw [exec_dbgAccess, execDbgAccess, tapWay_eq, if_pos (.inr hd)]
    rfl
  case bypass => exact fun _ _ _ => rfl

end Sys2Proof.Proofs
end

section
/-! PROOFS. spec/18_start_cellar_trust.md: the SPDM requests on an open connection (R508, R509, Table 18-7; log 44, PRESUMED, for the layout of
the messages). -/

namespace Sys2Proof.Proofs

open Sys2Proof Sys2Proof.Machine Sys2Proof.Laws

variable {s : State} {c : SpdmConn} {l : Nat} {f : State → State} {q : List Byte}

/-! ### A request on its connection -/

/-- The connection is open and has reached a level of the negotiation. -/
def SpdmReady (s : State) (c : SpdmConn) (l : Nat) : Prop := s.on = true ∧ connOpen s c = true ∧ l ≤ (spdmGet s c).level

/-- A request that is ready does its own work. -/
theorem spdmWay_ready (h : SpdmReady s c l) : spdmWay c l f s = .next ((f s).queued s) := by
  obtain ⟨hon, hopen, hl⟩ := h
  rw [spdmWay, supOn_on hon, hopen, if_neg (by decide), if_neg (Nat.not_lt.mpr hl)]

theorem exec_getVersion : exec (.getVersion c q) s = execGetVersion c q s := rfl
theorem exec_getCapabilities : exec (.getCapabilities c q) s = execGetCapabilities c q s := rfl
theorem exec_negotiateAlgorithms : exec (.negotiateAlgorithms c q) s = execNegotiateAlgorithms c q s := rfl
theorem exec_keyExchange : exec (.keyExchange c q) s = execKeyExchange c q s := rfl
theorem exec_getDigests : exec (.getDigests c q) s = execGetDigests c q s := rfl
theorem exec_getPqChain {a n : Nat} : exec (.getPqChain c a n) s = execGetPqChain c a n s := rfl
theorem exec_getCertificate : exec (.getCertificate c q) s = execGetCertificate c q s := rfl
theorem exec_challenge : exec (.challenge c q) s = execChallenge c q s := rfl
theorem exec_getMeasurements : exec (.getMeasurements c q) s = execGetMeasurements c q s := rfl
theorem exec_finish : exec (.finish c q) s = execFinish c q s := rfl
theorem exec_endSession : exec (.endSession c q) s = execEndSession c q s := rfl
theorem exec_getCosign : exec (.getCosign c) s = execGetCosign c s := rfl
theorem exec_ideKm : exec (.ideKm c q) s = execIdeKm c q s := rfl

/-! ### Measurements (Table 18-7) -/

/-- The bytes of measurements draw free values and do nothing else. -/
theorem measurement_free (i : Nat) : ∃ n, (measurement s i).2 = { s with free := n } := by
  unfold measurement
  dsimp only
  split
  · exact ⟨s.free, rfl⟩
  · split
    · exact ⟨s.free, rfl⟩
    · split
      · split
        · exact ⟨s.free + 1, rfl⟩
        · exact ⟨s.free, rfl⟩
      · exact ⟨s.free, rfl⟩

theorem measBlocks_free (is : List Nat) : ∃ n, (measBlocks s is).2 = { s with free := n } := by
  induction is generalizing s with
  | nil => exact ⟨s.free, rfl⟩
  | cons i is ih =>
    obtain ⟨n, hn⟩ := measurement_free (s := s) i
    obtain ⟨k, hk⟩ := ih (s := (spdmFree (measurement s i).2 6).2)
    refine ⟨k, hk.trans ?_⟩
    rw [hn]
    rfl

/-- Which measurements an operation asks for: none but their number, all, or one. -/
def measAsked (op : Nat) : List Nat := if op = 0 then [] else if op = 0xFF then [1, 2, 3, 4] else [op]
/-- What a response says of the measurements asked for, and the state that has drawn its free values. -/
def measBody (s : State) (op : Nat) : List Byte × State :=
  let r := measBlocks s (measAsked op)
  let n := spdmFree r.2 32
  (natLe 1 (measAsked op).length ++ natLe 3 r.1.length ++ r.1 ++ n.1, n.2)

theorem measBody_free (op : Nat) : ∃ n, measBody s op = ((measBody s op).1, { s with free := n }) := by
  obtain ⟨n, hn⟩ := measBlocks_free (s := s) (measAsked op)
  refine ⟨n + 1, Prod.ext rfl ?_⟩
  unfold measBody
  dsimp only
  rw [hn]
  rfl

/-- GET_MEASUREMENTS for the number or for one of the four, with a signature or without. -/
theorem exec_getMeasurements_known (h : SpdmReady s c 3) (hi : getLE q 3 1 ≤ 4) {body : List Byte} {u : State} (hb : measBody s (getLE q 3 1) = (body, u)) :
    exec (.getMeasurements c q) s = .next ((
      if bitOf (getLE q 2 1) 0 = true then
        spdmSay (spdmSign u c (q ++ body)).2 c (spdmMsg 0x60 (if getLE q 3 1 = 0 then 4 else 0) 0 (body ++ (spdmSign u c (q ++ body)).1))
      else spdmSay u c (spdmMsg 0x60 (if getLE q 3 1 = 0 then 4 else 0) 0 body)).queued s) := by
  obtain ⟨rfl, rfl⟩ := Prod.mk.inj hb
  rw [exec_getMeasurements, execGetMeasurements, spdmWay_ready h]
  dsimp only
  rw [if_neg (by omega)]
  rfl

/-- What CHALLENGE's answer says before its signature. -/
def challengeBody (s : State) : List Byte := Config.sha384 (edChain s.sup) ++ (spdmFree s 32).1
/-- The bytes a signature is over: the transcript so far, free in the model, and what the answer adds. -/
def signedBytes (s : State) (b : List Byte) : List Byte := (spdmFree s 64).1 ++ b

/-- Settles O31: each request on its ready connection, then the branch its hypotheses pick. -/
theorem spdmRequestsAreAnswered : Obligations.SpdmRequestsAreAnswered := by
  refine ⟨?version, ?capabilities, ?algorithms, ?digests, ?certificate, ?challenge, ?signed, ?unsigned, ?keyExchange, ?finish, ?endSession, ?cosign, ?pqChain, ?ideKm⟩
  case version =>
    intro s c q h
    refine ⟨0, 0, (spdmFree s 4).1, s.free + 1, ?_⟩
    rw [exec_getVersion, execGetVersion, spdmWay_ready h]
    rfl
  case capabilities =>
    intro s c q h
    refine ⟨0, 0, (spdmFree s 16).1, s.free + 1, ?_⟩
    rw [exec_getCapabilities, execGetCapabilities, spdmWay_ready h]
    rfl
  case algorithms =>
    intro s c q h
    refine ⟨0, 0, (spdmFree s 48).1, s.free + 1, ?_⟩
    rw [exec_negotiateAlgorithms, execNegotiateAlgorithms, spdmWay_ready h]
    rfl
  case keyExchange =>
    intro s c q h
    refine ⟨0, 0, (spdmFree s 256).1, s.free + 1, ?_⟩
    rw [exec_keyExchange, execKeyExchange, spdmWay_ready h]
    rfl
  case digests =>
    intro s c q h
    refine ⟨0, 1, Config.sha384 (edChain s.sup), s.free, ?_⟩
    rw [exec_getDigests, execGetDigests, spdmWay_ready h]
    rfl
  case pqChain =>
    intro s c a n h
    refine ⟨0, 0, (vendorHead s).1 ++ natLe 2 (((mlChain s.sup).drop a).take n).length ++ ((mlChain s.sup).drop a).take n, s.free + 1, ?_⟩
    rw [exec_getPqChain, execGetPqChain, spdmWay_ready h]
    rfl
  case certificate =>
    intro s c q h hslot hoff
    let d := ((edChain s.sup).drop (getLE q 4 2)).take (getLE q 6 2)
    refine ⟨0, 0, natLe 2 d.length ++ natLe 2 ((edChain s.sup).length - getLE q 4 2 - d.length) ++ d, s.free, ?_⟩
    rw [exec_getCertificate, execGetCertificate, spdmWay_ready h]
    dsimp only
    rw [if_neg (not_or.mpr ⟨not_not.mpr hslot, Nat.not_lt.mpr hoff⟩)]
    rfl
  case challenge =>
    intro s c q h hslot
    let u := (spdmFree s 32).2
    refine ⟨signedBytes u (q ++ challengeBody s), 0, 1, challengeBody s ++ (spdmSign u c (q ++ challengeBody s)).1, s.free + 2, ?_⟩
    rw [exec_challenge, execChallenge, spdmWay_ready h, if_neg (not_not.mpr hslot)]
    rfl
  case signed =>
    intro s c q h hi hsig
    obtain ⟨n, hn⟩ := measBody_free (s := s) (getLE q 3 1)
    let u : State := { s with free := n }
    let b := (measBody s (getLE q 3 1)).1
    refine ⟨signedBytes u (q ++ b), if getLE q 3 1 = 0 then 4 else 0, 0, b ++ (spdmSign u c (q ++ b)).1, n + 1, ?_⟩
    rw [exec_getMeasurements_known h hi hn, if_pos hsig]
    rfl
  case unsigned =>
    intro s c q h hi hsig
    obtain ⟨n, hn⟩ := measBody_free (s := s) (getLE q 3 1)
    refine ⟨if getLE q 3 1 = 0 then 4 else 0, 0, (measBody s (getLE q 3 1)).1, n, ?_⟩
    rw [exec_getMeasurements_known h hi hn, if_neg (Bool.eq_false_iff.mp hsig)]
    rfl
  case finish =>
    intro s c q h hk
    refine ⟨0, 0, [], s.free, ?_⟩
    rw [exec_finish, execFinish, spdmWay_ready h, if_neg (by simp [hk])]
    rfl
  case endSession =>
    intro s c q h hk
    refine ⟨0, 0, [], s.free, ?_⟩
    rw [exec_endSession, execEndSession, spdmWay_ready h, if_neg (by simp [hk])]
    rfl
  case cosign =>
    intro s c h hm
    obtain ⟨m, hm⟩ := Option.isSome_iff_exists.mp hm
    let sig := Config.mlSign (mlAliasSeed s.sup) s.free m
    refine ⟨0, 0, (vendorHead s.draw.2).1 ++ natLe 2 sig.length ++ sig, s.free + 2, ?_⟩
    rw [exec_getCosign, execGetCosign, spdmWay_ready h]
    simp only [hm]
    rfl
  case ideKm =>
    intro s c q h hk
    refine ⟨0, 0, (spdmFree s 16).1, s.free + 1, ?_⟩
    rw [exec_ideKm, execIdeKm, spdmWay_ready h, if_neg (by simp [hk])]
    rfl

end Sys2Proof.Proofs
end

section
/-! PROOFS. spec/17_damper_power_thermal.md: alerts and the forced state (R476, R477), samples and the fast limit (R467, R475, R482), the
sensors and the trip (R480, R483); with the clocks of R540 and the health tests of R513. The status of the jobs a lost PLL faults is free
(log 42). -/

namespace Sys2Proof.Proofs

open Sys2Proof Sys2Proof.Machine Sys2Proof.Laws

variable {s : State} {src : Nat} {d : Damp}

/-! ### The rows -/

theorem exec_pllLockLost (dom : Nat) : exec (.pllLockLost dom) s = execPllLockLost dom s := rfl
theorem exec_rngHealthFail : exec .rngHealthFail s = execRngHealthFail s := rfl
theorem exec_rngHealthPass : exec .rngHealthPass s = execRngHealthPass s := rfl
theorem exec_sensorRead (l : List (Option Int)) : exec (.sensorRead l) s = execSensorRead l s := rfl
theorem exec_pwrAlertAssert : exec .pwrAlertAssert s = execPwrAlertAssert s := rfl
theorem exec_pwrAlertClear : exec .pwrAlertClear s = execPwrAlertClear s := rfl
theorem exec_internalAlertClear : exec .internalAlertClear s = execInternalAlertClear s := rfl
theorem exec_dampAlertEnd : exec .dampAlertEnd s = execDampAlertEnd s := rfl
theorem exec_fastLimitStep : exec .fastLimitStep s = execFastLimitStep s := rfl
theorem exec_fastLimitEnd : exec .fastLimitEnd s = execFastLimitEnd s := rfl
theorem exec_emergLower : exec .emergLower s = execEmergLower s := rfl
theorem exec_energySample (e : EnergySample) : exec (.energySample e) s = execEnergySample e s := rfl
/-- Both causes of an internal alert act alike. -/
theorem exec_internalAlert (w : AlertCause) : exec (.internalAlert w) s = hubOnly (fun s => forceEnter (dmpSet s { s.damp with alertInt := true }) 2) s := by
  cases w <;> rfl

/-! ### Sensors and the trip -/

/-- Marking reasons seen moves no tick and no sensor. -/
theorem seen_tick (f : State → State) (s : State) : (hubWork (fun s => seeReasons (f s)) s).tk.num = (f s).tk.num := rfl
theorem seen_damp (f : State → State) (s : State) : (hubWork (fun s => seeReasons (f s)) s).damp = (f s).damp := rfl
theorem tripSensor_seen (f : State → State) (s : State) : tripSensor (hubWork (fun s => seeReasons (f s)) s) = tripSensor (f s) := by
  unfold tripSensor sensorGet
  rw [seen_damp]

/-- A reading at a hub without a trip does the damper's work alone. -/
theorem exec_sensorRead_calm (hon : s.on = true) (l : List (Option Int)) (hcalm : tripSensor (readSensors s l) = none) :
    exec (.sensorRead l) s = .next ((seeReasons (readSensors s l)).under s) := by
  have hseen : tripSensor (hubWork (fun s => seeReasons (readSensors s l)) s) = none := (tripSensor_seen _ s).trans hcalm
  rw [exec_sensorRead, execSensorRead, supOn_on hon]
  simp only [hseen]
  rfl

/-- A sensor at TRIP twice in a row trips the hub. -/
theorem exec_sensorRead_trip (hon : s.on = true) (l : List (Option Int)) {i : Nat} (htrip : tripSensor (readSensors s l) = some i) :
    exec (.sensorRead l) s = .next ((thermalTrip (hubWork (fun s => seeReasons (readSensors s l)) s) i).queued s) := by
  have hseen : tripSensor (hubWork (fun s => seeReasons (readSensors s l)) s) = some i := (tripSensor_seen _ s).trans htrip
  rw [exec_sensorRead, execSensorRead, supOn_on hon]
  simp only [hseen]

/-- What a trip leaves (R483, R545): no main power, sensor and tick recorded, both pins low. -/
def TripEnds (s t : State) (i : Nat) : Prop :=
  t.on = false ∧ unpowered t ∧ t.sup.trip = true ∧ t.sup.tripped = true ∧ t.sup.tripSensor = i ∧ t.sup.tripTick = s.tk.num
    ∧ .pin "THERMTRIP_N" false ∈ t.out ∧ .pin "SB_ALERT_N" false ∈ t.out

theorem thermalTrip_out (s u : State) (i : Nat) :
    ((thermalTrip s i).queued u).out = .pin "SB_ALERT_N" false :: .pin "THERMTRIP_N" false :: (mainOff s 0).out := rfl

theorem thermalTrip_ends (s u : State) (i : Nat) : TripEnds s ((thermalTrip s i).queued u) i := by
  refine ⟨queued_on.trans (thermalTrip_unpowered (s := s) i).1, unpowered_of_fields (thermalTrip_unpowered (s := s) i).2 rfl, rfl, rfl, rfl, rfl, ?_, ?_⟩
  · rw [thermalTrip_out]
    exact List.mem_cons_of_mem _ (List.mem_cons_self ..)
  · rw [thermalTrip_out]
    exact List.mem_cons_self ..

/-- Settles O22: each row, then the branch its hypotheses pick; a trip leaves a hub without main power. -/
theorem clocksHealthTestsAndSensors : Obligations.ClocksHealthTestsAndSensors := by
  refine ⟨?pll, ?failsAgain, ?fails, ?passes, fun s l hon => exec_sensorRead_calm hon l, ?trip⟩
  case pll =>
    intro s dom hst hdom
    refine ⟨if Config.freeNat s.free % 2 = 0 then St.aborted else St.link, ite_eq_or_eq .., ?_⟩
    rw [exec_pllLockLost, execPllLockLost, supOn_on (on_of_run hst), if_neg (by simp [hst, hdom])]
    generalize faultAllJobs = faultAll
    rfl
  case failsAgain =>
    intro s hon hep
    rw [exec_rngHealthFail, execRngHealthFail, supOn_on hon]
    simp only [hep]
    rfl
  case fails =>
    intro s hon hep
    rw [exec_rngHealthFail, execRngHealthFail, supOn_on hon]
    simp only [hep]
    rfl
  case passes =>
    intro s hon
    rw [exec_rngHealthPass, execRngHealthPass, supOn_on hon]
    rfl
  case trip =>
    intro s l i hon htrip
    obtain ⟨hoff, hempty, ht, htt, hsensor, htick, hpins⟩ := thermalTrip_ends (hubWork (fun s => seeReasons (readSensors s l)) s) s i
    exact ⟨_, exec_sensorRead_trip hon l htrip, hoff, hempty, ht, htt, hsensor, htick.trans (seen_tick _ s), hpins⟩

/-! ### The forced state -/

/-- What entering the forced state does, from its damper's cells and source. -/
def forcedState (s : State) (d : Damp) (src : Nat) : State :=
  let a := ({ s with damp := { d with forced := true, forcedSrc := src, cleared := none } } : State).notice 0x0A02 [src]
  seeReasons (stopUnsched ((a.st.copies.filter (fun c => c.close.isNone)).foldl (fun s c => abandonCopy s c.tile) a) St.power)

theorem forceEnter_new (h : d.forced = false) : forceEnter (dmpSet s d) src = forcedState s d src := by
  have hoff : ¬ (dmpSet s d).damp.forced = true := by simp [dmpSet, h]
  rw [forceEnter, if_neg hoff]
  rfl
theorem forceEnter_again (h : d.forced = true) :
    forceEnter (dmpSet s d) src = seeReasons (dmpSet s { d with forcedSrc := d.forcedSrc ||| src, cleared := none }) := if_pos h

/-- The last alert to clear begins the hold; one that leaves the other standing does not. -/
theorem forceClear_forced (hf : d.forced = true) (hc : d.cleared = none) :
    forceClear (dmpSet s d) = dmpSet s { d with cleared := if d.alertExt = true ∨ d.alertInt = true then none else some s.time } := by
  unfold forceClear
  by_cases h : d.alertExt = true ∨ d.alertInt = true
  · rw [if_neg (by rcases h with h | h <;> simp [dmpSet, h]), if_pos h, ← hc]
  · rw [if_pos (by simpa [dmpSet, hf, hc] using h), if_neg h]
    rfl

/-- Settles O38: each row, then the branch its hypotheses pick. -/
theorem damperAlertsAndLimits : Obligations.DamperAlertsAndLimits := by
  refine ⟨?enters, ?adds, ?internal, ?internalAdds, ?clears, ?internalClears, ?holdEnds, ?sample, ?raises, ?episodeEnds, ?lowers⟩
  case enters =>
    intro s hon hf
    rw [exec_pwrAlertAssert, execPwrAlertAssert, hubOnly_on hon, forceEnter_new (d := { s.damp with alertExt := true }) hf]
    rfl
  case adds =>
    intro s hon hf
    rw [exec_pwrAlertAssert, execPwrAlertAssert, hubOnly_on hon, forceEnter_again (d := { s.damp with alertExt := true }) hf]
    rfl
  case internal =>
    intro s w hon hf
    rw [exec_internalAlert, hubOnly_on hon, forceEnter_new (d := { s.damp with alertInt := true }) hf]
    rfl
  case internalAdds =>
    intro s w hon hf
    rw [exec_internalAlert, hubOnly_on hon, forceEnter_again (d := { s.damp with alertInt := true }) hf]
    rfl
  case clears =>
    intro s hon hf hc
    rw [exec_pwrAlertClear, execPwrAlertClear, hubOnly_on hon, forceClear_forced (d := { s.damp with alertExt := false }) hf hc]
    simp [dmpSet, State.under]
  case internalClears =>
    intro s hon hf hc
    rw [exec_internalAlertClear, execInternalAlertClear, hubOnly_on hon, forceClear_forced (d := { s.damp with alertInt := false }) hf hc]
    simp [dmpSet, State.under]
  case holdEnds =>
    intro s t hon hf hc
    rw [exec_dampAlertEnd, execDampAlertEnd, hubOnly_on hon]
    simp only [hc]
    rw [if_pos hf]
    rfl
  case sample =>
    intro s e hon
    rw [exec_energySample, execEnergySample, hubOnly_on hon]
    rfl
  case raises =>
    intro s hon hep hlim
    rw [exec_fastLimitStep, execFastLimitStep, hubOnly_on hon, if_pos ⟨hep, hlim⟩]
    rfl
  case episodeEnds =>
    intro s t hon hep hlow
    rw [exec_fastLimitEnd, execFastLimitEnd, hubOnly_on hon]
    split
    next t' ht' =>
      obtain rfl : t = t' := Option.some.inj (hlow.symm.trans ht')
      rw [if_pos hep]
      rfl
    next hnone => exact nomatch hlow.symm.trans hnone
  case lowers =>
    intro s hon hep hth hf
    rw [exec_emergLower, execEmergLower, hubOnly_on hon, if_neg (by simp [hep, hth, hf])]
    rfl

end Sys2Proof.Proofs
end

section
/-! PROOFS. spec/18_start_cellar_trust.md: the stages of a start (R491 to R493, R497 to R499, R512; R533 of spec/19) and the yoke (R517 to
R519; log 77, DESIGN CHOICE, for the cells that carry no HELLO). -/

namespace Sys2Proof.Proofs

open Sys2Proof Sys2Proof.Machine Sys2Proof.Laws

variable {s u : State} {g : Stage} {inp : Nat} {c a : Cell}

/-! ### The rows -/

theorem exec_powerDone : exec .powerDone s = execPowerDone s := rfl
theorem exec_romDone : exec .romDone s = execRomDone s := rfl
theorem exec_verifyDone : exec .verifyDone s = execVerifyDone s := rfl
theorem exec_configDone : exec .configDone s = execConfigDone s := rfl
theorem exec_storeDone : exec .storeDone s = execStoreDone s := rfl
theorem exec_applyEnd : exec .applyEnd s = execApplyEnd s := rfl
theorem exec_startStageTimeout : exec .startStageTimeout s = execStartStageTimeout s := rfl
theorem exec_railRampTimeout : exec .railRampTimeout s = execRailRampTimeout s := rfl
theorem exec_startRetry : exec .startRetry s = execStartRetry s := rfl
theorem exec_yokeHello : exec (.yokeHello inp c) s = execYokeHello inp c s := rfl
theorem exec_yokeFormed (ok : Bool) : exec (.yokeFormed ok) s = execYokeFormed ok s := rfl
theorem exec_yokeRefused : exec .yokeRefused s = execYokeRefused s := rfl

/-! ### A stage that runs -/

theorem inStage_iff : inStage s g = true ↔ s.sup.stage = g ∧ s.sup.stopped = false ∧ s.damp.forced = false := by
  simp [inStage, and_assoc]

/-- In every stage but OFF main power is on. -/
theorem on_of_stage_ne_off (h : s.sup.stage ≠ .off) : s.on = true := by
  rw [State.on]
  exact bne_iff_ne.mpr h

theorem on_of_inStage (h : inStage s g = true) (hg : g ≠ .off) : s.on = true :=
  on_of_stage_ne_off ((inStage_iff.mp h).1 ▸ hg)

/-- Before RUN a notice is held back (R495). -/
theorem notice_held (h : s.sup.stage ≠ .run) (code : Nat) (args : List Nat) :
    s.notice code args = { s with host := { s.host with heldNotices := s.host.heldNotices ++ [{ code := code, tenant := 0xFFFF, job := none, args := args, time := s.time, tick := s.tk.num }] } } :=
  if_neg h

/-! ### CONFIG (R497, R498) -/

/-- CONFIG's choice of a copy of the record, from what it found of the two copies. -/
def chooseCopy (s : State) (a b : Bool) : State :=
  if a = true ∧ b = true then
    (if cfgNewer (getLE s.sup.cellar.copyA 8 4) (getLE s.sup.cellar.copyB 8 4) then useCopy s true s.sup.cellar.copyB else useCopy s false s.sup.cellar.copyA)
  else if a = true then (useCopy s false s.sup.cellar.copyA).notice 0x0B02 [1]
  else if b = true then (useCopy s true s.sup.cellar.copyB).notice 0x0B02 [0]
  else s.notice 0x0B03

/-- What CONFIG has found of the two copies. -/
def judgedSup (u : Sup) : Sup :=
  { u with aValid := cfgValid u.cellar.copyA, bValid := cfgValid u.cellar.copyB, cfgNone := !cfgValid u.cellar.copyA && !cfgValid u.cellar.copyB }

theorem configStage_eq (s : State) :
    configStage s = configLevel (chooseCopy (supSet s (judgedSup s.sup)) (cfgValid s.sup.cellar.copyA) (cfgValid s.sup.cellar.copyB)) := rfl

/-- Two states agree on the judgement of the copies and on registers and memory. -/
def SameJudgement (s t : State) : Prop :=
  t.sup.aValid = s.sup.aValid ∧ t.sup.bValid = s.sup.bValid ∧ t.sup.cfgNone = s.sup.cfgNone ∧ t.regs = s.regs ∧ t.mem = s.mem

theorem SameJudgement.notice {t : State} (h : SameJudgement s t) (ht : t.sup.stage ≠ .run) (code : Nat) (args : List Nat) :
    SameJudgement s (t.notice code args) := by
  rw [notice_held ht]
  exact h

theorem sameJudgement_useCopy (b : Bool) (r : List Byte) : SameJudgement s (useCopy s b r) := ⟨rfl, rfl, rfl, rfl, rfl⟩

theorem sameJudgement_chooseCopy (hs : s.sup.stage ≠ .run) (a b : Bool) : SameJudgement s (chooseCopy s a b) := by
  unfold chooseCopy
  split
  · split <;> exact sameJudgement_useCopy ..
  · split
    · exact (sameJudgement_useCopy ..).notice hs ..
    · split
      · exact (sameJudgement_useCopy ..).notice hs ..
      · exact SameJudgement.notice ⟨rfl, rfl, rfl, rfl, rfl⟩ hs ..

theorem sameJudgement_configLevel : SameJudgement s (configLevel s) := by
  unfold configLevel
  dsimp only
  split
  · exact SameJudgement.notice ⟨rfl, rfl, rfl, rfl, rfl⟩ (by simp [enterStage, supSet]) ..
  · exact ⟨rfl, rfl, rfl, rfl, rfl⟩

theorem configLevel_sup : (configLevel s).sup = { s.sup with level := (runLevel s.sup.hdr.level).1, stage := .store, stageAt := s.time } := by
  unfold configLevel
  dsimp only
  split
  · exact notice_sup ..
  · rfl

/-- What CONFIG leaves. -/
theorem configStage_leaves (hs : s.sup.stage ≠ .run) : SameJudgement (supSet s (judgedSup s.sup)) (configStage s)
    ∧ (configStage s).sup.stage = .store ∧ (configStage s).sup.level = (runLevel (configStage s).sup.hdr.level).1 := by
  rw [configStage_eq, configLevel_sup]
  obtain ⟨ha, hb, hn, hr, hm⟩ := sameJudgement_chooseCopy (s := supSet s (judgedSup s.sup)) hs (cfgValid s.sup.cellar.copyA) (cfgValid s.sup.cellar.copyB)
  obtain ⟨ha', hb', hn', hr', hm'⟩ :=
    sameJudgement_configLevel (s := chooseCopy (supSet s (judgedSup s.sup)) (cfgValid s.sup.cellar.copyA) (cfgValid s.sup.cellar.copyB))
  exact ⟨⟨ha'.trans ha, hb'.trans hb, hn'.trans hn, hr'.trans hr, hm'.trans hm⟩, rfl, rfl⟩

/-- Settles O23: each stage's end, then the branch its hypotheses pick. -/
theorem startStagesEndAsTheTableSays : Obligations.StartStagesEndAsTheTableSays := by
  refine ⟨?power, ?rom, ?verify, ?config, ?yoke, ?single, ?apply⟩
  case power =>
    intro s h hw
    rw [exec_powerDone, execPowerDone, supOn_on (on_of_inStage h (by decide)), if_pos ⟨h, by simp [hw]⟩]
    rfl
  case rom =>
    intro s h
    rw [exec_romDone, execRomDone, supOn_on (on_of_inStage h (by decide)), if_pos h]
    split <;> rfl
  case verify =>
    intro s h htorn
    dsimp only
    rw [exec_verifyDone, execVerifyDone, supOn_on (on_of_inStage h (by decide)), if_pos h]
    simp only [htorn]
    split <;> rfl
  case config =>
    intro s h
    obtain ⟨⟨ha, hb, hn, hr, hm⟩, hstage, hlevel⟩ := configStage_leaves (s := s) (by simp [(inStage_iff.mp h).1])
    refine ⟨_, ?_, rfl, hstage, ha, hb, ?_, hlevel, hr, hm⟩
    · rw [exec_configDone, execConfigDone, supOn_on (on_of_inStage h (by decide)), if_pos h]
    · exact hn.trans (congrArg₂ (fun x y => !x && !y) ha.symm hb.symm)
  case yoke =>
    intro s h hrng hy
    rw [exec_storeDone, execStoreDone, supOn_on (on_of_inStage h (by decide)), if_pos ⟨h, hrng⟩]
    dsimp only
    rw [if_pos ⟨hy.1, by simpa [supSet, drawKeys] using hy.2⟩]
    generalize drawKeys = draw
    rfl
  case single =>
    intro s h hrng hy
    rw [exec_storeDone, execStoreDone, supOn_on (on_of_inStage h (by decide)), if_pos ⟨h, hrng⟩]
    dsimp only
    rw [if_neg (by rcases hy with hy | hy <;> simp [supSet, drawKeys, hy])]
    rfl
  case apply =>
    intro s h
    rw [exec_applyEnd, execApplyEnd, supOn_on (on_of_inStage h (by decide)), if_pos h]

/-! ### Bounds and the retry (R492) -/

theorem stageStop_running (h : s.sup.stopped = false) : stageStop s = supSet s { s.sup with reason := 10, stopped := true } :=
  if_neg (by simp [h])

/-- Settles O24: the bound passes in a stage that runs, and a start so stopped begins anew. -/
theorem stageBoundsStopAndRetryAStart : Obligations.StageBoundsStopAndRetryAStart := by
  refine ⟨?bound, ?ramp, ?retry⟩
  case bound =>
    intro s hst hf hrun
    have hon : s.on = true := on_of_stage_ne_off (ne_of_mem_of_not_mem hst (by decide))
    have hrun' : (stageOver s).sup.stopped = false := hrun
    rw [exec_startStageTimeout, execStartStageTimeout, supOn_on hon, if_pos ⟨List.elem_eq_true_of_mem hst, by simp [hf]⟩, stageStop_running hrun']
    rfl
  case ramp =>
    intro s hst hrun
    rw [exec_railRampTimeout, execRailRampTimeout, supOn_on (on_of_stage_ne_off (by simp [hst])), if_pos hst, stageStop_running hrun]
    rfl
  case retry =>
    intro s hon hstop hret hreason
    refine ⟨(beginStart s false true 0).queued s, ?_, rfl, rfl, rfl, rfl, rfl, rfl, rfl⟩
    rw [exec_startRetry, execStartRetry, supOn_on hon, if_pos ⟨hstop, by simp [hret], hreason⟩]

/-! ### The yoke (R517 to R519) -/

/-- A cell taken in over a yoke port while the yoke forms. -/
theorem exec_yokeHello_taken (hst : s.sup.stage = .yoke) (hp : inp = 24 ∨ inp = 25) (hc : cellTaken s inp c a u) :
    exec (.yokeHello inp c) s = .next ((
      let v : State := { giveBack (if isHello a then sendPort u 33 inp (rspCell u a 0x12 St.ok 0 []) else u) inp a.vn with sup := s.sup }
      if isHello a = true ∧ (!v.sup.helloOk) = true then helloTake v inp (slice a.payload 0 64) else v).queued s) := by
  obtain ⟨hon, hin⟩ := hc
  rw [exec_yokeHello, execYokeHello, supOn_on hon, if_neg (by rcases hp with rfl | rfl <;> simp [hst])]
  simp only [hubWork, arrive, hin]

theorem yokeRefused_reason (s : State) :
    (if (yokePorts s).isEmpty then 1 else if s.sup.hello.isNone then 2 else 9) = if yokePorts s = [] then 1 else if s.sup.hello = none then 2 else 9 := by
  simp only [List.isEmpty_iff, Option.isNone_iff_eq_none]

/-- Settles O25: a HELLO is answered and then checked, any other cell is taken in alone; the yoke forms or is refused. -/
theorem yokeFormsOrIsRefused : Obligations.YokeFormsOrIsRefused := by
  refine ⟨?hello, ?other, ?formed, ?unauthenticated, ?refused⟩
  case hello =>
    intro s u inp c a hst hp hc hty htag haddr hpay
    have hh : isHello a = true := by simp [isHello, hty, htag, haddr, hpay]
    dsimp only
    rw [exec_yokeHello_taken hst hp hc]
    dsimp only
    rw [if_pos hh]
    by_cases hok : s.sup.helloOk = true
    · rw [if_pos hok, if_neg (by simp [hok])]
    · rw [if_neg hok, if_pos ⟨hh, by simpa using hok⟩]
  case other =>
    intro s u inp c a hst hp hc hh
    rw [exec_yokeHello_taken hst hp hc]
    dsimp only
    rw [if_neg (Bool.eq_false_iff.mp hh), if_neg (fun h => Bool.eq_false_iff.mp hh h.1)]
  case formed =>
    intro s h hok
    rw [exec_yokeFormed, execYokeFormed, supOn_on (on_of_inStage h (by decide)), if_pos ⟨h, hok⟩, if_pos rfl]
    rfl
  case unauthenticated =>
    intro s h hok
    rw [exec_yokeFormed, execYokeFormed, supOn_on (on_of_inStage h (by decide)), if_pos ⟨h, hok⟩, if_neg (by decide)]
  case refused =>
    intro s h
    rw [exec_yokeRefused, execYokeRefused, supOn_on (on_of_inStage h (by decide)), if_pos h]
    dsimp only
    rw [yokeRefused_reason]
    rfl

end Sys2Proof.Proofs
end

section
/-! PROOFS. spec/18_start_cellar_trust.md: the commands of the Cellar, of trust and of the switch's tables (R494, R500 to R503, R505, R506,
R516, R520, R521; R228 and R239 of spec/07). The model's choices: log 110 (DESIGN CHOICE) for what CFG_IDENT's record captures, log 83
(DEDUCED) for IMAGE_COMMIT in RECOVERY, log 75 (DEDUCED) for the layout of CFG_INFO's answer, log 82 (DEDUCED) for a token's status. -/

namespace Sys2Proof.Proofs

open Sys2Proof Sys2Proof.Machine Sys2Proof.Laws

variable {s : State} {mb : Mbx} {iss : Issuer} {f : State → State}

/-! ### The rows -/

theorem exec_cellarStore : exec (.cellarStore mb) s = execCellarStore mb s := rfl
theorem exec_cellarWriteDone (ok : Bool) : exec (.cellarWriteDone ok) s = execCellarWriteDone ok s := rfl
theorem exec_cfgInfo : exec (.cfgInfo mb) s = execCfgInfo mb s := rfl
theorem exec_cfgIdent (x : CfgIdent) : exec (.cfgIdent mb x) s = execCfgIdent mb x s := rfl
theorem exec_lockSet : exec (.lockSet mb) s = execLockSet mb s := rfl
theorem exec_svnRaise (i v : Nat) : exec (.svnRaise mb i v) s = execSvnRaise mb i v s := rfl
theorem exec_imageWrite (off : Nat) (data : List Byte) : exec (.imageWrite mb off data) s = execImageWrite mb off data s := rfl
theorem exec_imageCommit : exec (.imageCommit mb) s = execImageCommit mb s := rfl
theorem exec_debugUnlock (token : List Byte) : exec (.debugUnlock mb token) s = execDebugUnlock mb token s := rfl
theorem exec_mcastSet (g e : Nat) : exec (.mcastSet mb g e) s = execMcastSet mb g e s := rfl
theorem exec_tagSet (g e : Nat) : exec (.tagSet mb g e) s = execTagSet mb g e s := rfl

/-! ### Commands that reach the supervisor -/

theorem mbxSup_vendor (h : vendorReady mb iss s) : mbxSup mb (vendor mb iss f) s = .next ((f (mbxIn mb s)).queued s) := by
  rw [mbxSup_eq, gate_vendor h]

/-- Outside RECOVERY a command that RECOVERY accepts is an ordinary vendor command. -/
theorem recCmd_vendor (h : s.sup.stage ≠ .recovery) : recCmd mb f s = vendor mb .sys f s := if_neg h

/-- In RECOVERY a free mailbox of LD 0 or of the sideband reaches the command's effect. -/
theorem recCmd_recovery (hst : s.sup.stage = .recovery) (hmb : mb = .ld 0 ∨ mb = .sideband) (hb : s.host.busy.contains (mbxKey mb) = false) :
    recCmd mb f s = f s := by
  rw [recCmd, if_pos hst, if_neg (by rcases hmb with rfl | rfl <;> exact nofun), if_neg (Bool.eq_false_iff.mp hb), if_pos hmb]

/-- A mailbox's command meets its work in the state that has taken its doorbell. -/
theorem mbxGate_mbxIn (hon : s.on = true) (hsb : mb = .sideband → s.sup.aux = true ∧ s.host.sb.state ≠ 1) : mbxGate mb f s = f (mbxIn mb s) := by
  by_cases hm : mb = .sideband
  · obtain ⟨ha, hb⟩ := hsb hm
    simp [mbxGate, mbxIn, hm, ha, sbRefusal, hon, hb]
  · simp [mbxGate, mbxIn, hm, hon]

theorem mbxIn_busy : (mbxIn mb s).host.busy = s.host.busy := by unfold mbxIn; split <;> rfl

theorem mbxSup_rec (h : recReady mb s) : mbxSup mb (recCmd mb f) s = .next ((f (mbxIn mb s)).queued s) := by
  obtain hv | ⟨hst, hb, hmb⟩ := h
  · have hg := gate_vendor (f := f) hv
    obtain ⟨⟨hon, hsb, -, hst⟩, -, -⟩ := hv
    rw [mbxGate_mbxIn hon hsb] at hg
    rw [mbxSup_eq, mbxGate_mbxIn hon hsb, recCmd_vendor (by rwa [mbxIn_sup]), hg]
  · have hon : s.on = true := on_of_stage_ne_off (by simp [hst])
    have hsb : mb = .sideband → s.sup.aux = true ∧ s.host.sb.state ≠ 1 := by
      rintro rfl
      exact hmb.resolve_left nofun |>.2
    rw [mbxSup_eq, mbxGate_mbxIn hon hsb, recCmd_recovery (by rwa [mbxIn_sup]) (hmb.imp_right And.left) (by rwa [mbxIn_busy])]

/-- A background command that finds no Cellar write in progress. -/
theorem cellarFree_idle (h : s.sup.job = none) : cellarFree mb f s = f s := if_neg (by simp [h])

/-! ### Writes of the record and of images (R494, R500 to R503, R521) -/

/-- The end of a Cellar write is the end of the one in progress. -/
theorem exec_cellarWriteDone_job {w : CellarJob} (hon : s.on = true) (hw : s.sup.job = some w) (ok : Bool) :
    exec (.cellarWriteDone ok) s = .next ((cellarDone w ok s).queued s) := by
  rw [exec_cellarWriteDone, execCellarWriteDone, supOn_on hon]
  simp only [hw]

/-- Settles O26: each command reaches its effect, then the branch its hypotheses pick. -/
theorem cellarWritesRecordsAndImages : Obligations.CellarWritesRecordsAndImages := by
  refine ⟨?store, ?ident, ?stored, ?again, ?failed, ?imageWrite, ?imageCommit⟩
  case store =>
    intro s mb h hj
    rw [exec_cellarStore, execCellarStore, mbxSup_vendor h, cellarFree_idle (by rwa [mbxIn_sup]), mbxIn_sup]
  case ident =>
    intro s mb x h hj hl hh hp
    rw [exec_cfgIdent, execCfgIdent, mbxSup_vendor h]
    dsimp only
    rw [mbxIn_sup, if_neg (by simp [hl]), if_neg (by omega), cellarFree_idle (by rwa [mbxIn_sup]), mbxIn_sup]
    rfl
  case stored =>
    intro s w hon hw hk hy
    rw [exec_cellarWriteDone_job hon hw, cellarDone, if_neg (Nat.not_le.mpr hk), if_pos rfl, storeAnswer, if_neg (by simp [hy])]
    rfl
  case again =>
    intro s w hon hw hk ha
    rw [exec_cellarWriteDone_job hon hw, cellarDone, if_neg (Nat.not_le.mpr hk), if_neg (by decide), if_pos ha]
    rfl
  case failed =>
    intro s w hon hw hk ha
    rw [exec_cellarWriteDone_job hon hw, cellarDone, if_neg (Nat.not_le.mpr hk), if_neg (by decide), if_neg (by omega)]
    rfl
  case imageWrite =>
    intro s mb off data h hlen
    rw [exec_imageWrite, execImageWrite, mbxSup_rec h, if_neg (Nat.not_lt.mpr hlen), mbxIn_sup]
    rfl
  case imageCommit =>
    intro s mb h hj
    dsimp only
    rw [exec_imageCommit, execImageCommit, mbxSup_rec h, cellarFree_idle (by rwa [mbxIn_sup]), mbxIn_sup]
    dsimp only
    split
    · rfl
    · split
      · rw [notice_sup, mbxIn_sup]
        simp only [enterStage, supSet, core_time (notice_core ..), mbxIn_time]
      · rfl

/-! ### Answers, the lock, tokens and tables (R506, R516, R520; R228, R239) -/

/-- SEQ of a copy is the record's where the copy is valid, and draws at most a free value. -/
theorem copySeq_free (valid : Bool) (r : List Byte) : ∃ a n, copySeq s valid r = (a, { s with free := n }) ∧ (valid = true → a = getLE r 8 4) := by
  cases valid with
  | true => exact ⟨_, s.free, rfl, fun _ => rfl⟩
  | false => exact ⟨_, s.free + 1, rfl, nofun⟩

theorem setLock_set (h : s.sup.lock = true) : setLock s = s := if_pos h

theorem tokenRun_status (t : List Byte) : (tokenRun s t).1 = tokenStatus s t := by
  unfold tokenRun
  dsimp only
  split <;> rfl
/-- The sideband's doorbell bears on no token. -/
theorem tokenStatus_mbxIn (t : List Byte) : tokenStatus (mbxIn mb s) t = tokenStatus s t := by
  unfold mbxIn
  split <;> rfl

theorem mcastOk_iff {g : Nat} : mcastOk g = true ↔ 0 < g ∧ g < 65536 := by simp [mcastOk]
theorem tagOk_iff {t v : Nat} : tagOk t v = true ↔ t < 65536 ∧ v % 1024 < 512 := by simp [tagOk]

/-- Settles O27: each command reaches its effect, then the branch its hypotheses pick. -/
theorem cellarAnswersAndTables : Obligations.CellarAnswersAndTables := by
  refine ⟨?info, ?lock, ?locked, ?token, ?mcast, ?tag⟩
  case info =>
    intro s mb h
    obtain ⟨a, n, ha, hav⟩ := copySeq_free (s := mbxIn mb s) s.sup.aValid s.sup.cellar.copyA
    obtain ⟨b, m, hb, hbv⟩ := copySeq_free (s := { mbxIn mb s with free := n }) s.sup.bValid s.sup.cellar.copyB
    refine ⟨a, b, m, hav, hbv, ?_⟩
    rw [exec_cfgInfo, execCfgInfo, mbxSup_rec h, mbxIn_sup]
    simp only [ha, hb]
  case lock =>
    intro s mb h hl
    rw [exec_lockSet, execLockSet, mbxSup_vendor h, setLock_clear (by rwa [mbxIn_sup]), mbxIn_sup]
    rfl
  case locked =>
    intro s mb h hl
    rw [exec_lockSet, execLockSet, mbxSup_vendor h, setLock_set (by rwa [mbxIn_sup])]
  case token =>
    intro s mb token h hlen
    rw [exec_debugUnlock, execDebugUnlock]
    simp only [if_neg (Nat.not_lt.mpr hlen)]
    rw [mbxSup_vendor h, ← tokenStatus_mbxIn (mb := mb), ← tokenRun_status]
  case mcast =>
    intro s mb g e h
    rw [exec_mcastSet, execMcastSet, mbxOnly_vendor h]
    simp only [mcastOk_iff]
    rfl
  case tag =>
    intro s mb g e h
    rw [exec_tagSet, execTagSet, mbxOnly_vendor h]
    simp only [tagOk_iff]
    rfl

/-! ### Counters (R505) -/

/-- Settles O28: SVN_RAISE's checks in their order. -/
theorem svnRaiseNeverLowersACounter : Obligations.SvnRaiseNeverLowersACounter := by
  refine ⟨?raises, ?equal, ?refused, ?reserved⟩
  case raises =>
    intro s mb i v h hi hv hlt h0 h1
    refine ⟨_, ?_, rfl, fun hwf => ?_⟩
    · rw [exec_svnRaise, execSvnRaise, mbxSup_vendor h, mbxIn_sup]
      dsimp only
      rw [if_neg (by omega), if_neg (by omega), if_neg (by omega)]
      rfl
    · simp only [monoGet, queued_sup, core_sup (reply_core ..), notice_sup]
      exact ⟨smGet_smSet_same hwf i v, fun k hk => smGet_smSet_other hwf hk v⟩
  case equal =>
    intro s mb i v h hi hv heq h0 h1
    rw [exec_svnRaise, execSvnRaise, mbxSup_vendor h, mbxIn_sup]
    dsimp only
    rw [if_neg (by omega), if_neg (by omega), if_pos heq]
  case refused =>
    intro s mb i v h hi hv hr
    rw [exec_svnRaise, execSvnRaise, mbxSup_vendor h, mbxIn_sup]
    dsimp only
    rw [if_neg (by omega), if_pos hr]
  case reserved =>
    intro s mb i v h hr
    rw [exec_svnRaise, execSvnRaise, mbxSup_vendor h]
    dsimp only
    rw [if_pos hr]

end Sys2Proof.Proofs
end

section
/-! PROOFS. spec/15_host_link_and_notices.md: the CXL mailbox commands (R423 to R425, Table 15-3), the life of tenants and logical devices
(R418 to R422), subscribers, rings and the host link (R412, R417, R429, R434, R437; R528 of spec/19). The model's choices: log 36 (PRESUMED)
for the bytes CXL 3.1 lays out, log 37 (DESIGN CHOICE) for the timestamp's value. -/

namespace Sys2Proof.Proofs

open Sys2Proof Sys2Proof.Machine Sys2Proof.Laws

variable {s : State} {mb : Mbx} {f : State → State} {fn : Fn} {i n : Nat}

/-! ### The rows -/

theorem exec_getEventRecords (log : Nat) : exec (.getEventRecords mb log) s = execGetEventRecords mb log s := rfl
theorem exec_clearEventRecords (log : Nat) (hs : List Nat) : exec (.clearEventRecords mb log hs) s = execClearEventRecords mb log hs s := rfl
theorem exec_getEventInterruptPolicy : exec (.getEventInterruptPolicy mb) s = execGetEventInterruptPolicy mb s := rfl
theorem exec_setEventInterruptPolicy (p : List Byte) : exec (.setEventInterruptPolicy mb p) s = execSetEventInterruptPolicy mb p s := rfl
theorem exec_getTimestamp : exec (.getTimestamp mb) s = execGetTimestamp mb s := rfl
theorem exec_setTimestamp (t : Nat) : exec (.setTimestamp mb t) s = execSetTimestamp mb t s := rfl
theorem exec_getSupportedLogs : exec (.getSupportedLogs mb) s = execGetSupportedLogs mb s := rfl
theorem exec_getLog (u o n : Nat) : exec (.getLog mb u o n) s = execGetLog mb u o n s := rfl
theorem exec_identifyMemoryDevice : exec (.identifyMemoryDevice mb) s = execIdentifyMemoryDevice mb s := rfl
theorem exec_getDcConfiguration : exec (.getDcConfiguration mb) s = execGetDcConfiguration mb s := rfl
theorem exec_getDcExtentList : exec (.getDcExtentList mb) s = execGetDcExtentList mb s := rfl
theorem exec_mailboxUnsupported (op : Nat) (d : List Byte) : exec (.mailboxUnsupported mb op d) s = execMailboxUnsupported mb op d s := rfl
theorem exec_tenantEnable : exec (.tenantEnable mb n) s = execTenantEnable mb n s := rfl
theorem exec_ldEnable : exec (.ldEnable mb n) s = execLdEnable mb n s := rfl
theorem exec_tenantDisable : exec (.tenantDisable mb n) s = execTenantDisable mb n s := rfl
theorem exec_ldDisable : exec (.ldDisable mb n) s = execLdDisable mb n s := rfl
theorem exec_fnState : exec (.fnState mb fn) s = execFnState mb fn s := rfl
theorem exec_fnDrainDone : exec (.fnDrainDone fn) s = execFnDrainDone fn s := rfl
theorem exec_fnDrainCut : exec (.fnDrainCut fn) s = execFnDrainCut fn s := rfl
theorem exec_fnOff : exec (.fnOff fn) s = execFnOff fn s := rfl
theorem exec_hostLinkUp (w r : Nat) : exec (.hostLinkUp w r) s = execHostLinkUp w r s := rfl
theorem exec_hostLinkDown : exec .hostLinkDown s = execHostLinkDown s := rfl
theorem exec_perstAssert : exec .perstAssert s = execPerstAssert s := rfl
theorem exec_perstRelease : exec .perstRelease s = execPerstRelease s := rfl
theorem exec_noticeSub (op hub ep : Nat) : exec (.noticeSub mb op hub ep) s = execNoticeSub mb op hub ep s := rfl
theorem exec_winList : exec (.winList mb) s = execWinList mb s := rfl
theorem exec_ringCoalesceTimer : exec (.ringCoalesceTimer i) s = execRingCoalesceTimer i s := rfl

/-! ### What the sideband's doorbell leaves -/

theorem mbxEvents_mbxIn (m : Mbx) (log : Nat) : mbxEvents (mbxIn mb s) m log = mbxEvents s m log := by unfold mbxIn; split <;> rfl
theorem policy_mbxIn : (mbxIn mb s).host.policy = s.host.policy := by unfold mbxIn; split <;> rfl
theorem hostTime_mbxIn : hostTime (mbxIn mb s) = hostTime s := by unfold mbxIn; split <;> rfl
theorem fnGet_mbxIn : fnGet (mbxIn mb s) fn = fnGet s fn := by unfold mbxIn; split <;> rfl
theorem tenantGet_mbxIn : tenantGet (mbxIn mb s) n = tenantGet s n := fnGet_mbxIn (fn := .tenant n)
theorem ldGet_mbxIn : ldGet (mbxIn mb s) n = ldGet s n := fnGet_mbxIn (fn := .ld n)
theorem ldBound_mbxIn : ldBound (mbxIn mb s) n = ldBound s n := by unfold mbxIn; split <;> rfl
theorem tenantTiles_mbxIn : tenantTiles (mbxIn mb s) n = tenantTiles s n := by unfold mbxIn; split <;> rfl
theorem tenantJobs_mbxIn : tenantJobs (mbxIn mb s) n = tenantJobs s n := by simp only [tenantJobs, jobGet_mbxIn]

/-! ### CXL mailbox commands (Table 15-3) -/

theorem mbxOnly_cxl (h : cxlReady mb s) : mbxOnly mb (cxlCmd mb f) s = .next ((f (mbxIn mb s)).under s) := by
  rw [mbxOnly_eq, gate_cxl h]

/-- An opcode outside the tables, of a free mailbox. -/
theorem unsupported_free {op : Nat} (hg : mb ≠ .gone) (hb : s.host.busy.contains (mbxKey mb) = false) (hst : s.sup.stage ≠ .recovery) (hop : op < 0xC000 ∨ 0xC0FF < op) :
    unsupported mb op s = s.cxl mb .unsupported := by
  rw [unsupported, if_neg hg, if_neg (Bool.eq_false_iff.mp hb), if_neg hst, if_neg (by omega)]

/-- Settles O32: each command reaches its effect, on the state that has taken the doorbell. -/
theorem cxlMailboxCommandsAnswer : Obligations.CxlMailboxCommandsAnswer := by
  refine ⟨?records, ?clear, ?clearUnknown, ?policy, ?setPolicy, ?timestamp, ?setTimestamp, ?logs, ?log, ?identify, ?mld, ?region, ?extents, ?unknown⟩
  case records =>
    intro s mb log h
    rw [exec_getEventRecords, execGetEventRecords, mbxOnly_cxl h, mbxEvents_mbxIn]
  case clear =>
    intro s mb log hs h hall
    have hknown : hs.all (fun h => (mbxEvents s mb log).any (fun e => e.1 == h)) = true := by simpa using hall
    rw [exec_clearEventRecords, execClearEventRecords, mbxOnly_cxl h, mbxEvents_mbxIn, if_neg (by simp only [hknown]; decide)]
  case clearUnknown =>
    intro s mb log hs h hnot
    have hunknown : hs.all (fun h => (mbxEvents s mb log).any (fun e => e.1 == h)) = false := by
      obtain ⟨k, hk, hne⟩ := hnot
      refine List.all_eq_false.mpr ⟨k, hk, fun hany => ?_⟩
      obtain ⟨e, he, hek⟩ := List.any_eq_true.mp hany
      exact hne e he (eq_of_beq hek)
    rw [exec_clearEventRecords, execClearEventRecords, mbxOnly_cxl h, mbxEvents_mbxIn, if_pos (by simp only [hunknown]; decide)]
  case policy =>
    intro s mb h
    rw [exec_getEventInterruptPolicy, execGetEventInterruptPolicy, mbxOnly_cxl h, policy_mbxIn]
  case setPolicy =>
    intro s mb p h
    rw [exec_setEventInterruptPolicy, execSetEventInterruptPolicy, mbxOnly_cxl h]
  case timestamp =>
    intro s mb h
    rw [exec_getTimestamp, execGetTimestamp, mbxOnly_cxl h, hostTime_mbxIn]
  case setTimestamp =>
    intro s mb t h
    rw [exec_setTimestamp, execSetTimestamp, mbxOnly_cxl h, ← mbxIn_time (mb := mb) (s := s)]
  case logs =>
    intro s mb h
    refine ⟨(anyBytes (mbxIn mb s)).1, (mbxIn mb s).free + 1, ?_⟩
    rw [exec_getSupportedLogs, execGetSupportedLogs, mbxOnly_cxl h]
    rfl
  case log =>
    intro s mb u o n h
    refine ⟨Config.freeBytes ((mbxIn mb s).free + u + o) n, (mbxIn mb s).free + 1, ?_⟩
    rw [exec_getLog, execGetLog, mbxOnly_cxl h]
    rfl
  case identify =>
    intro s mb h
    refine ⟨(anyBytes (mbxIn mb s)).1, (mbxIn mb s).free + 1, ?_⟩
    rw [exec_identifyMemoryDevice, execIdentifyMemoryDevice, mbxOnly_cxl h]
    rfl
  case mld =>
    intro s op d h hlo hhi
    refine ⟨(anyBytes s).1, s.free + 1, ?_⟩
    have hop : Mbx.fm = .fm ∧ 0x5400 ≤ op ∧ op ≤ 0x5406 := ⟨rfl, hlo, hhi⟩
    have hwork : exec (.mldManagement .fm op d) s = mbxOnly .fm (cxlCmd .fm (cxlAny .fm)) s := congrArg (fun f => mbxOnly .fm f s) (funext fun _ => if_pos hop)
    rw [hwork, mbxOnly_cxl h, mbxIn_fm]
    rfl
  case region =>
    intro s i h hlen
    rw [exec_getDcConfiguration, execGetDcConfiguration, mbxOnly_cxl h, mbxIn_ld]
    dsimp only
    rw [if_neg (by omega)]
  case extents =>
    intro s i h
    refine ⟨Config.freeNat s.free, s.free + 1, ?_⟩
    rw [exec_getDcExtentList, execGetDcExtentList, mbxOnly_cxl h, mbxIn_ld]
    rfl
  case unknown =>
    intro s mb op d ⟨hon, hsb, hb, hst⟩ hg hop
    rw [exec_mailboxUnsupported, execMailboxUnsupported, mbxOnly_eq, mbxGate_mbxIn hon hsb,
      unsupported_free hg (by rwa [mbxIn_busy]) (by rwa [mbxIn_sup]) hop]

/-! ### Functions (R418 to R422) -/

/-- The function is a tenant, or an LD bound to one: what an enable acts on. -/
def CanEnable (s : State) : Fn → Prop
  | .tenant _ => True
  | .ld i => ldBound s i = true

theorem enableFn_on (hv : fnValid fn = true) (hb : CanEnable s fn) (hx : (fnGet s fn).state = .on) : enableFn mb fn s = s.reply mb St.ok := by
  unfold enableFn
  dsimp only
  rw [if_neg (by simp [hv]), if_neg (by cases fn <;> simp_all [CanEnable])]
  simp only [hx]

theorem enableFn_off (hv : fnValid fn = true) (hb : CanEnable s fn) (hx : (fnGet s fn).state = .off) (hr : (fnGet s fn).ready ≤ s.tk.num) :
    enableFn mb fn s = (rejoinAll ((fnSet s fn { fnGet s fn with state := .on }).notice 0x0B41 [fnName fn] (fnTenant (fnSet s fn { fnGet s fn with state := .on }) fn))).reply mb St.ok := by
  unfold enableFn
  dsimp only
  rw [if_neg (by simp [hv]), if_neg (by cases fn <;> simp_all [CanEnable])]
  simp only [hx]
  rw [if_neg (Nat.not_lt.mpr hr)]

/-- An enable command of either kind, ready, does its function's enable. -/
theorem exec_enable {c : Instr} (hc : ∃ n, (fn = .tenant n ∧ c = .tenantEnable mb n) ∨ (fn = .ld n ∧ c = .ldEnable mb n ∧ ldBound s n = true))
    (h : vendorReady mb .sys s) : exec c s = .next ((enableFn mb fn (mbxIn mb s)).under s) ∧ CanEnable (mbxIn mb s) fn := by
  obtain ⟨n, ⟨rfl, rfl⟩ | ⟨rfl, rfl, hb⟩⟩ := hc
  · exact ⟨by rw [exec_tenantEnable, execTenantEnable, mbxOnly_vendor h], trivial⟩
  · exact ⟨by rw [exec_ldEnable, execLdEnable, mbxOnly_vendor h], ldBound_mbxIn.trans hb⟩

theorem mbxTenant_none (h : ∀ i, mb ≠ .ld i) : mbxTenant s mb = none := by
  cases mb with
  | ld i => exact absurd rfl (h i)
  | _ => rfl

/-- Settles O33: each command and each event of a function, then the branch its hypotheses pick. -/
theorem functionsTurnOnDrainAndTurnOff : Obligations.FunctionsTurnOnDrainAndTurnOff := by
  refine ⟨?enable, ?enabled, ?tenantDisable, ?ldDisable, ?state, ?drained, ?cut, ?tenantOff, ?ldOff⟩
  case enable =>
    intro s mb fn c hc h hv hx hr
    obtain ⟨he, hb⟩ := exec_enable hc h
    rw [he, enableFn_off hv hb (by rwa [fnGet_mbxIn]) (by rwa [fnGet_mbxIn, mbxIn_tk]), fnGet_mbxIn]
  case enabled =>
    intro s mb fn c hc h hv hx
    obtain ⟨he, hb⟩ := exec_enable hc h
    rw [he, enableFn_on hv hb (by rwa [fnGet_mbxIn])]
  case tenantDisable =>
    intro s mb n h hn hx hj
    rw [exec_tenantDisable, execTenantDisable, mbxOnly_vendor h]
    dsimp only
    rw [if_neg (by omega), tenantGet_mbxIn, if_neg (not_not.mpr hx), tenantJobs_mbxIn, if_neg (by simp [hj]), tenantTiles_mbxIn, ite_not]
  case ldDisable =>
    intro s mb n h hn hx
    rw [exec_ldDisable, execLdDisable, mbxOnly_vendor h]
    dsimp only
    rw [if_neg (by omega), ldGet_mbxIn, if_neg (not_not.mpr hx)]
    simp only [State.hold, mbxIn_time]
  case state =>
    intro s mb fn ⟨hon, hsb, hb, hst⟩ hg hld hv
    rw [exec_fnState, execFnState, mbxOnly_eq, mbxGate_mbxIn hon hsb, if_neg hg, mbxIn_busy, if_neg (Bool.eq_false_iff.mp hb), mbxIn_sup, if_neg hst]
    simp only [mbxTenant_none hld, hv, fnGet_mbxIn]
    rfl
  case drained =>
    intro s fn hon hx hr hq hst
    rw [exec_fnDrainDone, execFnDrainDone, hubOnly_on hon, if_pos ⟨hx, by simp [hr], by simp [hq], by simp [hst]⟩]
  case cut =>
    intro s fn hon hx
    rw [exec_fnDrainCut, execFnDrainCut, hubOnly_on hon]
    dsimp only
    rw [if_neg (not_not.mpr hx)]
    rfl
  case tenantOff =>
    intro s n hon hx he hrng
    rw [exec_fnOff, execFnOff, supOn_on hon]
    dsimp only
    rw [if_neg (by simp [fnGet, hx, he]), if_neg (by simp [hrng])]
    rfl
  case ldOff =>
    intro s i hon hx he
    rw [exec_fnOff, execFnOff, supOn_on hon]
    dsimp only
    rw [if_neg (by simp [fnGet, hx, he])]
    rfl

/-! ### The link, subscribers and rings (R412, R417, R429, R434, R437, R528) -/

theorem linkDown_up (h : s.host.linkUp = true) : linkDown s =
    (let a := (((({ s with host := { s.host with linkUp := false } } : State).put F.HOST_LINK_UP 0).put F.HOST_LINK_WIDTH 0).put F.HOST_LINK_RATE 0).put F.HOST_LINK_DEGRADED 0
     pump ((List.range 16).foldl (fun s i => (slotsOfLd s i).foldl (fun s a => declareLost s a true) s) (a.notice 0x0B44))) := if_neg (by simp [h])

theorem epReserved_iff {ep : Nat} : epReserved ep = true ↔ 0x30 ≤ ep ∧ ep ≤ 0xFD := by simp [epReserved]

/-- NOTICE_SUB of an LD, for its tenant. -/
theorem exec_noticeSub_ld (h : vendorReady (.ld i) .ten s) (op hub ep : Nat) : exec (.noticeSub (.ld i) op hub ep) s = .next ((
      if 4096 ≤ hub ∨ epReserved ep = true ∨ 256 ≤ ep then s.reply (.ld i) St.badDesc
      else if op = 1 then
        (if s.host.subs.contains (ldTenant s i, hub, ep) = true then s.reply (.ld i) St.ok
         else if 8 ≤ (s.host.subs.filter (fun x => x.1 == ldTenant s i)).length then s.reply (.ld i) St.busy
         else ({ s with host := { s.host with subs := s.host.subs ++ [(ldTenant s i, hub, ep)] } } : State).reply (.ld i) St.ok)
      else if op = 2 then ({ s with host := { s.host with subs := s.host.subs.filter (· != (ldTenant s i, hub, ep)) } } : State).reply (.ld i) St.ok
      else s.reply (.ld i) St.badDesc).under s) := by
  rw [exec_noticeSub, execNoticeSub, mbxOnly_vendor_ld h]
  rfl

/-- Settles O34: each event and command, then the branch its hypotheses pick. -/
theorem hostLinkSubscribersAndRings : Obligations.HostLinkSubscribersAndRings := by
  refine ⟨?up, ?down, ?perst, ?perstOff, fun _ => rfl, ?adds, ?removes, ?refuses, ?windows, ?timer⟩
  case up =>
    intro s w r hon hl hp hst
    rw [exec_hostLinkUp, execHostLinkUp, hubOnly_on hon, if_neg (by simp [hl, hp, hst])]
  case down =>
    intro s hon hl
    rw [exec_hostLinkDown, execHostLinkDown, hubOnly_on hon, linkDown_up hl]
  case perst =>
    intro s hon
    have hon' : ({ s with host := { s.host with perst := true } } : State).on = true := hon
    rw [exec_perstAssert, execPerstAssert, supAny_eq, if_pos hon']
    rfl
  case perstOff =>
    intro s hoff
    have hoff' : ¬ ({ s with host := { s.host with perst := true } } : State).on = true := Bool.eq_false_iff.mp hoff
    rw [exec_perstAssert, execPerstAssert, supAny_eq, if_neg hoff']
    rfl
  case adds =>
    intro s i hub ep h hhub hep hnew
    rw [exec_noticeSub_ld h, if_neg (by rw [epReserved_iff]; omega), if_pos rfl, if_neg (by simpa using hnew)]
  case removes =>
    intro s i hub ep h hhub hep
    rw [exec_noticeSub_ld h, if_neg (by rw [epReserved_iff]; omega), if_neg (by decide), if_pos rfl]
  case refuses =>
    intro s i op hub ep h hbad
    rw [exec_noticeSub_ld h]
    by_cases hform : 4096 ≤ hub ∨ epReserved ep = true ∨ 256 ≤ ep
    · rw [if_pos hform]
    · rw [if_neg hform]
      rw [epReserved_iff] at hform
      rw [if_neg (by omega), if_neg (by omega)]
  case windows =>
    intro s i h
    rw [exec_winList, execWinList, mbxOnly_vendor_ld h]
  case timer =>
    intro s i t hon ht
    rw [exec_ringCoalesceTimer, execRingCoalesceTimer, hubOnly_on hon]
    simp only [ht]
    rfl

end Sys2Proof.Proofs
end

section
/-! PROOFS. spec/16_herd_faults_restart.md: the herd's commands (R439, R442, R455 to R458, R460, R463; log 67, DEDUCED, and log 50, DESIGN
CHOICE, for room clearing). -/

namespace Sys2Proof.Proofs

open Sys2Proof Sys2Proof.Machine Sys2Proof.Laws

variable {s : State} {mb : Mbx} {j hub : Nat}

/-! ### The rows -/

theorem exec_herdForm (id n : Nat) : exec (.herdForm mb j id n) s = execHerdForm mb j id n s := rfl
theorem exec_herdAbort : exec (.herdAbort mb j) s = execHerdAbort mb j s := rfl
theorem exec_herdCull : exec (.herdCull mb j hub) s = execHerdCull mb j hub s := rfl
theorem exec_herdScoreClear : exec (.herdScoreClear mb j hub) s = execHerdScoreClear mb j hub s := rfl
theorem exec_herdStatus : exec (.herdStatus mb j) s = execHerdStatus mb j s := rfl
theorem exec_herdShadow (ten va work id : Nat) : exec (.herdShadow mb ten va work id) s = execHerdShadow mb ten va work id s := rfl
theorem exec_herdReimage (va : Nat) : exec (.herdReimage mb j va) s = execHerdReimage mb j va s := rfl
theorem exec_herdRebalance (partner e pva n dva : Nat) : exec (.herdRebalance mb j partner e pva n dva) s = execHerdRebalance mb j partner e pva n dva s := rfl

/-! ### What the sideband's doorbell leaves of the herds -/

theorem herdSlots_mbxIn : herdSlots (mbxIn mb s) = herdSlots s := by simp only [herdSlots, herdGet_mbxIn]
theorem isLeader_mbxIn (h : Herd) : isLeader (mbxIn mb s) h = isLeader s h := by unfold mbxIn; split <;> rfl
theorem memberTable_mbxIn (g : Image) : memberTable (mbxIn mb s) g = memberTable s g := by simp only [memberTable, mbxIn_tk]
theorem mayCull_mbxIn (h : Herd) : mayCull (mbxIn mb s) h = mayCull s h := by unfold mbxIn; split <;> rfl

/-! ### Commands -/

/-- The leader's member a command names. -/
def LeadsMember (s : State) (j hub : Nat) : Prop :=
  j < 32 ∧ (herdGet s j).state ≠ 0 ∧ isLeader s (herdGet s j) = true ∧ (memberOf (herdGet s j) hub).isSome = true

/-- A command that names a member at its leader passes its check. -/
theorem LeadsMember.passes (h : LeadsMember s j hub) :
    ¬ (32 ≤ j ∨ (herdGet s j).state = 0 ∨ (!isLeader s (herdGet s j)) = true ∨ (memberOf (herdGet s j) hub).isNone = true) := by
  obtain ⟨hj, hst, hl, hm⟩ := h
  simp [hj, hst, hl, Option.isNone_eq_false_iff.mpr hm]

theorem LeadsMember.mbxIn (h : LeadsMember s j hub) : LeadsMember (mbxIn mb s) j hub := by
  simpa only [LeadsMember, herdGet_mbxIn, isLeader_mbxIn] using h

/-- A herd that awaits an image, or a shadow that passed, may take one while its job stands FAULTED (R455). -/
theorem reimage_passes (hm : herdMine s mb j = true) (hst : (jobGet s j).state = .faulted) (hc : (jobGet s j).clearing = none)
    (hherd : (herdGet s j).state ∈ [3, 4] ∨ ((herdGet s j).state = 5 ∧ (herdGet s j).passed = true)) :
    ¬ ((!herdMine s mb j) = true ∨ (jobGet s j).state ≠ .faulted ∨ (jobGet s j).clearing.isSome = true
      ∨ ((herdGet s j).state ≠ 3 ∧ (herdGet s j).state ≠ 4 ∧ (!decide ((herdGet s j).state = 5 ∧ (herdGet s j).passed = true)) = true)) := by
  simp only [hm, hst, hc]
  simp only [List.mem_cons, List.not_mem_nil, or_false] at hherd
  simp
  tauto

/-- Settles O48: each command reaches its effect, then the branch its hypotheses pick. -/
theorem herdCommandsAnswer : Obligations.HerdCommandsAnswer := by
  refine ⟨?form, ?abort, ?cull, ?clear, ?status, ?shadow, ?reimage, fun _ _ => rfl, ?rebalance⟩
  case form =>
    intro s mb j id n h hj hst hlo hhi hid
    have hvalid : ¬ (32 ≤ j ∨ (jobGet s j).state ≠ .admitted ∨ n = 0 ∨ (jobGet s j).image.members < n ∨ (herdSlots s).any (fun k => k != j && (herdGet s k).id == id) = true) := by
      simp only [hid, hst]
      simp
      omega
    rw [exec_herdForm, execHerdForm, mbxOnly_vendor h]
    simp only [jobGet_mbxIn, herdSlots_mbxIn, herdGet_mbxIn, memberTable_mbxIn, mbxIn_time]
    rw [if_neg hvalid]
  case abort =>
    intro s mb j h hm
    rw [exec_herdAbort, execHerdAbort, mbxOnly_vendor h, if_pos hm]
  case cull =>
    intro s mb j hub h hj hst hl hm hc
    have hmember : LeadsMember (mbxIn mb s) j hub := LeadsMember.mbxIn ⟨hj, hst, hl, hm⟩
    have hmay : mayCull (mbxIn mb s) (herdGet (mbxIn mb s) j) = true := by rwa [mayCull_mbxIn, herdGet_mbxIn]
    rw [exec_herdCull, execHerdCull, mbxOnly_vendor h]
    dsimp only
    rw [if_neg hmember.passes, if_neg (by rw [hmay]; decide)]
  case clear =>
    intro s mb j hub h hj hst hl hm
    have hmember : LeadsMember (mbxIn mb s) j hub := LeadsMember.mbxIn ⟨hj, hst, hl, hm⟩
    rw [exec_herdScoreClear, execHerdScoreClear, mbxOnly_vendor h]
    dsimp only
    rw [if_neg hmember.passes, herdGet_mbxIn]
  case status =>
    intro s mb j h hm
    rw [exec_herdStatus, execHerdStatus, mbxOnly_vendor h]
    dsimp only
    rw [if_neg (by simp [hm]), herdGet_mbxIn]
  case shadow =>
    intro s u mb ten va work id st j g h ht hw hid hread hidle
    rw [exec_herdShadow, execHerdShadow, mbxOnly_vendor h, herdSlots_mbxIn]
    simp only [herdGet_mbxIn]
    rw [if_neg (by simp only [hid]; simp; omega)]
    simp only [hread, hidle]
    rfl
  case reimage =>
    intro s u i j va st g h hm hst hc hherd hread hnames
    rw [exec_herdReimage, execHerdReimage, mbxOnly_vendor_ld h]
    dsimp only
    rw [if_neg (reimage_passes hm hst hc hherd)]
    simp only [mbxTenant, Option.getD_some, hread]
    rw [if_neg (by rw [hnames]; decide)]
  case rebalance =>
    intro s u i j partner e pva n dva ids h hm hp hpv hdv hlo hhi
    dsimp only
    intro hlock
    rw [exec_herdRebalance, execHerdRebalance, mbxOnly_vendor_ld h, if_neg (by simp only [hm, hpv, hdv]; simp; omega)]
    simp only [hlock]
    rw [if_neg (not_not.mpr rfl)]

end Sys2Proof.Proofs
end

section
/-! PROOFS. spec/16_herd_faults_restart.md: the messages of a herd (R446, R448 to R451, R454, R455, R461, R462; log 40, DEDUCED, for a RESTART
at a member that awaits an image), and its timers (R446, R451, R457, R461, R462; log 62 and log 109, DESIGN CHOICE). -/

namespace Sys2Proof.Proofs

open Sys2Proof Sys2Proof.Machine Sys2Proof.Laws

variable {s u : State} {c a : Cell} {j inp : Nat} {f : HerdEff}

/-! ### The inbox (R462) -/

/-- A row that takes one message of the herd inbox: its command, the message's code, and the message's effect. -/
abbrev HerdRow : Type := (Nat → Cell → Instr) × Nat × HerdEff

/-- The row takes its message at HERD_INBOX. -/
def HerdRow.AtInbox (r : HerdRow) : Prop := ∀ inp c s, exec (r.1 inp c) s = hubOnly (herdRow r.2.1 r.2.2 inp c) s

/-- The rows of Table 16-3. (Noncomputable as `cellRows` is.) -/
noncomputable def herdRows : List HerdRow :=
  [(.beat, 0x01, beatMsg), (.epochDone, 0x02, epochDoneMsg), (.epochCommit, 0x03, epochCommitMsg), (.restart, 0x04, restartMsg), (.restored, 0x05, restoredMsg), (.digest, 0x06, digestMsg),
    (.members, 0x07, membersMsg), (.restoreReq, 0x08, fun s _ c => restoreReq s c), (.shadowPassed, 0x09, shadowPassedMsg)]

theorem herdRows_atInbox : ∀ r ∈ herdRows, HerdRow.AtInbox r := by
  simp only [herdRows, List.forall_mem_cons, List.not_mem_nil, false_imp_iff, implies_true, and_true]
  refine ⟨?beat, ?done, ?commit, ?restart, ?restored, ?digest, ?members, ?restoreReq, ?passed⟩
  all_goals exact fun _ _ _ => rfl

/-- A message of the row's code is applied at its hub. -/
theorem exec_herdRow_here {r : HerdRow} (hr : r.AtInbox) (h : cellHere s inp c a u) (hm : isMsg herdInbox r.2.1 a = true) :
    exec (r.1 inp c) s = .next ((giveBack (herdApply r.2.2 a u) inp a.vn).under s) := by
  rw [exec_arriveHere_here (hr inp c s) h, if_pos hm]

/-- What names a message among those its herd has applied. -/
def msgKey (c : Cell) : Nat × Nat × Nat := (getLE c.payload 2 2, getLE c.payload 0 1, getLE c.payload 8 4)

theorem herdApply_stranger (h : slotOfHerd s (getLE c.payload 4 4) = none) : herdApply f c s = respond s c 0x12 St.ok 0 [] := by
  simp only [herdApply, h]

theorem herdApply_again (h : slotOfHerd s (getLE c.payload 4 4) = some j) (hk : msgKey c ∈ (herdGet s j).applied) :
    herdApply f c s = respond s c 0x12 St.ok 0 [] := by
  simp only [herdApply, h]
  exact if_pos (List.contains_iff_mem.mpr hk)

/-- The herd of a slot notes a message it has taken with OK. -/
def notedMsg (s : State) (j st : Nat) (key : Nat × Nat × Nat) : State :=
  if st = St.ok ∧ hasHerd s j = true then herdSet s j { (herdGet s j) with applied := key :: (herdGet s j).applied } else s

theorem herdApply_first (h : slotOfHerd s (getLE c.payload 4 4) = some j) (hk : msgKey c ∉ (herdGet s j).applied) :
    herdApply f c s = respond (notedMsg (f s j c).2 j (f s j c).1 (msgKey c)) c 0x12 (f s j c).1 0 [] := by
  simp only [herdApply, h]
  exact if_neg (mt List.contains_iff_mem.mp hk)

/-! ### The effects (Table 16-3) -/

/-- A working member's herd, neither awaiting an image nor stalled, meets a RESTART by its job's state (R450). -/
theorem restartMsg_working (hh : (herdGet s j).state ∉ [3, 4, 5]) : restartMsg s j c =
    if (jobGet s j).state ≠ .faulted then (St.ok, s)
    else if mTick c = 0 then (St.ok, startRestore (if mArg c 0 = 0 then s else commitEpoch s j (mEpoch c)) j (mEpoch c) (mArg c 0))
    else
      let s := armJob s j (mTick c) (mArg c 0)
      let s := herdSet s j { (herdGet s j) with active := false, stop := none, matched := 0, digestWait := 0, copies := [], members := (herdGet s j).members.map (fun m => { m with stopped := false, restored := none, beat := s.tk.num }) }
      let (n, s) := s.draw
      let s := herdSet s j { (herdGet s j) with shadower := Config.shadower n }
      (St.ok, herdNote (s.bump (F.HERD_COUNT_RESTARTS j)) j 0x0902 [mEpoch c, mArg c 0, mTick c]) := by
  simp only [List.mem_cons, List.not_mem_nil, or_false, not_or] at hh
  obtain ⟨h3, h4, h5⟩ := hh
  have hactive : ((herdGet s j).state == 5) = false := beq_eq_false_iff_ne.mpr h5
  unfold restartMsg
  simp only [h3, h4, h5, hactive, or_false, false_and, decide_false, Bool.not_false, and_true, if_false]

theorem restartMsg_notFaulted (hh : (herdGet s j).state ∉ [3, 4, 5]) (hx : (jobGet s j).state ≠ .faulted) : restartMsg s j c = (St.ok, s) := by
  rw [restartMsg_working hh, if_pos hx]

theorem restartMsg_restore (hh : (herdGet s j).state ∉ [3, 4, 5]) (hx : (jobGet s j).state = .faulted) (ht : mTick c = 0) (hje : mArg c 0 ≠ 0) :
    restartMsg s j c = (St.ok, startRestore (commitEpoch s j (mEpoch c)) j (mEpoch c) (mArg c 0)) := by
  rw [restartMsg_working hh, if_neg (not_not.mpr hx), if_pos ht, if_neg hje]

/-- The herd's record once its job is armed for a restart (R450). -/
def armedHerd (s : State) (j : Nat) : State :=
  herdSet s j { (herdGet s j) with active := false, stop := none, matched := 0, digestWait := 0, copies := [], members := (herdGet s j).members.map (fun m => { m with stopped := false, restored := none, beat := s.tk.num }) }
/-- The shadow of the herd's coming run, a free value of the model. -/
def shadowedHerd (s : State) (j : Nat) : State := herdSet { s with free := s.free + 1 } j { (herdGet s j) with shadower := Config.shadower s.free }

theorem restartMsg_arm (hh : (herdGet s j).state ∉ [3, 4, 5]) (hx : (jobGet s j).state = .faulted) (ht : mTick c ≠ 0) :
    restartMsg s j c = (St.ok, herdNote ((shadowedHerd (armedHerd (armJob s j (mTick c) (mArg c 0)) j) j).bump (F.HERD_COUNT_RESTARTS j)) j 0x0902 [mEpoch c, mArg c 0, mTick c]) := by
  rw [restartMsg_working hh, if_neg (not_not.mpr hx), if_neg ht]
  rfl

/-- The leader's record of a member that has answered with a status. -/
def restoredHerd (s : State) (j : Nat) (c : Cell) (st : Nat) : Herd := setMember (herdGet s j) (mSender c) (fun m => { m with restored := some st })

theorem restoredMsg_member (hm : (memberOf (restoredHerd s j c (getLE c.payload 1 1)) (mSender c)).isSome = true) : restoredMsg s j c =
    let st := getLE c.payload 1 1
    let h := restoredHerd s j c st
    let s := herdSet s j h
    if st ≠ St.ok then (St.ok, dataLost s j)
    else if isLeader s h = true ∧ (current h).all (fun m => m.restored == some St.ok) = true then (St.ok, sendArm s j) else (St.ok, s) := by
  have hmember : ¬ (memberOf (restoredHerd s j c (getLE c.payload 1 1)) (mSender c)).isNone = true := by simpa [Option.isSome_iff_ne_none] using hm
  exact if_neg hmember

theorem restoredMsg_failed (hm : (memberOf (restoredHerd s j c (getLE c.payload 1 1)) (mSender c)).isSome = true) (hst : getLE c.payload 1 1 ≠ St.ok) :
    restoredMsg s j c = (St.ok, dataLost (herdSet s j (restoredHerd s j c (getLE c.payload 1 1))) j) := by
  rw [restoredMsg_member hm]
  exact if_pos hst

theorem restoredMsg_ok (hst : getLE c.payload 1 1 = St.ok) (hm : (memberOf (restoredHerd s j c St.ok) (mSender c)).isSome = true)
    (hl : isLeader (herdSet s j (restoredHerd s j c St.ok)) (restoredHerd s j c St.ok) = true) :
    restoredMsg s j c = (St.ok, if (current (restoredHerd s j c St.ok)).all (fun m => m.restored == some St.ok) = true
      then sendArm (herdSet s j (restoredHerd s j c St.ok)) j else herdSet s j (restoredHerd s j c St.ok)) := by
  rw [restoredMsg_member (by rwa [hst]), hst]
  dsimp only
  rw [if_neg (not_not.mpr rfl)]
  by_cases hall : (current (restoredHerd s j c St.ok)).all (fun m => m.restored == some St.ok) = true
  · rw [if_pos ⟨hl, hall⟩, if_pos hall]
  · rw [if_neg (fun h => hall h.2), if_neg hall]

theorem digestMsg_differs (ha : (herdGet s j).active = true) (hw : mSender c = (herdGet s j).work) (ht : mTick c = (herdGet s j).digest.1)
    (hd : (mArg c 0, mArg c 1) ≠ (herdGet s j).digest.2) : digestMsg s j c = (St.ok, shadowFail s j) := by
  have hsame : ¬ ((!(herdGet s j).active) = true ∨ mSender c ≠ (herdGet s j).work ∨ mTick c ≠ (herdGet s j).digest.1) := by simp [ha, hw, ht]
  unfold digestMsg
  dsimp only
  rw [if_neg hsame, if_pos hd]

theorem restoreReq_noWindow (hw : (s.xlt.wins.map Prod.snd).find? (fun w => w.en && w.src == mSender c && w.tag == bits (mArg c 1) 47 32) = none) :
    restoreReq s c = (St.window, s) := by
  unfold restoreReq
  simp only [hw]

/-- Settles O49: a message is a stranger's, an old one or a new one; then each effect, on the branch its hypotheses pick. -/
theorem herdMessagesAreTakenAndAcknowledged : Obligations.HerdMessagesAreTakenAndAcknowledged := by
  refine ⟨?stranger, ?again, ?first, fun _ _ _ => ⟨rfl, rfl, rfl⟩, ?restart, ?restoredBad, ?restoredOk, ?digest, ?members, ?passed, ?window⟩
  case stranger =>
    intro r hr s u inp c a h hm hs
    rw [exec_herdRow_here (herdRows_atInbox r hr) h hm, herdApply_stranger hs]
  case again =>
    intro r hr s u inp j c a h hm hs hk
    rw [exec_herdRow_here (herdRows_atInbox r hr) h hm, herdApply_again hs hk]
  case first =>
    intro r hr s u inp j c a h hm hs key hk
    rw [exec_herdRow_here (herdRows_atInbox r hr) h hm, herdApply_first hs hk]
    rfl
  case restart =>
    exact fun s j c => ⟨fun hh => if_pos hh, restartMsg_notFaulted, restartMsg_restore, restartMsg_arm⟩
  case restoredBad => exact fun s j c => restoredMsg_failed
  case restoredOk => exact fun s j c hst => restoredMsg_ok hst
  case digest => exact fun s j c => digestMsg_differs
  case members =>
    intro s j c hx
    unfold membersMsg
    dsimp only
    rw [if_neg (fun h => hx h.1)]
    rfl
  case passed =>
    intro s j c hl
    unfold shadowPassedMsg
    dsimp only
    rw [if_pos hl]
    rfl
  case window => exact fun s c => restoreReq_noWindow

/-! ### Timers -/

theorem exec_beatSend : exec .beatSend s = execBeatSend s := rfl
theorem exec_memberLost (hub : Nat) : exec (.memberLost j hub) s = execMemberLost j hub s := rfl
theorem exec_scoreDecay : exec .scoreDecay s = execScoreDecay s := rfl
theorem exec_cullBudgetExpire : exec .cullBudgetExpire s = execCullBudgetExpire s := rfl
theorem exec_restoreComplete : exec (.restoreComplete j) s = execRestoreComplete j s := rfl
theorem exec_digestMissing : exec (.digestMissing j) s = execDigestMissing j s := rfl
theorem exec_herdMessageRetry (id : Nat) : exec (.herdMessageRetry id) s = execHerdMessageRetry id s := rfl

/-- A cull holds its budget for 3,600 s (R457). -/
theorem cullHold : 3600 * ms 1000 = 1800000000000 := rfl

/-- Settles O50: each timer, then the branch its hypotheses pick. -/
theorem herdTimersAndLiveness : Obligations.HerdTimersAndLiveness := by
  refine ⟨?beat, ?early, ?lost, ?decay, ?budget, ?restored, ?failed, ?digest, ?retry⟩
  case beat =>
    intro s hon hb
    rw [exec_beatSend, execBeatSend, hubOnly_on hon, if_neg (Nat.not_lt.mpr hb)]
  case early =>
    intro s hon hb
    rw [exec_beatSend, execBeatSend, hubOnly_on hon, if_pos hb]
    rfl
  case lost =>
    intro s j hub m hon hst hm hb
    rw [exec_memberLost, execMemberLost, hubOnly_on hon]
    simp only [hm]
    rw [if_pos ⟨hst, hb⟩]
  case decay =>
    intro s n hon hn
    rw [exec_scoreDecay, execScoreDecay, hubOnly_on hon]
    simp only [hn]
    rfl
  case budget =>
    intro s c hon hc
    rw [exec_cullBudgetExpire, execCullBudgetExpire, hubOnly_on hon]
    simp only [hc, cullHold]
    rfl
  case restored =>
    intro s j e hon hf hr hst hw
    rw [exec_restoreComplete, execRestoreComplete, hubOnly_on hon]
    dsimp only
    rw [if_neg (by simp [hf])]
    simp only [hr, hst]
    rw [if_neg (by simp [hw])]
  case failed =>
    intro s j e st hon hf hr hst
    rw [exec_restoreComplete, execRestoreComplete, hubOnly_on hon]
    dsimp only
    rw [if_neg (by simp [hf])]
    simp only [hr, hst]
  case digest =>
    intro s j hon ha hw
    rw [exec_digestMissing, execDigestMissing, hubOnly_on hon]
    dsimp only
    rw [if_pos ⟨ha, hw⟩]
  case retry =>
    intro s id m hon hm
    rw [exec_herdMessageRetry, execHerdMessageRetry, hubOnly_on hon]
    simp only [hm]
    rfl

end Sys2Proof.Proofs
end
